-- ==== Sys2Proof/Word.lean ====
section
/-! DEFINITION. The word types of the block and their plainest arithmetic. -/

namespace Sys2Proof

/-- A byte of memory. -/
abbrev Byte := BitVec 8

/-- A 32-bit word: a register of the block, a dword of a packet, a lane of a vector register. -/
abbrev Word := BitVec 32

/-- A 64-bit word: an address, a fence value, an instruction word. -/
abbrev DWord := BitVec 64

/-- Division rounded up, as the manual's pseudocode writes it (Notation, "Pseudocode"). -/
def ceilDiv (a b : Nat) : Nat := if b = 0 then 0 else (a + b - 1) / b

/-- The size of one 4 MiB granule (R4, R26). -/
def granuleBytes : Nat := 4194304

/-- The value of a w-bit word read as a two's complement integer. -/
def signedOf (w : Nat) (v : Nat) : Int :=
  if 2 * v < 2 ^ w then Int.ofNat v else Int.ofNat v - Int.ofNat (2 ^ w)

/-- The nearest value of an inclusive range ("values outside act as the nearer limit"). -/
def clampNat (lo hi v : Nat) : Nat := if v < lo then lo else if hi < v then hi else v

end Sys2Proof
end

