-- ==== Sys2Proof/Syntax.lean ====
section
/-! DEFINITION. The commands of the block: one constructor of Instr for each row of spec/opcode_table.json,
with its operands. The plain data that the operands are made of stands before it. -/

namespace Sys2Proof

/-- How a memory access of the device ended: with data; in poison; with an error response of an island in reset (R20, R94);
or, across the link, by the Completion Timeout, with Unsupported Request or Completer Abort, or because the link went down
(R412). -/
inductive AccessEnd where
  | ok
  | poison
  | targetReset
  | timeout
  | unsupported
  | abort
  | linkDown
deriving DecidableEq, Repr

/-- A Heith instruction's words without the opcode, which the constructor names: the fields of R98 below bit 56,
and the extension word when the X bit is 1; with them, how the fetch of the words ended (R412). -/
structure HWord where
  pn   : Bool
  pg   : BitVec 3
  mode : BitVec 5
  dk   : BitVec 2
  dst  : BitVec 8
  k0   : BitVec 2
  src0 : BitVec 8
  k1   : BitVec 2
  src1 : BitVec 8
  k2   : BitVec 2
  src2 : BitVec 8
  rsv  : BitVec 6
  ext  : Option (BitVec 64)
  fetch : AccessEnd
deriving DecidableEq, Repr

/-- Where Headgate takes a packet from: a queue's ring or a function's mailbox (R264, R284). -/
inductive Src where
  | queue (fn q : Nat)
  | mailbox (fn : Nat)
deriving DecidableEq, Repr

/-- A command packet as Headgate read it (R265), without OPCODE, which the constructor names.
`params` holds the dwords after the 16-byte header. `ring` says how the read of the ring ended (R268), `named` how the reads
of what the packet names by address ended (R414). -/
structure Packet where
  barrier   : Bool
  irq       : Bool
  rsv0      : BitVec 6
  len       : BitVec 16
  seq       : Word
  ctx       : BitVec 16
  queue     : BitVec 16
  rsv3      : Word
  params    : List Word
  ring      : AccessEnd
  named     : AccessEnd
deriving DecidableEq, Repr

/-- The 60 engines that hold a command ring (R172), by kind and number. -/
inductive Engine where
  | cluster (i : Nat)
  | front (i : Nat)
  | array (i : Nat)
  | copy (i : Nat)
deriving DecidableEq, Repr

/-- Who makes a memory access. -/
inductive Requester where
  | engine (e : Engine)
  | pipe (p : Nat)
  | compositor
  | camera
  | headgate
  | sluice
  | host (fn : Nat)
deriving DecidableEq, Repr

/-- The targets of a range (R305), and of an access once translated. -/
inductive Target where
  | dram
  | reservoir
  | host
  | peer
deriving DecidableEq, Repr

/-- An error that the check of an access found in one 64-bit word, given by the word's byte address (R43, R65). -/
structure EccHit where
  addr          : Nat
  uncorrectable : Bool
deriving DecidableEq, Repr

/-- What the SECDED and parity of a system cache line found (R60). -/
inductive ArrayError where
  | none
  | correctable
  | tagParity
  | uncorrectable
deriving DecidableEq, Repr

/-- A span of bytes within one line. -/
structure Span where
  addr : Nat
  len  : Nat
deriving DecidableEq, Repr

/-- A line as the slice reads it for its write-back, with what its parity and code show (R56, R60). -/
structure WriteBack where
  line : Nat
  err  : ArrayError
deriving DecidableEq, Repr

/-- What the slice finds for an atomic: the line that gives way for its line, and what parity and code show of it (R59, R60). -/
structure AtomicFind where
  victim : Nat
  err    : ArrayError
deriving DecidableEq, Repr

/-- A refresh command of a channel: of one bank, or refresh management (R63). -/
inductive RefreshOp where
  | perBank (ch : Nat)
  | management (ch : Nat)
deriving DecidableEq, Repr

/-- What link ECC found on a read (R63, R65, R70). -/
inductive LinkEcc where
  | ok
  | corrected
  | uncorrectable
deriving DecidableEq, Repr

/-- A stream of a slice: a requester together with a context (R51). -/
structure Stream where
  who : Requester
  fn  : Nat
  ctx : Nat
deriving DecidableEq, Repr

/-- The outcome of a request that the device issued on the link (R412). -/
inductive CplStatus where
  | success
  | unsupported
  | abort
deriving DecidableEq, Repr

/-- A plug, an unplug or an IRQ pulse on a pipe's HPD input (R201). -/
inductive HpdKind where
  | plug
  | unplug
  | irq
deriving DecidableEq, Repr

/-- The header check of a CSI-2 packet (R222). -/
inductive HdrCheck where
  | good
  | corrected
  | uncorrectable
deriving DecidableEq, Repr

/-- A long CSI-2 packet's line as the receiver takes it. -/
structure CsiLine where
  dt     : BitVec 6
  hdr    : HdrCheck
  crcBad : Bool
  row    : Nat
  pixels : List Nat
deriving DecidableEq, Repr

/-- How the verification or the start of a firmware image ended, as an event brings it (R363, R368, R371). -/
inductive FwEnd where
  | ok
  | digest
  | importFail
deriving DecidableEq, Repr

/-- The bank indices that MBIST found failing, for the eight bank groups in order (R25). -/
abbrev MbistResult := List (List Nat)

/-- The commands: one constructor for each row of spec/opcode_table.json, those without operands last. -/
inductive Instr where
  -- Heith instructions of group g on cluster c (chapter 03, R98 to R103; chapter 04, R128, R131, R136)
  | skip (c g : Nat) (w : HWord)
  | endGroup (c g : Nat) (w : HWord)
  | jump (c g : Nat) (w : HWord)
  | call (c g : Nat) (w : HWord)
  | ret (c g : Nat) (w : HWord)
  | sync (c g : Nat) (w : HWord)
  | order (c g : Nat) (w : HWord)
  | cede (c g : Nat) (w : HWord)
  | sval (c g : Nat) (w : HWord)
  | dbgstop (c g : Nat) (w : HWord)
  | iadd (c g : Nat) (w : HWord)
  | isub (c g : Nat) (w : HWord)
  | imul (c g : Nat) (w : HWord)
  | imulhi (c g : Nat) (w : HWord)
  | imuladd (c g : Nat) (w : HWord)
  | imin (c g : Nat) (w : HWord)
  | imax (c g : Nat) (w : HWord)
  | iabs (c g : Nat) (w : HWord)
  | and (c g : Nat) (w : HWord)
  | or (c g : Nat) (w : HWord)
  | xor (c g : Nat) (w : HWord)
  | not (c g : Nat) (w : HWord)
  | shl (c g : Nat) (w : HWord)
  | shr (c g : Nat) (w : HWord)
  | fldx (c g : Nat) (w : HWord)
  | fldi (c g : Nat) (w : HWord)
  | bitcnt (c g : Nat) (w : HWord)
  | leadz (c g : Nat) (w : HWord)
  | bitrev (c g : Nat) (w : HWord)
  | iadd64 (c g : Nat) (w : HWord)
  | imuladdw (c g : Nat) (w : HWord)
  | icmp (c g : Nat) (w : HWord)
  | pick (c g : Nat) (w : HWord)
  | mov (c g : Nat) (w : HWord)
  | fadd (c g : Nat) (w : HWord)
  | fmul (c g : Nat) (w : HWord)
  | fmuladd (c g : Nat) (w : HWord)
  | fmin (c g : Nat) (w : HWord)
  | fmax (c g : Nat) (w : HWord)
  | fcmp (c g : Nat) (w : HWord)
  | frecip (c g : Nat) (w : HWord)
  | frsqrt (c g : Nat) (w : HWord)
  | fsqrt (c g : Nat) (w : HWord)
  | fexp2 (c g : Nat) (w : HWord)
  | flog2 (c g : Nat) (w : HWord)
  | fsin (c g : Nat) (w : HWord)
  | fcos (c g : Nat) (w : HWord)
  | hpadd (c g : Nat) (w : HWord)
  | hpmul (c g : Nat) (w : HWord)
  | hpmuladd (c g : Nat) (w : HWord)
  | hpmin (c g : Nat) (w : HWord)
  | hpmax (c g : Nat) (w : HWord)
  | hpcmp (c g : Nat) (w : HWord)
  | dadd (c g : Nat) (w : HWord)
  | dmul (c g : Nat) (w : HWord)
  | dmuladd (c g : Nat) (w : HWord)
  | dcmp (c g : Nat) (w : HWord)
  | dmin (c g : Nat) (w : HWord)
  | dmax (c g : Nat) (w : HWord)
  | convFF (c g : Nat) (w : HWord)
  | convFI (c g : Nat) (w : HWord)
  | convIF (c g : Nat) (w : HWord)
  | ld (c g : Nat) (w : HWord)
  | st (c g : Nat) (w : HWord)
  | ldw (c g : Nat) (w : HWord)
  | stw (c g : Nat) (w : HWord)
  | rmw (c g : Nat) (w : HWord)
  | rmwn (c g : Nat) (w : HWord)
  | rmww (c g : Nat) (w : HWord)
  | ldsc (c g : Nat) (w : HWord)
  | sample (c g : Nat) (w : HWord)
  | fetch (c g : Nat) (w : HWord)
  | tilerd (c g : Nat) (w : HWord)
  | tilewr (c g : Nat) (w : HWord)
  | emit (c g : Nat) (w : HWord)
  | ray (c g : Nat) (w : HWord)
  | rayresume (c g : Nat) (w : HWord)
  | rayaccept (c g : Nat) (w : HWord)
  | rayTraversalDone (c g : Nat) (visits : Nat)
  | xlane (c g : Nat) (w : HWord)
  | preduce (c g : Nat) (w : HWord)
  | pxfer (c g : Nat) (w : HWord)
  | plogic (c g : Nat) (w : HWord)
  | lreduce (c g : Nat) (w : HWord)
  | unassignedInstruction (c g : Nat) (op : BitVec 8) (w : HWord)
  -- faults, parking and kernels (R74, R75, R89, R95, R311)
  | faultReport (i : Nat)
  | kernelStop (c : Nat)
  | groupsParked (fn ctx : Nat)
  | kernelDispatch (c : Nat)
  | clusterUnitEnd (c : Nat)
  | accessComplete (e : Engine) (epoch : BitVec 8) (how : AccessEnd)
  -- Reservoir, system cache and DRAM (chapter 02)
  | reservoirAccess (who : Requester) (write : Bool) (addr len : Nat) (data : List Byte) (errs : List EccHit)
  | reservoirAtomic (who : Requester) (op : BitVec 4) (wide : Bool) (addr : Nat) (x cmp : BitVec 64) (errs : List EccHit)
  | scrubLine (errs : List EccHit)
  | systemCacheAccess (s : Stream) (tgt : Target) (a : Span) (cacheable hint : Bool) (victim : Nat) (err : ArrayError)
  | sliceStore (s : Stream) (tgt : Target) (addr : Nat) (data : List Byte) (cacheable hint : Bool) (victim : Nat)
  | trackerIdleExpiry (slice : Nat) (s : Stream)
  | sliceFillComplete (slice : Nat) (s : Stream) (how : AccessEnd)
  | writeAroundDrain (slice : Nat)
  | writeBackAccepted (slice : Nat) (tgt : Target) (w : WriteBack)
  | sliceAtomic (s : Stream) (tgt : Target) (addr : Nat) (op : BitVec 4) (wide : Bool) (x cmp : BitVec 64) (cacheable : Bool) (found : AtomicFind)
  | wayGroupPowerDown (slice group : Nat)
  | wayGroupCleaned (slice group : Nat)
  | dramAccess (write : Bool) (addr len : Nat) (data : List Byte) (valid : List Bool) (errs : List EccHit) (link : LinkEcc) (allocates : Bool)
  | dramRefresh (r : RefreshOp)
  | mr4Poll (ch : Nat) (rate : Nat)
  | dqsOscillatorCheck (sub : Nat) (drift : Nat)
  | retraining (ch : Nat)
  | retrainingDone (ch : Nat)
  | patrol (errs : List EccHit)
  | scModeWrite (v : Word)
  | registerWrite (fn : Nat) (off : Nat) (v : Word)
  -- tile pipeline (chapter 04)
  | passStart (f : Nat)
  | geometryBatchDone (f : Nat) (half : Nat)
  | flushTilesStored (f : Nat)
  | passComplete (f : Nat)
  | tileStore (c tile : Nat)
  | quadDispatch (f slice qx qy : Nat) (seq : BitVec 32)
  | fragmentArrive (slice qx qy : Nat) (seq : BitVec 32)
  -- Nersovo engine (chapter 05)
  | layerStart (a : Nat)
  | layerComplete (a : Nat)
  | netRunRestart (job : Nat)
  | flumeGrant (f c tile a : Nat)
  | flumeAccess (a c : Nat) (write : Bool) (off len : Nat) (data : List Byte)
  | flumeRelease (a : Nat)
  -- Sluice (chapter 06); us is the Sluice timer at the event
  | schedulePick (e : Engine) (us : Nat)
  | switchDrained (e : Engine)
  | makeResident (fn ctx : Nat)
  | slotOpen (i : Nat) (us : Nat)
  | slotClose (i : Nat) (us : Nat)
  | slotLapse (i : Nat) (us : Nat)
  | remoteWaitPoll (e : Engine) (how : AccessEnd)
  | evictedFencePoll (fn ctx : Nat) (how : AccessEnd)
  -- display and cameras (chapter 07)
  | vblankStart (p : Nat) (us : Nat)
  | flatWriteDone (p : Nat)
  | pixelUnderrun (p : Nat)
  | protectCrcCheck (p : Nat)
  | dspCtrlCommit (p : Nat)
  | linkTrain (p : Nat)
  | auxGo (p : Nat)
  | auxTransactionDone (p : Nat) (result : BitVec 2) (data : List Byte)
  | hpdEvent (p : Nat) (kind : HpdKind)
  | trainingLost (p : Nat)
  | camStart (port : Nat)
  | camStop (port : Nat)
  | csiPacket (port vc : Nat) (line : CsiLine)
  | frameStart (port vc : Nat)
  | frameEndPacket (port vc : Nat)
  | frameEnd (port vc : Nat) (us : Nat)
  -- host link and functions (chapters 08 and 09)
  | doorbellWrite (fn off size : Nat) (v : BitVec 64)
  | bar0Access (fn : Nat) (write : Bool) (off size : Nat) (v : BitVec 64)
  | bar2Access (fn : Nat) (write : Bool) (off len : Nat) (data : List Byte) (ep : Bool) (errs : List EccHit)
  | bar4Access (fn : Nat) (write : Bool) (off len : Nat) (data : List Byte) (ep : Bool) (errs : List EccHit)
  | msixVectorUnmask (fn vec : Nat)
  | configAccess (fn : Nat) (write : Bool) (off : Nat) (v : Word)
  | flr (fn : Nat)
  | completionReceived (tag : Nat) (st : CplStatus) (data : List Byte)
  | completionTimeout (tag : Nat)
  | doeDiscovery (fn : Nat) (req : List Byte)
  | getVersion (fn : Nat) (req : List Byte)
  | getCapabilities (fn : Nat) (req : List Byte)
  | negotiateAlgorithms (fn : Nat) (req : List Byte)
  | getDigests (fn : Nat) (req : List Byte)
  | getCertificate (fn : Nat) (req : List Byte)
  | challenge (fn : Nat) (req : List Byte)
  | getMeasurements (fn : Nat) (req : List Byte)
  | doeAbort (fn : Nat)
  | fnErrClear (fn : Nat)
  | mboxGo (fn : Nat)
  -- command packets (R278)
  | unassignedOpcode (src : Src) (op : BitVec 8) (p : Packet)
  | jobEnd (job : Nat)
  | leveeSet (src : Src) (p : Packet)
  | sluiceLoad (src : Src) (p : Packet)
  | powerState (src : Src) (p : Packet)
  | fwStage (src : Src) (p : Packet)
  | fwStageWritten (ok : Bool)
  | fwActivate (src : Src) (p : Packet)
  | fwActivateCancel (src : Src) (p : Packet)
  | handoverDone (proc : Nat) (how : FwEnd)
  | marginReplan (src : Src) (p : Packet)
  | protectSet (src : Src) (p : Packet)
  | ctxCreate (src : Src) (p : Packet)
  | ctxDestroy (src : Src) (p : Packet)
  | teardownDrained (fn ctx : Nat)
  | flushReadComplete (tag : Nat)
  | queueCreate (src : Src) (p : Packet)
  | queueDestroy (src : Src) (p : Packet)
  | ctxReplay (src : Src) (p : Packet)
  | rangeMap (src : Src) (p : Packet)
  | rangeUnmap (src : Src) (p : Packet)
  | unmapDrained (fn ctx : Nat)
  | rangeCheck (src : Src) (p : Packet)
  | rangeWalk (who : Requester) (fn ctx : Nat) (va : BitVec 64)
  | fenceInit (src : Src) (p : Packet)
  | fenceSignal (src : Src) (p : Packet)
  | fenceWait (src : Src) (p : Packet)
  | passSubmit (src : Src) (p : Packet)
  | kernelSubmit (src : Src) (p : Packet)
  | netLoad (src : Src) (p : Packet)
  | netRun (src : Src) (p : Packet)
  | netUnload (src : Src) (p : Packet)
  | copy (src : Src) (p : Packet)
  | copyChunk (e : Nat)
  | copyChunkDone (e : Nat) (how : AccessEnd)
  | dspLayerSet (src : Src) (p : Packet)
  | dspCommit (src : Src) (p : Packet)
  | camConfig (src : Src) (p : Packet)
  | camBind (src : Src) (p : Packet)
  | powerVote (src : Src) (p : Packet)
  | telemetryRead (src : Src) (p : Packet)
  | clockCorrelate (src : Src) (p : Packet)
  | attest (src : Src) (p : Packet)
  | resetDomain (src : Src) (p : Packet)
  | dumpCollect (src : Src) (p : Packet)
  | progressRead (src : Src) (p : Packet)
  | nop (src : Src) (p : Packet)
  -- recovery and telemetry (chapter 14)
  | resetComplete (i : Nat)
  | resetLimitExpiry (i : Nat)
  | testEnter (fn : Nat)
  | testExit (fn : Nat)
  | telemetryPageWrite (fn : Nat)
  | flashLogAppend (type : BitVec 8) (payload : List Byte) (ok : Bool)
  -- power, clocks and ageing (chapter 12)
  | powerWindow (mw : Nat)
  | sensorSample (temps : List Int)
  | droopStretch (island : Nat)
  | severeDroop (island : Nat)
  | severeDroopEnd (island : Nat)
  | voltageTrim (island : Nat) (slack : Int)
  | pointChange (island : Nat)
  | a2Entry (e : Engine)
  | a2Wake (e : Engine)
  | replanDone (fmax : List Nat) (logOk : Bool)
  | s3Wake (src : BitVec 4) (crcOk : Bool)
  | i3cAddressMatch (i2c : Bool)
  | perst (level : Bool)
  | corePgood (level : Bool)
  | coldBoot (mbist : MbistResult) (cfgCrcOk : Bool)
  | mbistComplete (failing : MbistResult)
  | watchdogExpiry (proc : Nat) (ramOk : Bool)
  | processorException (proc : Nat) (ramOk : Bool)
  | processorRestartDone (proc : Nat)
  | dpLinkTrainingDone (p : Nat) (ok : Bool)
  | pcieLinkTrained (rate : BitVec 4) (width : BitVec 3)
  | linkPowerStateChange (pm : BitVec 3) (l0pWidth : BitVec 3)
  | deskewBurst (port : Nat) (result : Word)
  -- commands with no operands, of every chapter
  | scAllIdle50ms
  | rsvEccClearLog
  | rsvEccClearCounts
  | scEccClearLog
  | scEccClearCounts
  | roundBoundary
  | roundTimer
  | lockLost
  | fenceReread
  | thermalRank
  | hotReset
  | linkRecovery
  | handoverPoint
  | pwrAlert
  | powerEmergencyEnd
  | thermalEmergencyEnd
  | thermalCapLower
  | thermalCapRise
  | activeHour
  | s1PowerDown
  | s1Exit
  | s3Entry
  | railWaitTimeout
  | wakePin
  | wake
  | privateRead
  | getpid
  | getbcr
  | getdcr
  | getstatus
  | rstdaa
  | enec
  | disec
  | brownOut
  | aonReset
  | pgoodWaitTimeout
  | vaonLoss
  | weirDownClamp
  | xtal32kStable
  | sysclkInDetected
  | aonRstRelease
  | vaonReturn
  | pwrAlertRelease
deriving DecidableEq, Repr

end Sys2Proof
end

