-- ==== Sys2Proof/Decode.lean ====
section
/-! DEFINITION. The Heith instruction word of R98 and R102: decoding to a command, which is total, and encoding. The rows
of the opcode table themselves carry no bits: no word spells a command of the block. -/

namespace Sys2Proof

/-- The base word of R98 from an opcode and its other fields; X says whether an extension word follows. -/
def heithWord (op : BitVec 8) (w : HWord) : BitVec 64 :=
  op ++ BitVec.ofBool w.ext.isSome ++ BitVec.ofBool w.pn ++ w.pg ++ w.mode ++ w.dk ++ w.dst ++ w.k0 ++ w.src0 ++ w.k1 ++
    w.src1 ++ w.k2 ++ w.src2 ++ w.rsv

/-- The opcode of a base word (R98: bits [63:56]). -/
def heithOp (x : BitVec 64) : BitVec 8 := x.extractLsb' 56 8

/-- The other fields of a base word (R98); `ext` is the 64-bit word that follows it, which belongs to the instruction
when X is 1. -/
def heithFields (x ext : BitVec 64) : HWord :=
  { pn := x.getLsbD 54, pg := x.extractLsb' 51 3, mode := x.extractLsb' 46 5, dk := x.extractLsb' 44 2,
    dst := x.extractLsb' 36 8, k0 := x.extractLsb' 34 2, src0 := x.extractLsb' 26 8, k1 := x.extractLsb' 24 2,
    src1 := x.extractLsb' 16 8, k2 := x.extractLsb' 14 2, src2 := x.extractLsb' 6 8, rsv := x.extractLsb' 0 6,
    ext := if x.getLsbD 55 then some ext else none, fetch := .ok }

/-- The command of an opcode for group g of cluster c (R102): an opcode that the table does not list is unassigned. -/
def ofOpcode (c g : Nat) (op : BitVec 8) (w : HWord) : Instr :=
  match op.toNat with
  | 0x00 => .skip c g w
  | 0x01 => .endGroup c g w
  | 0x02 => .jump c g w
  | 0x03 => .call c g w
  | 0x04 => .ret c g w
  | 0x05 => .sync c g w
  | 0x06 => .order c g w
  | 0x07 => .cede c g w
  | 0x08 => .sval c g w
  | 0x0B => .dbgstop c g w
  | 0x10 => .iadd c g w
  | 0x11 => .isub c g w
  | 0x12 => .imul c g w
  | 0x13 => .imulhi c g w
  | 0x14 => .imuladd c g w
  | 0x15 => .imin c g w
  | 0x16 => .imax c g w
  | 0x17 => .iabs c g w
  | 0x18 => .and c g w
  | 0x19 => .or c g w
  | 0x1A => .xor c g w
  | 0x1B => .not c g w
  | 0x1C => .shl c g w
  | 0x1D => .shr c g w
  | 0x1E => .fldx c g w
  | 0x1F => .fldi c g w
  | 0x20 => .bitcnt c g w
  | 0x21 => .leadz c g w
  | 0x22 => .bitrev c g w
  | 0x23 => .iadd64 c g w
  | 0x24 => .imuladdw c g w
  | 0x25 => .icmp c g w
  | 0x26 => .pick c g w
  | 0x27 => .mov c g w
  | 0x30 => .fadd c g w
  | 0x31 => .fmul c g w
  | 0x32 => .fmuladd c g w
  | 0x33 => .fmin c g w
  | 0x34 => .fmax c g w
  | 0x35 => .fcmp c g w
  | 0x36 => .frecip c g w
  | 0x37 => .frsqrt c g w
  | 0x38 => .fsqrt c g w
  | 0x39 => .fexp2 c g w
  | 0x3A => .flog2 c g w
  | 0x3B => .fsin c g w
  | 0x3C => .fcos c g w
  | 0x40 => .hpadd c g w
  | 0x41 => .hpmul c g w
  | 0x42 => .hpmuladd c g w
  | 0x43 => .hpmin c g w
  | 0x44 => .hpmax c g w
  | 0x45 => .hpcmp c g w
  | 0x48 => .dadd c g w
  | 0x49 => .dmul c g w
  | 0x4A => .dmuladd c g w
  | 0x4B => .dcmp c g w
  | 0x4C => .dmin c g w
  | 0x4D => .dmax c g w
  | 0x50 => .convFF c g w
  | 0x51 => .convFI c g w
  | 0x52 => .convIF c g w
  | 0x60 => .ld c g w
  | 0x61 => .st c g w
  | 0x62 => .ldw c g w
  | 0x63 => .stw c g w
  | 0x64 => .rmw c g w
  | 0x65 => .rmwn c g w
  | 0x66 => .rmww c g w
  | 0x67 => .ldsc c g w
  | 0x68 => .sample c g w
  | 0x69 => .fetch c g w
  | 0x70 => .tilerd c g w
  | 0x71 => .tilewr c g w
  | 0x72 => .emit c g w
  | 0x74 => .ray c g w
  | 0x75 => .rayresume c g w
  | 0x76 => .rayaccept c g w
  | 0x78 => .xlane c g w
  | 0x79 => .preduce c g w
  | 0x7A => .pxfer c g w
  | 0x7B => .plogic c g w
  | 0x7C => .lreduce c g w
  | _ => .unassignedInstruction c g op w

/-- The instruction at the front of a group's code, as a command: total on any words. -/
def decodeHeith (c g : Nat) (x ext : BitVec 64) : Instr := ofOpcode c g (heithOp x) (heithFields x ext)

/-- The Heith opcode of a command, with the fields of its word; none for the other commands of the block. -/
def Instr.heith? : Instr → Option (BitVec 8 × HWord)
  | .skip _ _ w => some (0x00, w)
  | .endGroup _ _ w => some (0x01, w)
  | .jump _ _ w => some (0x02, w)
  | .call _ _ w => some (0x03, w)
  | .ret _ _ w => some (0x04, w)
  | .sync _ _ w => some (0x05, w)
  | .order _ _ w => some (0x06, w)
  | .cede _ _ w => some (0x07, w)
  | .sval _ _ w => some (0x08, w)
  | .dbgstop _ _ w => some (0x0B, w)
  | .iadd _ _ w => some (0x10, w)
  | .isub _ _ w => some (0x11, w)
  | .imul _ _ w => some (0x12, w)
  | .imulhi _ _ w => some (0x13, w)
  | .imuladd _ _ w => some (0x14, w)
  | .imin _ _ w => some (0x15, w)
  | .imax _ _ w => some (0x16, w)
  | .iabs _ _ w => some (0x17, w)
  | .and _ _ w => some (0x18, w)
  | .or _ _ w => some (0x19, w)
  | .xor _ _ w => some (0x1A, w)
  | .not _ _ w => some (0x1B, w)
  | .shl _ _ w => some (0x1C, w)
  | .shr _ _ w => some (0x1D, w)
  | .fldx _ _ w => some (0x1E, w)
  | .fldi _ _ w => some (0x1F, w)
  | .bitcnt _ _ w => some (0x20, w)
  | .leadz _ _ w => some (0x21, w)
  | .bitrev _ _ w => some (0x22, w)
  | .iadd64 _ _ w => some (0x23, w)
  | .imuladdw _ _ w => some (0x24, w)
  | .icmp _ _ w => some (0x25, w)
  | .pick _ _ w => some (0x26, w)
  | .mov _ _ w => some (0x27, w)
  | .fadd _ _ w => some (0x30, w)
  | .fmul _ _ w => some (0x31, w)
  | .fmuladd _ _ w => some (0x32, w)
  | .fmin _ _ w => some (0x33, w)
  | .fmax _ _ w => some (0x34, w)
  | .fcmp _ _ w => some (0x35, w)
  | .frecip _ _ w => some (0x36, w)
  | .frsqrt _ _ w => some (0x37, w)
  | .fsqrt _ _ w => some (0x38, w)
  | .fexp2 _ _ w => some (0x39, w)
  | .flog2 _ _ w => some (0x3A, w)
  | .fsin _ _ w => some (0x3B, w)
  | .fcos _ _ w => some (0x3C, w)
  | .hpadd _ _ w => some (0x40, w)
  | .hpmul _ _ w => some (0x41, w)
  | .hpmuladd _ _ w => some (0x42, w)
  | .hpmin _ _ w => some (0x43, w)
  | .hpmax _ _ w => some (0x44, w)
  | .hpcmp _ _ w => some (0x45, w)
  | .dadd _ _ w => some (0x48, w)
  | .dmul _ _ w => some (0x49, w)
  | .dmuladd _ _ w => some (0x4A, w)
  | .dcmp _ _ w => some (0x4B, w)
  | .dmin _ _ w => some (0x4C, w)
  | .dmax _ _ w => some (0x4D, w)
  | .convFF _ _ w => some (0x50, w)
  | .convFI _ _ w => some (0x51, w)
  | .convIF _ _ w => some (0x52, w)
  | .ld _ _ w => some (0x60, w)
  | .st _ _ w => some (0x61, w)
  | .ldw _ _ w => some (0x62, w)
  | .stw _ _ w => some (0x63, w)
  | .rmw _ _ w => some (0x64, w)
  | .rmwn _ _ w => some (0x65, w)
  | .rmww _ _ w => some (0x66, w)
  | .ldsc _ _ w => some (0x67, w)
  | .sample _ _ w => some (0x68, w)
  | .fetch _ _ w => some (0x69, w)
  | .tilerd _ _ w => some (0x70, w)
  | .tilewr _ _ w => some (0x71, w)
  | .emit _ _ w => some (0x72, w)
  | .ray _ _ w => some (0x74, w)
  | .rayresume _ _ w => some (0x75, w)
  | .rayaccept _ _ w => some (0x76, w)
  | .rayTraversalDone _ _ _ => none
  | .xlane _ _ w => some (0x78, w)
  | .preduce _ _ w => some (0x79, w)
  | .pxfer _ _ w => some (0x7A, w)
  | .plogic _ _ w => some (0x7B, w)
  | .lreduce _ _ w => some (0x7C, w)
  | .unassignedInstruction _ _ op w => some (op, w)
  | .faultReport _ => none
  | .kernelStop _ => none
  | .groupsParked _ _ => none
  | .kernelDispatch _ => none
  | .clusterUnitEnd _ => none
  | .accessComplete _ _ _ => none
  | .reservoirAccess _ _ _ _ _ _ => none
  | .reservoirAtomic _ _ _ _ _ _ _ => none
  | .scrubLine _ => none
  | .systemCacheAccess _ _ _ _ _ _ _ => none
  | .sliceStore _ _ _ _ _ _ _ => none
  | .trackerIdleExpiry _ _ => none
  | .sliceFillComplete _ _ _ => none
  | .writeAroundDrain _ => none
  | .writeBackAccepted _ _ _ => none
  | .sliceAtomic _ _ _ _ _ _ _ _ _ => none
  | .wayGroupPowerDown _ _ => none
  | .wayGroupCleaned _ _ => none
  | .dramAccess _ _ _ _ _ _ _ _ => none
  | .dramRefresh _ => none
  | .mr4Poll _ _ => none
  | .dqsOscillatorCheck _ _ => none
  | .retraining _ => none
  | .retrainingDone _ => none
  | .patrol _ => none
  | .scModeWrite _ => none
  | .registerWrite _ _ _ => none
  | .passStart _ => none
  | .geometryBatchDone _ _ => none
  | .flushTilesStored _ => none
  | .passComplete _ => none
  | .tileStore _ _ => none
  | .quadDispatch _ _ _ _ _ => none
  | .fragmentArrive _ _ _ _ => none
  | .layerStart _ => none
  | .layerComplete _ => none
  | .netRunRestart _ => none
  | .flumeGrant _ _ _ _ => none
  | .flumeAccess _ _ _ _ _ _ => none
  | .flumeRelease _ => none
  | .schedulePick _ _ => none
  | .switchDrained _ => none
  | .makeResident _ _ => none
  | .slotOpen _ _ => none
  | .slotClose _ _ => none
  | .slotLapse _ _ => none
  | .remoteWaitPoll _ _ => none
  | .evictedFencePoll _ _ _ => none
  | .vblankStart _ _ => none
  | .flatWriteDone _ => none
  | .pixelUnderrun _ => none
  | .protectCrcCheck _ => none
  | .dspCtrlCommit _ => none
  | .linkTrain _ => none
  | .auxGo _ => none
  | .auxTransactionDone _ _ _ => none
  | .hpdEvent _ _ => none
  | .trainingLost _ => none
  | .camStart _ => none
  | .camStop _ => none
  | .csiPacket _ _ _ => none
  | .frameStart _ _ => none
  | .frameEndPacket _ _ => none
  | .frameEnd _ _ _ => none
  | .doorbellWrite _ _ _ _ => none
  | .bar0Access _ _ _ _ _ => none
  | .bar2Access _ _ _ _ _ _ _ => none
  | .bar4Access _ _ _ _ _ _ _ => none
  | .msixVectorUnmask _ _ => none
  | .configAccess _ _ _ _ => none
  | .flr _ => none
  | .completionReceived _ _ _ => none
  | .completionTimeout _ => none
  | .doeDiscovery _ _ => none
  | .getVersion _ _ => none
  | .getCapabilities _ _ => none
  | .negotiateAlgorithms _ _ => none
  | .getDigests _ _ => none
  | .getCertificate _ _ => none
  | .challenge _ _ => none
  | .getMeasurements _ _ => none
  | .doeAbort _ => none
  | .fnErrClear _ => none
  | .mboxGo _ => none
  | .unassignedOpcode _ _ _ => none
  | .jobEnd _ => none
  | .leveeSet _ _ => none
  | .sluiceLoad _ _ => none
  | .powerState _ _ => none
  | .fwStage _ _ => none
  | .fwStageWritten _ => none
  | .fwActivate _ _ => none
  | .fwActivateCancel _ _ => none
  | .handoverDone _ _ => none
  | .marginReplan _ _ => none
  | .protectSet _ _ => none
  | .ctxCreate _ _ => none
  | .ctxDestroy _ _ => none
  | .teardownDrained _ _ => none
  | .flushReadComplete _ => none
  | .queueCreate _ _ => none
  | .queueDestroy _ _ => none
  | .ctxReplay _ _ => none
  | .rangeMap _ _ => none
  | .rangeUnmap _ _ => none
  | .unmapDrained _ _ => none
  | .rangeCheck _ _ => none
  | .rangeWalk _ _ _ _ => none
  | .fenceInit _ _ => none
  | .fenceSignal _ _ => none
  | .fenceWait _ _ => none
  | .passSubmit _ _ => none
  | .kernelSubmit _ _ => none
  | .netLoad _ _ => none
  | .netRun _ _ => none
  | .netUnload _ _ => none
  | .copy _ _ => none
  | .copyChunk _ => none
  | .copyChunkDone _ _ => none
  | .dspLayerSet _ _ => none
  | .dspCommit _ _ => none
  | .camConfig _ _ => none
  | .camBind _ _ => none
  | .powerVote _ _ => none
  | .telemetryRead _ _ => none
  | .clockCorrelate _ _ => none
  | .attest _ _ => none
  | .resetDomain _ _ => none
  | .dumpCollect _ _ => none
  | .progressRead _ _ => none
  | .nop _ _ => none
  | .resetComplete _ => none
  | .resetLimitExpiry _ => none
  | .testEnter _ => none
  | .testExit _ => none
  | .telemetryPageWrite _ => none
  | .flashLogAppend _ _ _ => none
  | .powerWindow _ => none
  | .sensorSample _ => none
  | .droopStretch _ => none
  | .severeDroop _ => none
  | .severeDroopEnd _ => none
  | .voltageTrim _ _ => none
  | .pointChange _ => none
  | .a2Entry _ => none
  | .a2Wake _ => none
  | .replanDone _ _ => none
  | .s3Wake _ _ => none
  | .i3cAddressMatch _ => none
  | .perst _ => none
  | .corePgood _ => none
  | .coldBoot _ _ => none
  | .mbistComplete _ => none
  | .watchdogExpiry _ _ => none
  | .processorException _ _ => none
  | .processorRestartDone _ => none
  | .dpLinkTrainingDone _ _ => none
  | .pcieLinkTrained _ _ => none
  | .linkPowerStateChange _ _ => none
  | .deskewBurst _ _ => none
  | .scAllIdle50ms => none
  | .rsvEccClearLog => none
  | .rsvEccClearCounts => none
  | .scEccClearLog => none
  | .scEccClearCounts => none
  | .roundBoundary => none
  | .roundTimer => none
  | .lockLost => none
  | .fenceReread => none
  | .thermalRank => none
  | .hotReset => none
  | .linkRecovery => none
  | .handoverPoint => none
  | .pwrAlert => none
  | .powerEmergencyEnd => none
  | .thermalEmergencyEnd => none
  | .thermalCapLower => none
  | .thermalCapRise => none
  | .activeHour => none
  | .s1PowerDown => none
  | .s1Exit => none
  | .s3Entry => none
  | .railWaitTimeout => none
  | .wakePin => none
  | .wake => none
  | .privateRead => none
  | .getpid => none
  | .getbcr => none
  | .getdcr => none
  | .getstatus => none
  | .rstdaa => none
  | .enec => none
  | .disec => none
  | .brownOut => none
  | .aonReset => none
  | .pgoodWaitTimeout => none
  | .vaonLoss => none
  | .weirDownClamp => none
  | .xtal32kStable => none
  | .sysclkInDetected => none
  | .aonRstRelease => none
  | .vaonReturn => none
  | .pwrAlertRelease => none

/-- The words of a command that is a Heith instruction: its base word, and its extension word if it has one. -/
def encodeHeith (i : Instr) : Option (BitVec 64 × Option (BitVec 64)) :=
  i.heith?.map fun e => (heithWord e.1 e.2, e.2.ext)

/-- The command that a word spells by the bits of spec/opcode_table.json: the table gives no row any bits. -/
def decodeTableWord (_nbits _w : Nat) : Option Instr := none

end Sys2Proof
end

