-- ==== Sys2Proof/Config.lean ====
section
/-! DEFINITION. The free values: constants without a body for what the spec leaves open. Nothing in Lean can evaluate
them; a statement that holds of the model holds whatever they are. Each is named in a log entry under
notes/assumptions. -/

namespace Sys2Proof.Config

/-- The payload of a NaN that an arithmetic instruction produces, by the free-value counter (log entry 10). -/
opaque nanPayload : Nat → Nat

/-- The sign of a produced NaN, of a value flushed to zero, of a saturated zero, or which of two zeros of unlike sign a
minimum or maximum gives (log entry 10). -/
opaque signBit : Nat → Bool

/-- A 64-bit pattern: the candidate result of an operation that the spec bounds (R102: within so many ulp), and the whole
result where the spec states none (log entry 20). -/
opaque fpFree : Nat → Nat

/-- A result of an integer instruction that the spec states no value for: the magnitude of the most negative number, a
field that reaches past bit 31, an unlisted special value (log entry 21). -/
opaque intFree : Nat → Nat

/-- Which two partial sums the tree of R87 adds next (log entry 22). -/
opaque treePick : Nat → Nat → Nat

/-- Which line a full L1 gives up: the spec states no replacement order (log entry 23). -/
opaque l1Victim : Nat → Nat

/-- The SECDED syndrome that the log reports, by the free-value counter (R415: non-zero, diagnostic only; log entry 11). -/
opaque syndrome : Nat → Nat

/-- The open part of a word of a flat layer, by the free-value counter and its pixel: the alpha, and the pixels of a line outside
the active area (R212; log entry 12). -/
opaque flatWord : Nat → Nat → Nat → Nat

/-- Whether a layer's scale maps the centres of its samples or their corners (R207; log entry 12). -/
opaque scaleCentre : Bool

/-- A channel of a NaN, a tie of a rounding and a place that is not translated, in the compositor (R207; log entry 12). -/
opaque scanFree : Nat → Nat

/-- A 10-bit channel of a protected pixel that is not wholly opaque, blended over black, by the pixel's word, its format
and the channel (R207, R217; log entry 13). -/
opaque protBlend : Nat → Nat → Nat → Nat

/-- A 10-bit channel that is the image of no 8-bit value, reduced to 8 bits (R207; log entry 13). -/
opaque reduce8 : Nat → Nat

/-- A destination byte of a chunk whose content is undefined, by the free-value counter and its place (R318, R320; log
entry 19). -/
opaque chunkByte : Nat → Nat → Byte

/-- Which of the two neighbours a texel conversion gives where the exact value lies between them (R126; log entry 31). -/
opaque texBit : Nat → Bool

/-- A word of a texel or an attachment that the spec states no value for: a channel that the format lacks, a value out of
the format's range (R126; log entry 31). -/
opaque texWord : Nat → Nat

/-- The samples of a quad that a primitive covers, 8 bits for each of its four pixels, by the pass's job, the primitive's
number, its record's place and the quad's place (R118, R121; log entry 33). -/
opaque coverage : Nat → Nat → Nat → Nat × Nat → Nat

/-- The barycentric weights and the depth of a fragment: FP32 patterns, by the pass's job, the primitive's number, its record's
place, the pixel and which of the three (R118; log entry 33). -/
opaque fragValue : Nat → Nat → Nat → Nat × Nat → Nat → Nat

/-- A byte of a tile loaded with DONT_CARE (R120; log entry 34). -/
opaque tileByte : Nat → Nat → Byte

/-- A byte of a resolved pixel whose samples differ (R108; log entry 35). -/
opaque resolveByte : Nat → Nat → Byte

/-- Where the front end puts the primitive records of a DIRECT pass in a staging half, in 16-byte units (R118; log entry
36). -/
opaque recordPlace : Nat → Nat

/-- What becomes of the stencil when the stencil test passes and the depth test fails (R108; log entry 37). -/
opaque depthFailStencil : Nat → Nat

/-- The texel that a sample reads where the spec does not state which, and words of a filtered sample (R127, R128; log
entry 38). -/
opaque sampleTexel : Nat → Nat
opaque sampleWord : Nat → Nat

/-- The first four dwords of a vertex block, which the front end computes, by the four that the geometry kernel staged, the
attachment's extent and which of the four; and the words of a vertex that clipping makes (R115; log entry 48). -/
opaque screenWord : Nat → Nat → Nat → Nat
opaque recordWord : Nat → Nat

/-- What clipping makes of a primitive: 0 the primitive itself, else one more than its pieces; and which vertex of the primitive
stands at a place of a piece, the others being new (R107; log entry 48). -/
opaque clipCount : Nat → Nat
opaque clipPick : Nat → Nat → Nat

/-- What the spec leaves open of a primitive: whether a line, a point or a triangle without an area faces front, whether the latter
is dropped, and which tiles a primitive without a place enters (R108, R165; log entry 48). -/
opaque primBit : Nat → Nat → Bool

/-- The mean primitives per tile of a pass that has no tile (R111; log entry 49). -/
opaque meanOfNone : Nat → Nat

/-- What the ray unit leaves undefined: the rest of the ray state area, words of a result that describe nothing, the
object-space ray (R136, R137; log entry 53). -/
opaque rayWord : Nat → Nat

/-- A value of a layer that the spec leaves open: an INT32 sum whose saturation depends on the order, a probability of the
softmax, a resized element, an element converted from a NaN (R147, R167 to R170; log entry 55). -/
opaque netWord : Nat → Nat

/-- Whether a resized position without ALIGN_CORNERS is that of the sample's centre or of its corner (R147; log entry 55). -/
opaque resizeCentre : Bool

/-- A value of a margin plan that a replan derives and the spec does not state (R338; log entry 62). -/
opaque planWord : Nat → Nat → Nat → Nat

/-- What the firmware leaves open: whether a slot's images verify after a failed write, and which reason a second crash
reports (R367, R369; log entry 63). -/
opaque fwBit : Nat → Bool

/-- A byte of a signature of the identity key over some bytes (R366, R254; log entry 64). -/
opaque signatureByte : List Byte → Nat → Byte

/-- A byte of the digest of the public OTP state or of the levee windows, whose serialisation is not given (R366; log entry
64). -/
opaque measureByte : List Nat → Nat → Byte

/-- The spread of a clock sample in ns where the spec gives none: an island in A2 or off its nominal clock (R391; log entry
66). -/
opaque spreadNs : Nat → Nat

/-- The draw of the always-on regulator in mA (R352, R358; log entry 69). -/
opaque drawMa : Nat → Nat

/-- A byte that a direct CCC of the wake bus answers: by the CCC's number and the byte's place (R353; log entry 70). -/
opaque cccByte : Nat → Nat → Byte

/-- A dword of the TLP header that AER logs: the commands do not carry headers (R242; log entry 73). -/
opaque headerWord : Nat → Nat

/-- A byte of a dirty system cache line whose data was lost to an error of the array (R60; log entry 74). -/
opaque lostByte : Nat → Nat → Byte

/-- A byte of the certificate chain of slot 0, and the length of the chain (R254; log entry 76). -/
opaque certByte : Nat → Byte
opaque certLen : Nat

/-- A byte of a nonce that Levee draws, and bytes of SPDM messages that neither the spec nor the protocol fixes (R254; log
entry 76). -/
opaque nonceByte : Nat → Nat → Byte
opaque spdmByte : Nat → Byte

/-- Where a register of a capability lies in the configuration space of a function, by the register's number (R231; log entry
77). -/
opaque cfgPlace : Nat → Nat

/-- The bits of a dword of configuration space that a write changes, and what the others read as (R231; log entry 77). -/
opaque cfgMask : Nat → Word
opaque cfgWord : Nat → Nat → Word

/-- PCI_LINK_CFG as the boot configuration block gives it (R257; log entry 149). -/
opaque bootLinkCfg : Word

/-- By how much a link counter, PCI_FEC_COUNT or PCI_REPLAY_COUNT, has moved since it was last looked at (R257; log entry 97). -/
opaque linkCount : Nat → Nat

/-- How an operation's access of a HOST fence ends, by the free-value counter: 0 well, 1 poisoned, 2 timed out, 3 unsupported,
4 aborted, 5 by the link; modulo 6 (log entry 154). -/
opaque fenceEnd : Nat → Nat

/-- A byte that the device writes into a save area (R191; log entry 120), and where and how long the state of a pass is that
a front end saves (R189; log entry 121). -/
opaque saveByte : Nat → Nat → Byte
opaque passPlace : Nat → Nat
opaque passBytes : Nat → Nat

/-- How a slot came short of its RSV_SHARE in a round: 0 not at all, 1 by the protected layer, 2 and more by earlier slots
(R181, R198; log entry 122). -/
opaque shareShort : Nat → Nat → Nat

end Sys2Proof.Config
end

