-- ==== Sys2Proof/Machine/Bits.lean ====
section
/-! DEFINITION. Bit fields, byte order and list helpers that every other file of the machine uses.
Multi-byte fields are little-endian (Notation, R9). -/

namespace Sys2Proof.Machine

/-- Bits [hi:lo] of a natural number, as a natural number. -/
def fld (v hi lo : Nat) : Nat := (v >>> lo) % 2 ^ (hi + 1 - lo)

/-- Bit k of a natural number. -/
def bitOf (v k : Nat) : Bool := v.testBit k

/-- 1 or 0. -/
def b2n (b : Bool) : Nat := if b then 1 else 0

/-- The n little-endian bytes of a number. -/
def toLE : Nat → Nat → List Byte
  | 0, _ => []
  | n + 1, v => BitVec.ofNat 8 v :: toLE n (v / 256)

/-- The number that little-endian bytes spell. -/
def ofLE : List Byte → Nat
  | [] => 0
  | b :: bs => b.toNat + 256 * ofLE bs

/-- The n big-endian bytes of a number. -/
def toBE (n v : Nat) : List Byte := (toLE n v).reverse

/-- The number that big-endian bytes spell. -/
def ofBE (bs : List Byte) : Nat := ofLE bs.reverse

/-- One counter step that saturates at the field's largest value (Notation, "saturates"). -/
def satInc {w : Nat} (v : BitVec w) : BitVec w := if v = BitVec.allOnes w then v else v + 1

/-- A counter raised by n, saturating. -/
def satAdd {w : Nat} (v : BitVec w) (n : Nat) : BitVec w :=
  if v.toNat + n < 2 ^ w then BitVec.ofNat w (v.toNat + n) else BitVec.allOnes w

/-- Bits [hi:lo] of a word replaced. -/
def putFld (v : Word) (hi lo x : Nat) : Word :=
  let m := (2 ^ (hi + 1 - lo) - 1) <<< lo
  BitVec.ofNat 32 ((v.toNat &&& (2 ^ 32 - 1 - m)) ||| ((x <<< lo) &&& m))

/-- Place of a value at a bit position. -/
def at' (x pos : Nat) : Nat := x <<< pos

/-- Element i of a list changed by a function; the list as it is when i is past its end. -/
def modNth {α : Type} (f : α → α) : Nat → List α → List α
  | _, [] => []
  | 0, a :: as => f a :: as
  | n + 1, a :: as => a :: modNth f n as

/-- Element i of a list replaced. -/
def setNth {α : Type} (i : Nat) (a : α) (as : List α) : List α := modNth (fun _ => a) i as

/-- The first element that satisfies a test, changed by a function. -/
def modFirst {α : Type} (p : α → Bool) (f : α → α) : List α → List α
  | [] => []
  | a :: as => if p a then f a :: as else a :: modFirst p f as

/-- The list without the first element that satisfies a test. -/
def dropFirst {α : Type} (p : α → Bool) : List α → List α
  | [] => []
  | a :: as => if p a then as else a :: dropFirst p as

/-- How many elements satisfy a test. -/
def countIf {α : Type} (p : α → Bool) : List α → Nat
  | [] => 0
  | a :: as => (if p a then 1 else 0) + countIf p as

/-- The sum of a list of naturals. -/
def sumN : List Nat → Nat
  | [] => 0
  | a :: as => a + sumN as

/-- The largest of a list of naturals; 0 for the empty list. -/
def maxN : List Nat → Nat
  | [] => 0
  | a :: as => max a (maxN as)

/-- The elements of a list with their places, counted from k. -/
def enumFrom {α : Type} : Nat → List α → List (Nat × α)
  | _, [] => []
  | k, a :: as => (k, a) :: enumFrom (k + 1) as

/-- The first n naturals from k. -/
def upFrom : Nat → Nat → List Nat
  | _, 0 => []
  | k, n + 1 => k :: upFrom (k + 1) n

/-- A left fold over a list, state last, that later definitions use to run a list of actions. -/
def runAll {α σ : Type} (f : α → σ → σ) : List α → σ → σ
  | [], s => s
  | a :: as, s => runAll f as (f a s)

/-- A list cut or padded with a default to exactly n elements. -/
def takePad {α : Type} (d : α) : Nat → List α → List α
  | 0, _ => []
  | n + 1, [] => d :: takePad d n []
  | n + 1, a :: as => a :: takePad d n as

/-- Insertion into a list sorted by a key; an equal key keeps the earlier element first. -/
def insertBy {α : Type} (key : α → Nat) (a : α) : List α → List α
  | [] => [a]
  | b :: bs => if key a < key b then a :: b :: bs else b :: insertBy key a bs

/-- A list sorted by a key (insertion sort, stable). -/
def sortBy {α : Type} (key : α → Nat) (l : List α) : List α := l.foldl (fun acc a => insertBy key a acc) []

/-- Whether a list of naturals holds one twice. -/
def hasDup : List Nat → Bool
  | [] => false
  | a :: as => as.contains a || hasDup as

/-- Whether two half-open spans meet. -/
def spansMeet (a la b lb : Nat) : Bool := decide (a < b + lb) && decide (b < a + la)

/-- The k-th root of a number, bit by bit from 2^(bits - 1) down. -/
def rootFrom (k n : Nat) : Nat → Nat → Nat
  | 0, r => r
  | b + 1, r => rootFrom k n b (if (r + 2 ^ b) ^ k ≤ n then r + 2 ^ b else r)

end Sys2Proof.Machine
end

