-- ==== Sys2Proof/Machine/State.lean ====
section
/-! DEFINITION. The state of the block, as plain data: every register, buffer, counter, mode and pin that the spec
gives the Malestem 9, the queue of waiting commands, and the state right after a first power-on reset.
Each structure's docstring names the rules that give it; the values at reset are those of State.reset, which INVENTORY.md
lists with their rules; a value marked with a log entry is the model's own. -/

namespace Sys2Proof.Machine

/-- Memory as a list of cells in one canonical form: addresses strictly rising and no byte equal to what an unlisted
address reads as, which is 0 (Machine/Mem.lean; log entry 2). -/
abbrev Memory := List Host.Cell

/-- A context by its tenant and its ID (R265: IDs of different tenants are independent). -/
structure CtxKey where
  fn : Nat
  id : Nat
deriving DecidableEq, Repr

/-- Who waits for a reply: the queue or mailbox, with the packet's SEQ and OPCODE (R267). -/
structure Origin where
  src    : Src
  seq    : Word
  opcode : BitVec 8
  irq    : Bool
deriving DecidableEq, Repr

/-- A range entry (R305). -/
structure RangeEntry where
  start     : Nat
  lenM1     : Nat
  tgt       : Target
  r         : Bool
  w         : Bool
  a         : Bool
  cacheable : Bool
  stream    : Bool
  base      : Nat
  tag       : Word
deriving DecidableEq, Repr

/-- A range cache entry, tagged with its tenant and context (R316). -/
structure RangeCacheEntry where
  key   : CtxKey
  entry : RangeEntry
deriving DecidableEq, Repr

/-- The kinds of a fault (R94, R289). -/
inductive FaultKind where
  | noRange | rights | breakpoint | reservoirLimit | poison | targetReset | atomicTarget | misaligned
  | illegalInstr | branchMixed | linkError | flume
deriving DecidableEq, Repr

/-- A fault as an engine reports it to Sluice (R95 step 1, R289). -/
structure FaultReport where
  kind    : FaultKind
  source  : Nat
  write   : Bool
  atomic  : Bool
  island  : Nat
  address : Nat
  loc     : Nat
  lanes   : Word
  job     : Option Nat
  origin  : Origin
  key     : CtxKey
  restart : Bool
  stamp   : BitVec 48
deriving DecidableEq, Repr

/-- An access in flight under a translation epoch (R311). -/
structure Access where
  who   : Requester
  epoch : BitVec 8
  tgt   : Target
  va    : Nat
  key   : CtxKey
  write : Bool
  tag   : Option Nat
deriving DecidableEq, Repr

/-- A kernel descriptor (R281). -/
structure KernelDesc where
  code   : Nat
  args   : Nat
  vregs  : Nat
  ldsKib : Nat
  wgX    : Nat
  wgY    : Nat
  wgZ    : Nat
  gridX  : Nat
  gridY  : Nat
  gridZ  : Nat
deriving DecidableEq, Repr

/-- What a DISPATCH, LAYER, COPY or PASS entry, or a unit ready to be scheduled, is (R172, R173). -/
inductive WorkKind where
  | kernel
  | geomBatch (draw inst first count half : Nat)
  | tileBatch (tiles : List Nat)
  | pixelBatch (half : Nat)
  | kernelLayer (layer : Nat)
  | layer (layer : Nat)
  | tileNet (tile : Nat)
  | copyJob
  | pass
deriving DecidableEq, Repr

/-- A unit of work: the job it belongs to, and what it is (R173). -/
structure Work where
  job  : Nat
  kind : WorkKind
deriving DecidableEq, Repr

/-- An entry of an engine's command ring (R172). -/
inductive RingEntry where
  | work (w : Work) (key : CtxKey)
  | wait (fn q : Nat) (key : CtxKey)
  | switch (out : Option CtxKey) (into : Option CtxKey)
deriving DecidableEq, Repr

/-- What a group waits for (R81, R95, R96, R136, R412). -/
inductive GroupState where
  | running
  | barrier (n : Nat)
  | faulted (kind : FaultKind)
  | bus (tag : Nat)
  | flush (tag : Nat)
  | tracing (resume : Bool)
deriving DecidableEq, Repr

/-- A memory access that waits for data from the link: the instruction that made it, its lowest lane's address there and
the lanes that wait (R412). -/
structure PendingLoad where
  op    : BitVec 8
  w     : HWord
  va    : Nat
  lanes : Word
deriving DecidableEq, Repr

/-- One fragment on its way to a render-output slice (R130, R131): its pixel, its covered samples, what was sent for it and
whether it was killed. -/
structure Fragment where
  killed  : Bool
  x       : Nat
  y       : Nat
  samples : BitVec 8
  front   : Bool
  depth   : Word
  draw    : Nat
  colours : List (Nat × List Word)
deriving DecidableEq, Repr

/-- A quad of a pixel group (R118, R130): its place in pixels, its primitive's number, the covered samples of its four
pixels (8 bits each), its facing, its primitive record in 16-byte units, and for each pixel the barycentric weights of
vertices 1 and 2 and the depth. -/
structure Quad where
  qx    : Nat
  qy    : Nat
  seq   : BitVec 32
  mask  : BitVec 32
  front : Bool
  place : Nat
  vals  : List (Word × Word × Word)
deriving DecidableEq, Repr

/-- A pixel group that is to be started: its draw and up to eight quads (R118). -/
structure PixelGroup where
  draw  : Nat
  quads : List Quad
deriving DecidableEq, Repr

/-- What a traversal has yet to visit (R132, R133, R135): a node, an instance, a triangle leaf, the second triangle of a leaf block,
a procedural leaf, or the return from an instance to the level above it. -/
inductive RayKind where
  | node
  | inst
  | tris
  | second
  | procs
  | leave
deriving DecidableEq, Repr

/-- A place that a traversal has yet to visit, and the blocks that follow it in its leaf. -/
structure RayRef where
  kind : RayKind
  va   : Nat
  more : Nat
deriving DecidableEq, Repr

/-- What an instance record says beside its transform: root of the bottom level, MASK, bits, INSTANCE_ID, HIT_GROUP (R133). -/
structure InstRec where
  root  : Nat
  mask  : Nat
  bits  : Nat
  id    : Nat
  group : Nat
deriving DecidableEq, Repr

/-- A ray of one lane at the traversal unit (R134 to R137). `todo` is what it visits next, before the entries of its stack, the
newest first; `lost` says that entries were dropped since the traversal last began at the root; `out` is the lane's last result. -/
structure RayLane where
  root       : Nat
  world      : List Word
  object     : List Word
  flags      : BitVec 5
  mask       : BitVec 8
  status     : Nat
  inst       : Option InstRec
  todo       : List RayRef
  stack      : List RayRef
  overflowed : Bool
  lost       : Bool
  hitFront   : Bool
  hit        : List Word
  cand       : Option RayRef
  candFront  : Bool
  candHit    : List Word
  out        : List Word
deriving DecidableEq, Repr

/-- A resident thread group (R71, R75, R98). -/
structure Group where
  slot  : Nat
  wg    : Nat
  index : Nat
  part  : Nat
  pc    : BitVec 64
  v     : List (List Word)
  s     : List Word
  p     : List Word
  st    : GroupState
  parked : Bool
  pend  : Option PendingLoad
  rays  : List RayLane
  draw  : Nat
  quads : List Quad
  sent  : List (Nat × Nat × List Word)
  depths : List (Nat × Word)
  last  : Bool
deriving DecidableEq, Repr

/-- A resident workgroup: its index, its local shared memory and its barriers' bookkeeping (R71, R81). -/
structure Workgroup where
  id    : Nat
  x     : Nat
  y     : Nat
  z     : Nat
  lds   : Memory
  bytes : Nat
  alive : Nat
deriving DecidableEq, Repr

/-- A line of a cluster's L1: where it lies, its bytes, its dirty mask per byte, and whether its clean bytes were filled
from memory (Memory model, R89). -/
structure L1Line where
  tgt   : Target
  line  : Nat
  va    : Nat
  data  : List Byte
  dirty : List Bool
  full  : Bool
deriving DecidableEq, Repr

/-- The life of a tile in a cluster's tile memory (R120, R166). -/
inductive TilePhase where
  | shading | retired | granted | written
deriving DecidableEq, Repr

/-- A tile that a cluster holds in tile memory (R120, R121, R166). -/
structure TileSlot where
  job     : Nat
  tile    : Nat
  off     : Nat
  bytes   : Nat
  phase   : TilePhase
  touched : Bool
  flush   : Bool
  cleared : List Bool
  grant   : Option Nat
deriving DecidableEq, Repr

/-- The kernel share that a cluster runs (R74, R173). -/
structure KernelRun where
  work   : Work
  key    : CtxKey
  desc   : KernelDesc
  nextWg : Nat
  pix    : List PixelGroup
  todo   : List Nat
deriving DecidableEq, Repr

/-- A switch in progress on a unit (R190). -/
structure SwitchRun where
  out  : Option CtxKey
  into : Option CtxKey
deriving DecidableEq, Repr

/-- The state of a context's share of a cluster that was saved to a slot of its save area (R190, R191). -/
structure SavedCluster where
  slot   : Nat
  run    : Option KernelRun
  wgs    : List Workgroup
  groups : List Group
  tiles  : List TileSlot
  tileMem : Memory
deriving DecidableEq, Repr

/-- What every engine with a command ring has: ring, holder, counters, range cache, epoch (R172, R311, R316, R376). -/
structure EngineCore where
  ring      : List RingEntry
  holder    : Option CtxKey
  heldSince : Nat
  busy      : Bool
  sw        : Option SwitchRun
  retired   : Nat
  retiredBy : List Nat
  work      : Nat
  cache     : List RangeCacheEntry
  epoch     : BitVec 8
  armed     : Bool
  liveWrite : Bool
deriving DecidableEq, Repr

/-- A quad that a render-output slice expects: the job of its pass, its place and its primitive's number (R130). -/
structure SliceExpect where
  job : Nat
  qx  : Nat
  qy  : Nat
  seq : BitVec 32
deriving DecidableEq, Repr

/-- A quad's fragments in a retire buffer, or on their way to it (R130). -/
structure SliceEntry where
  at_   : SliceExpect
  frags : List Fragment
deriving DecidableEq, Repr

/-- A shader cluster. -/
structure Cluster where
  core    : EngineCore
  run     : Option KernelRun
  stopJob : Option Nat
  wgs     : List Workgroup
  groups  : List Group
  l1      : List L1Line
  tiles   : List TileSlot
  tileMem : Memory
  slice   : List SliceExpect
  buf     : List SliceEntry
  free    : Nat
deriving DecidableEq, Repr

/-- An attachment record of a pass descriptor (R108). -/
structure Attachment where
  addr     : Nat
  tst      : Nat
  resolve  : Nat
  format   : Nat
  loadOp   : Nat
  storeOp  : Nat
  clearIdx : Nat
deriving DecidableEq, Repr

/-- A blend entry (R108). -/
structure Blend where
  enable : Bool
  src    : Nat
  dst    : Nat
  op     : Nat
  mask   : BitVec 4
deriving DecidableEq, Repr

/-- A draw record (R108). -/
structure Draw where
  geom       : Nat
  pixel      : Nat
  args       : Nat
  vertices   : Nat
  instances  : Nat
  topology   : Nat
  cull       : Nat
  frontCw    : Bool
  depthFunc  : Nat
  depthWrite : Bool
  lateZ      : Bool
  vtxDwords  : Nat
  sRef       : Nat
  sMask      : Nat
  sFail      : Nat
  sPass      : Nat
  sFunc      : Nat
  blends     : List Blend
deriving DecidableEq, Repr

/-- A pass descriptor as the front end read it (R108). -/
structure PassDesc where
  mode      : Nat
  tileMax   : Nat
  halo      : Nat
  samples   : Nat
  rtCount   : Nat
  depthEn   : Bool
  stencilEn : Bool
  signature : Word
  width     : Nat
  height    : Nat
  areaX     : Nat
  areaY     : Nat
  areaW     : Nat
  areaH     : Nat
  pptMax    : Nat
  batchTiles : Nat
  pbBudget  : Nat
  pbSize    : Nat
  pbAddr    : Nat
  drawList  : Nat
  drawCount : Nat
  vertexCount : Nat
  tileNet   : Nat
  clears    : List (List Byte)
  colours   : List Attachment
  depth     : Attachment
  draws     : List Draw
deriving DecidableEq, Repr

/-- The phases of a pass at its front end (R105, R116, R139). -/
inductive PassPhase where
  | idle | geometry | tile | flush
deriving DecidableEq, Repr

/-- A piece of a primitive that the front end has assembled, clipped and not culled (R107, R117): its number within its instance,
whether it faces front, its vertex blocks, and the tiles that it enters. -/
structure PrimOut where
  primNo : Nat
  front  : Bool
  blocks : List (List Word)
  tiles  : List Nat
deriving DecidableEq, Repr

/-- The state of a running pass (chapter 04). Its kernels are the geometry and pixel kernel of each draw; `batches` are the
geometry batches to come (draw, instance, first vertex, vertices); `geom` are those in flight, with whether the clusters
have completed them; `live` are its tile and pixel batches; `pix` are the pixel groups of the batches not yet dispatched;
`heads` are the tile lists (tile, last chunk, entries); `overflow` are the primitives that wait for a flush. -/
structure PassRun where
  desc     : PassDesc
  kernels  : List (KernelDesc × KernelDesc)
  direct   : Bool
  tileW    : Nat
  tileH    : Nat
  phase    : PassPhase
  batches  : List (Nat × Nat × Nat × Nat)
  geom     : List (WorkKind × Bool)
  live     : List WorkKind
  pix      : List (Nat × List PixelGroup)
  heads    : List (Nat × Nat × Nat)
  heap     : Nat
  prims    : Nat
  refs     : Nat
  high     : Nat
  flushes  : Nat
  flushed  : List Nat
  overflow : List (Nat × PrimOut)
  binning  : Bool
  expect   : List (Nat × SliceExpect)
  flying   : List (Nat × SliceEntry)
  slices   : List Nat
  saved    : Option (Nat × Nat)
deriving DecidableEq, Repr

/-- A geometry front end (R139). -/
structure FrontEnd where
  core     : EngineCore
  job      : Option Nat
  cfg      : Word
  shadow   : Word
  writes   : List Word
  direct   : Bool
  passes   : Word
  flushes  : BitVec 16
  directs  : BitVec 16
deriving DecidableEq, Repr

/-- A flume grant: cluster, tile, context (R23, R166). -/
structure Grant where
  cluster : Nat
  tile    : Nat
  off     : Nat
  bytes   : Nat
  job     : Nat
  key     : CtxKey
deriving DecidableEq, Repr

/-- The weights of a tile network that an array keeps across the tiles of a pass: the bytes of each span that it has read, by
the span's address and length (R166). -/
structure Kept where
  job  : Nat
  net  : Nat
  rows : List ((Nat × Nat) × List Byte)
deriving DecidableEq, Repr

/-- A Nersovo array (R171). -/
structure Array where
  core   : EngineCore
  layer  : Option Work
  grant  : Option Grant
  step   : Nat
  buf    : Memory
  kept   : Option Kept
  cfg    : Word
  shadow : Word
  writes : List Word
  layers : Word
deriving DecidableEq, Repr

/-- A copy engine (R318 to R321). -/
structure CopyEngine where
  core  : EngineCore
  job   : Option Nat
  chunk : Option Nat
  dest  : List (Target × Nat × Nat)
  /-- The fault report that a failing chunk makes whose job a loss or a teardown has ended (R290, R303). -/
  orphan : Option FaultReport
deriving DecidableEq, Repr

/-- A copy descriptor (R318). -/
structure CopyDesc where
  src       : Nat
  dst       : Nat
  kind      : Nat
  elemLog2  : Nat
  xBytes    : Nat
  yRows     : Nat
  zSlices   : Nat
  srcPitch  : Nat
  dstPitch  : Nat
  srcSlice  : Nat
  dstSlice  : Nat
  fill      : Word
deriving DecidableEq, Repr

/-- A layer descriptor of a network (R152). -/
structure LayerDesc where
  op : Nat
  aFmt : Nat
  wFmt : Nat
  oFmt : Nat
  group : Nat
  biasEn : Bool
  scaleEn : Bool
  actEn : Bool
  residualEn : Bool
  sparse : Bool
  broadcastC : Bool
  aRef : BitVec 64
  wRef : BitVec 64
  oRef : BitVec 64
  rRef : BitVec 64
  tRef : BitVec 64
  inH : Nat
  inW : Nat
  inC : Nat
  outC : Nat
  outH : Nat
  outW : Nat
  n : Nat
  groups : Nat
  aRow : Nat
  oRow : Nat
  aN : Nat
  oN : Nat
  kh : Nat
  kw : Nat
  sh : Nat
  sw : Nat
  dh : Nat
  dw : Nat
  padT : Nat
  padL : Nat
  inZero : Int
  outZero : Int
  p0 : Word
  p1 : Word
  p2 : Word
  p3 : Word
  workset : Nat
  weightBytes : Nat
  timeNs : Nat
  timeLayerNs : Nat
deriving DecidableEq, Repr

/-- An entry of a network's binding table (R150). -/
structure Binding where
  fmt       : Nat
  output    : Bool
  n         : Nat
  h         : Nat
  w         : Nat
  c         : Nat
  rowStride : Nat
  bytes     : Nat
deriving DecidableEq, Repr

/-- A loaded network (R154, R156). -/
structure Net where
  handle    : Nat
  layerMode : Bool
  retry     : Nat
  image     : Nat
  arena     : Nat
  granules  : Nat
  need      : Nat
  tableB    : Nat
  kernelB   : Nat
  weightB   : Nat
  weightOff : Nat
  peakAct   : Nat
  scratch   : Nat
  tileNet   : Bool
  haloReq   : Nat
  tileW     : Nat
  tileH     : Nat
  binds     : List Binding
  layers    : List LayerDesc
deriving DecidableEq, Repr

/-- The progress of a NET_RUN job (R160 to R163). -/
structure NetRun where
  handle   : Nat
  trigger  : Bool
  port     : Nat
  vc       : Nat
  bindFrame : Bool
  result   : Nat
  binds    : List Nat
  armed    : Bool
  running  : Bool
  buffer   : Option (CtxKey × Nat)
  attempt  : Nat
  group    : Nat
  left     : List Nat
  executed : Nat
  sat      : Nat
  startStamp : BitVec 48
  endStamp : BitVec 48
  faulted  : Bool
  dealt    : List (Nat × Nat)
deriving DecidableEq, Repr

/-- What a job is (R3 "job"; R281, R108, R160, R318). -/
inductive JobKind where
  | kernel (d : KernelDesc) (next done total : Nat)
  | pass (desc : Nat) (run : Option PassRun)
  | net (r : NetRun)
  | copy (d : CopyDesc) (next total : Nat)
deriving DecidableEq, Repr

/-- How a job ended, for JOB_END (R273). -/
inductive JobOutcome where
  | running
  | complete
  | faulted
  | contextLost
  | reset (kind : Nat)
  | escalated (kind : Nat)
deriving DecidableEq, Repr

/-- A started job. -/
structure Job where
  id       : Nat
  key      : CtxKey
  origin   : Origin
  fence    : Nat
  value    : BitVec 64
  kind     : JobKind
  outcome  : JobOutcome
  record   : Option Nat
  hasFault : Bool
  island   : Nat
  endStamp : BitVec 48
  sinceReset : Bool
deriving DecidableEq, Repr

/-- The states of a context (R287). -/
inductive CtxState where
  | active | faulted | lost | destroying
deriving DecidableEq, Repr

/-- An open fault episode (R290 to R292). -/
structure Episode where
  first      : Nat
  written    : Nat
  suppressed : Nat
  eligible   : Bool
  waiting    : Bool
deriving DecidableEq, Repr

/-- A teardown in progress (R302). -/
structure Teardown where
  origin  : Origin
  fences  : List (Nat × Nat)
  epochs  : List (Requester × BitVec 8)
  withdrawn : Bool
  drained : Bool
  flushTag : Option Nat
  escalated : Option Nat
deriving DecidableEq, Repr

/-- A RANGE_UNMAP whose withdrawal has not completed (R312). -/
structure Unmap where
  origin : Origin
  ranges : List RangeEntry
  waiting : List Requester
  epochs : List (Requester × BitVec 8)
  needsFlush : Bool
  drained : Bool
  flushTag : Option Nat
deriving DecidableEq, Repr

/-- A context (R279, R287). -/
structure Ctx where
  key         : CtxKey
  prio        : Nat
  replayable  : Bool
  prot        : Bool
  maxClusters : Nat
  save        : Nat
  rt          : BitVec 64
  ring        : BitVec 64
  ranges      : List RangeEntry
  st          : CtxState
  fseq        : Nat
  lastFseq    : Nat
  episode     : Option Episode
  resident    : Bool
  lastRun     : Option Nat
  nets        : List Net
  nextHandle  : Nat
  saved       : List SavedCluster
  stored      : Bool
  unmaps      : List Unmap
  teardown    : Option Teardown
deriving DecidableEq, Repr

/-- Why a packet is held at the head of its queue, coded as the dump's HOLD field (R275, R387). -/
inductive Hold where
  | barrier | fenceWait | commitArmed | jobLimit | faulted | ringRoom | other
deriving DecidableEq, Repr

/-- A packet held at the head of its queue: why, its OPCODE and the packet (R275). -/
structure Held where
  why    : Hold
  opcode : BitVec 8
  pkt    : Packet
deriving DecidableEq, Repr

/-- A registered fence wait (R196, R300). -/
structure Wait where
  origin : Origin
  addr   : Nat
  value  : BitVec 64
  remote : Bool
  engine : Option Engine
  lastValue : BitVec 64
  lastError : Word
deriving DecidableEq, Repr

/-- A queue (R258 to R270, R294). -/
structure Queue where
  fn         : Nat
  q          : Nat
  ctx        : Nat
  ringLog2   : Nat
  statusLog2 : Nat
  vector     : Nat
  irqAll     : Bool
  ringAddr   : Nat
  statusAddr : Nat
  write      : Nat
  statusRead : Nat
  read       : Nat
  sw         : Nat
  phase      : Bool
  unread     : Nat
  halted     : Bool
  destroying : Option Origin
  held       : Option Held
  owed       : Nat
  deferred   : Nat
  turn       : Nat
  wait       : Option Wait
deriving DecidableEq, Repr

/-- A slot of a sluice table (R176). -/
structure Slot where
  start   : Nat
  length  : Nat
  cls     : Nat
  trigger : Nat
  clMask  : BitVec 48
  nsMask  : BitVec 9
  ceMask  : BitVec 4
  rsvShare : Nat
  ctx     : Nat
  tenant  : Nat
  pipe    : Nat
  port    : Nat
  vc      : Nat
  limit   : Nat
deriving DecidableEq, Repr

/-- A sluice table (R175). -/
structure Table where
  lock    : Nat
  pipe    : Nat
  port    : Nat
  vc      : Nat
  period  : Nat
  shares  : List Nat
  quantum : Nat
  poll    : Nat
  slots   : List Slot
deriving DecidableEq, Repr

/-- The state of one slot within the round (R179, R185). -/
structure SlotRun where
  opened   : Bool
  isOpen   : Bool
  lapsed   : Bool
  openedAt : Nat
  owned    : Bool
  denied   : Bool
deriving DecidableEq, Repr

/-- An event to which rounds and slots lock (R178, R179). -/
inductive EventSrc where
  | vblank (p : Nat)
  | frameEnd (port vc : Nat)
deriving DecidableEq, Repr

/-- The Sluice block (chapter 06). -/
structure Sluice where
  active     : Table
  shadow     : Table
  armed      : Option Origin
  owners     : List Bool
  isDefault  : Bool
  runs       : List SlotRun
  boundary   : Nat
  lockLost   : Bool
  walker     : Bool
  events     : List (EventSrc × Nat)
  rounds     : Word
  lastUs     : BitVec 24
  evictions  : Word
  switches   : Word
  yields     : BitVec 16
  lapsed     : BitVec 16
  deferred   : List CtxKey
  reports    : List FaultReport
  ready      : List Work
  heldUs     : List (Nat × Bool × Nat)
  contended  : List (Nat × Bool × Nat)
  rankCl     : List Nat
  rankNs     : List Nat
deriving DecidableEq, Repr

/-- A layer descriptor of a display pipe, with the context that set it (R205). -/
structure Layer where
  addr   : Nat
  tst    : Nat
  format : Nat
  enable : Bool
  flatEn : Bool
  blend  : Nat
  flipX  : Bool
  flipY  : Bool
  surfW  : Nat
  surfH  : Nat
  cropX  : Nat
  cropY  : Nat
  cropW  : Nat
  cropH  : Nat
  dstX   : Nat
  dstY   : Nat
  dstW   : Nat
  dstH   : Nat
  alpha  : Nat
  key    : Option CtxKey
deriving DecidableEq, Repr

/-- A protected-layer descriptor (R216). -/
structure ProtDesc where
  enable   : Bool
  format   : Nat
  x        : Nat
  y        : Nat
  w        : Nat
  h        : Nat
  crc      : Word
  content  : Nat
  fallback : Nat
  fbCrc    : Word
  colour   : BitVec 30
  origin   : Option Origin
deriving DecidableEq, Repr

/-- The SHADOW fields of a pipe (R229, R31). -/
structure PipeCfg where
  enable  : Bool
  timingH : Word
  timingV : Word
  sync    : Word
  pclk    : Word
  owner   : Word
  bg      : Word
  flatCfg : Word
  layers  : List Layer
  prot    : ProtDesc
deriving DecidableEq, Repr

/-- A write that waits in a pipe's pending-write buffer (R30). -/
inductive PipeWrite where
  | reg (off : Nat) (v : Word)
  | layers (ls : List (Nat × Layer))
  | prot (d : ProtDesc)
deriving DecidableEq, Repr

/-- The protected layer's states (R219). -/
inductive ProtState where
  | off | showing | fallback | failed
deriving DecidableEq, Repr

/-- A display pipe with its share of the compositor (chapter 07). -/
structure Pipe where
  shadow     : PipeCfg
  applied    : PipeCfg
  writes     : List PipeWrite
  armed      : Bool
  waiters    : List Origin
  liveWrite  : Bool
  out        : Word
  link       : Word
  cfgBad     : Bool
  noRoom     : Bool
  withdrawn  : Bool
  withdraw   : List Nat
  shadowGone : Bool
  underrun   : Bool
  underruns  : BitVec 8
  readUe     : BitVec 8
  frames     : Word
  ages       : List Nat
  flatValid  : Bool
  flatRun    : Nat
  flatWrite  : Option Nat
  flatDone   : Bool
  flatTags   : Bool
  protState  : ProtState
  protNew    : Bool
  mismatches : BitVec 16
  lastCrc    : Word
  hpd        : Bool
  hpdIrq     : Bool
  trained    : Bool
  trainFail  : Bool
  training   : Bool
  auxCmd     : Word
  auxBusy    : Bool
  auxResult  : BitVec 2
  auxData    : List Word
  cache      : List RangeCacheEntry
  /-- The withdrawn ranges that its applied layers name until the next vblank start (R209, R312). -/
  gone       : List RangeCacheEntry
  epoch      : BitVec 8
deriving DecidableEq, Repr

/-- A CAM_CONFIG descriptor (R224). -/
structure CamDesc where
  dt       : Nat
  enable   : Bool
  dropBad  : Bool
  out      : Nat
  decX     : Nat
  decY     : Nat
  cropX    : Nat
  cropY    : Nat
  cropW    : Nat
  cropH    : Nat
  stride   : Nat
deriving DecidableEq, Repr

/-- A camera binding (R225). -/
structure CamBinding where
  key      : CtxKey
  count    : Nat
  bytes    : Nat
  record   : Nat
  fence    : Nat
  bufs     : List Nat
deriving DecidableEq, Repr

/-- A frame in progress, or ended and waiting for its writes (R226 to R228). -/
structure Frame where
  buf       : Option Nat
  errHdr    : Bool
  errCrc    : Bool
  truncated : Bool
  oversize  : Bool
  noBuffer  : Bool
  lines     : Nat
  fsStamp   : BitVec 48
  ended     : Bool
  /-- The binding and the DROP_BAD under which the frame started (R224, R227). -/
  bind      : Option CamBinding
  dropBad   : Bool
deriving DecidableEq, Repr

/-- A camera channel (R223 to R228). -/
structure Channel where
  shadow   : CamDesc
  applied  : CamDesc
  shadowBind  : Option CamBinding
  appliedBind : Option CamBinding
  writes   : List (Option CamDesc × Option CamBinding)
  armed    : Bool
  waiters  : List Origin
  frameNo  : Word
  nextBuf  : Nat
  /-- The buffers that runs hold, by context and address (R226). -/
  held     : List (CtxKey × Nat)
  removing : Bool
  /-- The withdrawn ranges that frames of a removed binding still use (R225, R312). -/
  gone     : List RangeCacheEntry
  cur      : Option Frame
  done     : List Frame
deriving DecidableEq, Repr

/-- A CSI-2 receiver (R221, R230). -/
structure Port where
  cfg      : Word
  owner    : Word
  running  : Bool
  hdrErr   : BitVec 8
  crcErr   : BitVec 8
  badDt    : BitVec 8
  noBuf    : BitVec 8
  deskew   : Word
  chans    : List Channel
deriving DecidableEq, Repr

/-- The camera front end (R230, R316). -/
structure Camera where
  ports     : List Port
  liveWrite : Bool
  cache     : List RangeCacheEntry
  epoch     : BitVec 8
deriving DecidableEq, Repr

/-- An MSI-X vector's table entry (R243). -/
structure MsixEntry where
  vec  : Nat
  addr : BitVec 64
  data : Word
  mask : Bool
deriving DecidableEq, Repr

/-- FN_STATUS.STATE (R256). -/
inductive FnState where
  | booting | ready | resetting | fatal
deriving DecidableEq, Repr

/-- The service states of a function (R384). -/
inductive Service where
  | normal | startup | test | recovery
deriving DecidableEq, Repr

/-- A function: its registers, doorbell fabric, mailbox, MSI-X, windows, configuration space and DOE mailbox
(chapters 08, 09, 14). -/
structure Fun where
  st          : FnState
  liveWrite   : Bool
  leveeChanged : Bool
  aperture2   : Word
  bar2Wait    : List Instr
  dramWin     : List (Nat × Nat)
  rsvMask     : BitVec 64
  badAccess   : BitVec 8
  denied      : BitVec 8
  unsupported : BitVec 8
  poisonSent  : BitVec 8
  mboxCmd     : List Word
  mboxReply   : List Word
  mboxDone    : Bool
  mboxBusy    : Bool
  mboxServing : Bool
  mboxHeld    : Bool
  mboxNext    : Bool
  dbDropped   : BitVec 16
  evDropped   : BitVec 16
  overflowed  : Bool
  fifo        : List Nat
  pendingMap  : List Nat
  service     : Service
  telemCfg    : Word
  telemLo     : Word
  telemHi     : Word
  telemBad    : Bool
  telemSeq    : Word
  sample      : List Byte
  dumpRegions : List Word
  msixEnable  : Bool
  msixMaskAll : Bool
  msix        : List MsixEntry
  pba         : List Nat
  vote        : Nat
  d3hot       : Bool
  bar2Log2    : Nat
  cfgSpace    : List (Nat × Word)
  timeoutUs   : Nat
  noTimeout   : Bool
  pme         : Bool
  aerUncorr   : Word
  aerCorr     : Word
  aerMask     : Word
  aerSeverity : Word
  aerCorrMask : Word
  aerHeader   : List Word
  doeReq      : Option (Nat × List Byte)
  doeError    : Bool
  doeRsp      : List Byte
  spdmVca     : List Byte
  spdmCerts   : List Byte
  spdmMeas    : List Byte
  cumEvict    : Nat
  cumFaults   : Nat
  cumYields   : Nat
  cumResets   : Nat
  clusterUs   : Nat
  arrayUs     : Nat
  copyUs      : Nat
  rsvBytes    : Nat
  dramBytes   : Nat
  hostBytes   : Nat
deriving DecidableEq, Repr

/-- A line of a system cache slice: its metadata. The data of a line is the coherent content, which Mem holds
(log entry 6). `fresh` are the bytes of a poisoned line that have been overwritten since (R65). -/
structure ScLine where
  tgt   : Target
  line  : Nat
  way   : Nat
  dirty : Bool
  valid : BitVec 128
  poison : Bool
  fresh : BitVec 128
  low   : Bool
deriving DecidableEq, Repr

/-- A tracker of the streaming-store detector (R52). -/
structure Tracker where
  stream : Stream
  count  : Nat
  last   : Nat
deriving DecidableEq, Repr

/-- A prefetch entry (R54). -/
structure PfEntry where
  stream : Stream
  stride : Int
  conf   : Nat
  last   : Nat
deriving DecidableEq, Repr

/-- A miss entry of a slice (R55): a prefetch has no request; a demand miss has the read or the atomic that waits for it. -/
structure Miss where
  stream   : Stream
  tgt      : Target
  line     : Nat
  alloc    : Bool
  low      : Bool
  request  : Option Instr
deriving DecidableEq, Repr

/-- A coalescing buffer line (R53). -/
structure CoalLine where
  stream : Stream
  tgt    : Target
  line   : Nat
  valid  : BitVec 128
deriving DecidableEq, Repr

/-- A system cache slice (R49 to R61). `evicting` are the lines under eviction, each in its way until the write-back is
accepted; a line that left the victim cache has way 16. `passing` are the PEER reads whose answer has not come. -/
structure Slice where
  lines    : List ScLine
  trackers : List Tracker
  pf       : List PfEntry
  coal     : List CoalLine
  stalled  : List Stream
  misses   : List Miss
  waiting  : List Instr
  evicting : List ScLine
  passing  : List (Stream × Nat × Nat)
  victims  : List ScLine
  ways     : BitVec 4
  cleaning : Option Nat
deriving DecidableEq, Repr

/-- An access that waits in a channel island's queue while the channel retrains (R68). -/
structure DramReq where
  write     : Bool
  addr      : Nat
  len       : Nat
  data      : List Byte
  valid     : List Bool
  errs      : List EccHit
  link      : LinkEcc
  allocates : Bool
deriving DecidableEq, Repr

/-- An LPDDR5X channel (R63, R67, R68): its refresh rate, its per-bank, all-bank and refresh-management commands, whether its
devices refresh themselves, and its retraining. -/
structure DramChannel where
  refreshRate : Nat
  refreshes   : Nat
  allBank     : Nat
  rfms        : Nat
  selfRefresh : Bool
  retraining  : Bool
  softPending : Bool
  hardPending : Bool
  softSince   : Nat
  waiting     : List DramReq
deriving DecidableEq, Repr

/-- One operating point of a margin plan (R322). -/
structure PlanPoint where
  freqKHz : Nat
  vMax    : Nat
  vMin    : Nat
  slack   : Int
deriving DecidableEq, Repr

/-- An island: its cycle counter, clock, supply and plan (R13, R15, R322 to R331). -/
structure Island where
  id       : Nat
  counter  : BitVec 48
  freqKHz  : Nat
  point    : Nat
  thermCap : Nat
  changes  : BitVec 16
  a2       : Bool
  off      : Bool
  inReset  : Bool
  drooped  : Bool
  mv       : Nat
  fmax0    : Nat
  fmax     : Nat
  plan     : List PlanPoint
deriving DecidableEq, Repr

/-- The Reservoir's bank groups: repair, scrubber, ECC registers (R38 to R48, R70). -/
structure Rsv where
  liveWrite  : Bool
  scrubCfg   : Word
  doublings  : Nat
  passCount  : BitVec 28
  ceCount    : Word
  ueCount    : Word
  logAddr    : Word
  logSyn     : Word
  groupAlert : BitVec 8
  retained   : BitVec 8
  lastLoss   : Bool
  s1Pass     : Bool
  active     : Bool
  line       : Nat
  ce         : Nat
  raised     : Bool
  ceThis     : List Nat
  cePrev     : List Nat
  outBank    : List Nat
deriving DecidableEq, Repr

/-- The system cache block and the DRAM registers (R58, R61, R65 to R68, R70). -/
structure Sc where
  liveWrite : Bool
  mode      : Word
  patrolCfg : Word
  patrolAt  : Nat
  dramCe    : Word
  dramUe    : Word
  linkEcc   : Word
  array     : Word
  dramLog   : Word
  retrain   : Word
  slices    : List Slice
deriving DecidableEq, Repr

/-- A non-posted request of the device that waits for its completion (R412). -/
inductive ReqOwner where
  | group (c g : Nat)
  | order (c g : Nat)
  | teardown (key : CtxKey)
  | unmap (key : CtxKey)
deriving DecidableEq, Repr

/-- An outstanding non-posted request. -/
structure NpReq where
  tag   : Nat
  fn    : Nat
  owner : ReqOwner
  addr  : Nat
  len   : Nat
  /-- Whether it is on the link: beyond what may be outstanding it waits for its turn (R231). -/
  issued : Bool
  /-- The fault report that its failure makes when a loss or a teardown has ended its group's work (R290, R303). -/
  orphan : Option FaultReport
deriving DecidableEq, Repr

/-- The PCIe island (R231, R257, R412). -/
structure Pcie where
  liveWrite  : Bool
  linkUp     : Bool
  cfg        : Word
  rate       : BitVec 4
  width      : BitVec 3
  l0pWidth   : BitVec 3
  pm         : BitVec 3
  recoveries : BitVec 8
  fec        : Word
  replays    : Word
  reqs       : List NpReq
  nextTag    : Nat
  held       : List Instr
deriving DecidableEq, Repr

/-- A firmware image: its header's facts, and the facts of its bytes that R363 checks against OTP at boot. -/
structure FwImage where
  formatOk    : Bool
  proc        : Nat
  handoverVer : Nat
  handoverMin : Nat
  svn         : Nat
  keySlot     : Nat
  revoke      : BitVec 3
  release     : Word
  keyHash     : List Byte
  signatureOk : Bool
  digestOk    : Bool
  iramDigest  : List Byte
  digest      : List Byte
deriving DecidableEq, Repr

/-- A firmware processor (R359, R371 to R373). `cached`: its instruction and data caches hold lines (R62). -/
structure Proc where
  up        : Bool
  cached    : Bool
  paused    : Bool
  newImage  : Bool
  restarts  : BitVec 8
  times     : List Nat
  downSince : Nat
  image     : Option FwImage
  iramDigest : List Byte
deriving DecidableEq, Repr

/-- The states of an activation (R368, R370). -/
inductive Activation where
  | none | running | deferred | paused | handingBack
deriving DecidableEq, Repr

/-- An entry of the flash log: its type, sequence number and payload (R392). -/
structure LogEntry where
  type    : BitVec 8
  seq     : Nat
  payload : List Byte
deriving DecidableEq, Repr

/-- A sector of the flash log: erase count, sequence, bad mark and entries (R392). -/
structure LogSector where
  erases  : Nat
  seq     : Nat
  valid   : Bool
  bad     : Bool
  entries : List LogEntry
deriving DecidableEq, Repr

/-- The Levee block: protected mask, DOE service, OTP, flash slots, staging and activation (chapters 08, 13). -/
structure Levee where
  protMask   : BitVec 64
  doeOrder   : List Nat
  otpKeys    : List (Option (List Byte))
  otpRevoked : BitVec 3
  otpSvn     : Nat
  slotA      : List FwImage
  slotB      : List FwImage
  recordSeq  : Nat
  activeSlot : Bool
  staged     : Bool
  staging    : Option (Origin × List FwImage)
  activation : Activation
  nextProc   : Nat
  actOrigin  : Option Origin
  actDeferred : Bool
  crashed    : Bool
  failReason : Nat
  backOrigin : Option Origin
  bootFail   : BitVec 8
  fallback   : Bool
  noImage    : Bool
  cfgBad     : Bool
  wakeFail   : Bool
deriving DecidableEq, Repr

/-- A replan in progress or waiting (R338, R341). -/
structure Replan where
  island : Nat
  origin : Option Origin
deriving DecidableEq, Repr

/-- The Weir block (chapter 12). -/
structure Weir where
  liveWrite   : Bool
  pwrLimit    : Word
  thermCfg    : Word
  cfg         : Word
  ageSel      : Word
  cap         : Nat
  below       : Nat
  over110     : Nat
  capAtStart  : Nat
  powerEmerg  : Bool
  thermEmerg  : Bool
  trip        : Bool
  alertLow    : Bool
  alertHighAt : Nat
  okWindows   : Nat
  coolSince   : Option Nat
  temps       : List Int
  lastMw      : Nat
  window      : List Nat
  belowNominal : Bool
  fixedLow    : Bool
  planVersion : BitVec 16
  hours       : Word
  sinceReplan : Nat
  replans     : List Replan
  retryReplan : Bool
  powerEvents : BitVec 8
  thermEvents : BitVec 8
  trips       : BitVec 8
  droops      : BitVec 8
  clamped     : Bool
  scIdle      : Bool
  sample      : List Byte
deriving DecidableEq, Repr

/-- The power state of the device (Sleep states, R343 to R351). -/
inductive PowerMode where
  | a | enteringS1 | s1 | leavingS1 | enteringS3 | s3 | wakingS3 | off
deriving DecidableEq, Repr

/-- The save area of S3 (R349): the registers and data that it keeps. The repair registers are those of `part` and
`outBank`. A pipe's words are DSP_TIMING_H, DSP_TIMING_V, DSP_SYNC, DSP_PCLK, DSP_OUT, DSP_LINK, DSP_OWNER, DSP_BG and
DSP_FLAT_CFG; a receiver's are CAM_PORT_CFG, CAM_OWNER and its deskew result; Weir's are WEIR_PWR_LIMIT, WEIR_THERM_CFG,
WEIR_CFG, WEIR_EVENTS and the power cap; an island's are its ID, running point, regulator voltage, FMAX and margin plan. -/
structure SaveArea where
  outBank  : List Nat
  windows  : List (List (Nat × Nat) × BitVec 64)
  protMask : BitVec 64
  pipes    : List (List Word)
  ports    : List (Word × Word × Word)
  pciCfg   : Word
  scrubCfg : Word
  scMode   : Word
  patrol   : Word
  feCfg    : List Word
  nsCfg    : List Word
  weir     : List Word
  islands  : List (Nat × Nat × Nat × Nat × List PlanPoint)
  hours    : Word
  since    : Nat
  version  : BitVec 16
deriving DecidableEq, Repr

/-- The always-on domain and the control pins (R352 to R358, R397, R400 to R407). -/
structure Aon where
  liveWrite   : Bool
  ldoLp       : Bool
  lpPeakMa    : BitVec 8
  wakeSrc     : BitVec 4
  cause       : BitVec 4
  i3cCfg      : Word
  s3Cfg       : Word
  saveValid   : Bool
  railTimeout : Bool
  s3Wakes     : BitVec 16
  mode        : PowerMode
  retain      : BitVec 8
  dramKeep    : Bool
  wakePending : Option (BitVec 4)
  save        : Option SaveArea
  bootPending : Bool
  aonRst      : Bool
  perst       : Bool
  corePgood   : Bool
  corePwrReq  : Bool
  memPwrEn    : Bool
  thermN      : Bool
  xtalStable  : Bool
  sysclk      : Bool
  vaon        : Bool
  i3cData     : List Byte
  i3cAck      : Bool
  i2c         : Bool
  railSince   : Nat
deriving DecidableEq, Repr

/-- A reset in progress at the sequencer (R377 to R383). -/
structure Reset where
  kind      : Nat
  units     : List Nat
  named     : Nat
  namedUnit : Nat
  fromLink  : Bool
  waiters   : List (Origin × Nat)
  islands   : List Nat
  lost      : List CtxKey
  tenants   : List Nat
  startedAt : Nat
  begunAt   : Nat
deriving DecidableEq, Repr

/-- Fixed facts of the part and the board (R2, R25, R63, R256, R360). -/
structure Part where
  clEnable  : BitVec 48
  nsEnable  : BitVec 9
  spare     : List Nat
  step      : BitVec 8
  dramGib   : Nat
  inlineEcc : Bool
  linkEcc   : Bool
  rfm       : Bool
  rateMts   : Nat
  softLimit : Nat
  hardLimit : Nat
deriving DecidableEq, Repr

/-- The memories: DRAM, the Reservoir, and host and peer memory as the device sees it across the link (R21, R38, R65,
R232), with the 64-bit words that hold an uncorrectable error (R43, R65). -/
structure Mem where
  dram   : Memory
  rsv    : Memory
  bus    : Memory
  rsvUe  : List Nat
  dramUe : List Nat
deriving DecidableEq, Repr

/-- What the block has put out, newest first: messages, completions and requests on the link (R242, R243, R244, R412), the data
that a memory has returned for a RESERVOIR_, slice or DRAM_ command (R41, R50, R65), and a host line written back poisoned (R60). -/
inductive Msg where
  | msix (fn vec : Nat) (addr : BitVec 64) (data : Word)
  | data (fn : Nat) (bytes : List Byte) (poisoned : Bool)
  | unsupported (fn : Nat)
  | aer (fn bit severity : Nat)
  | pme (fn : Nat)
  | flushRead (fn tag : Nat)
  | read (fn tag addr len : Nat)
  | fetch (fn addr len : Nat)
  | write (fn addr : Nat) (bytes : List Byte) (poisoned : Bool)
  | served (who : Requester) (bytes : List Byte) (poisoned : Bool)
  | dramData (addr : Nat) (bytes : List Byte) (poisoned : Bool)
deriving DecidableEq, Repr

/-- The contents of a status ring entry or mailbox reply (R267). `event` marks an event entry, `deferred` the outcome of
a deferred packet, whose room in the status ring is reserved (R272). -/
structure Entry where
  origin   : Origin
  event    : Bool
  deferred : Bool
  status   : Nat
  detail   : Nat
  fval     : BitVec 64
  island   : Nat
  stamp    : BitVec 48
deriving DecidableEq, Repr

/-- Why a step ends in a fault. Both are the model's: they name an address that the spec says does not exist. -/
inductive Fault where
  /-- Raised by DRAM_ACCESS for an address at or above the usable DRAM capacity (R65: DRAM addresses run from 0 up to
  that capacity). Safe: the machine has no such address. -/
  | dramAddress
  /-- Raised by RESERVOIR_ACCESS and RESERVOIR_ATOMIC of a requester that has no job, for an address at or above the
  usable Reservoir size (R38). Safe: no such request can reach a bank. -/
  | reservoirAddress
deriving DecidableEq, Repr

/-- Why a step is refused. -/
inductive Refusal where
  /-- Raised by the arm of a command that has no meaning yet. Safe: the machine stops. -/
  | notModelled (mnemonic : String)
deriving DecidableEq, Repr

/-- The state of the block. -/
structure State where
  pending  : List Instr
  now      : Nat
  fv       : Nat
  part     : Part
  mem      : Mem
  rsv      : Rsv
  sc       : Sc
  dram     : List DramChannel
  islands  : List Island
  clusters : List Cluster
  fronts   : List FrontEnd
  arrays   : List Array
  copies   : List CopyEngine
  nsRestarts : BitVec 16
  nsMissed : BitVec 16
  sluice   : Sluice
  pipes    : List Pipe
  camera   : Camera
  funs     : List Fun
  ctxs     : List Ctx
  queues   : List Queue
  jobs     : List Job
  nextJob  : Nat
  hgPackets : Word
  /-- The function whose turn comes next, and the queue whose turn goes on (R264). -/
  hgNext    : Nat
  hgServing : Option (Nat × Nat)
  backlog  : List Entry
  hgCache  : List RangeCacheEntry
  hgEpoch  : BitVec 8
  flight   : List Access
  levee    : Levee
  procs    : List Proc
  log      : List LogSector
  logWait  : List (BitVec 8 × List Byte)
  weir     : Weir
  aon      : Aon
  pcie     : Pcie
  resets   : List Reset
  out      : List Msg
deriving DecidableEq, Repr


/-! The state right after a first power-on: VAON_1V8 applied and AON_RST_N still low (R400, step 1). -/

/-- A Heith-free engine core: empty ring, no holder, counters 0 (R376, R316). -/
def resetEngine : EngineCore :=
  { ring := [], holder := none, heldSince := 0, busy := false, sw := none, retired := 0,
    retiredBy := [0, 0, 0, 0], work := 0, cache := [], epoch := 0, armed := false, liveWrite := false }

/-- A cluster out of reset: no group, no kernel (R104). -/
def resetCluster : Cluster :=
  { core := resetEngine, run := none, stopJob := none, wgs := [], groups := [], l1 := [], tiles := [], tileMem := [],
    slice := [], buf := [], free := 1024 }

/-- A front end out of reset: FE_CFG has HYST_EN and STATS_WRITE set (R139). -/
def resetFront : FrontEnd :=
  { core := resetEngine, job := none, cfg := 3, shadow := 3, writes := [], direct := false, passes := 0, flushes := 0,
    directs := 0 }

/-- An array out of reset: NS_CFG has its three low bits set (R171). -/
def resetArray : Array :=
  { core := resetEngine, layer := none, grant := none, step := 0, buf := [], kept := none, cfg := 7, shadow := 7, writes := [], layers := 0 }

/-- A copy engine out of reset (R318). -/
def resetCopy : CopyEngine := { core := resetEngine, job := none, chunk := none, dest := [], orphan := none }

/-- The default sluice table (R184). -/
def defaultTable (cl : BitVec 48) (ns : BitVec 9) : Table :=
  { lock := 0, pipe := 0, port := 0, vc := 0, period := 1000, shares := [0, 0, 0, 0], quantum := 100, poll := 2,
    slots := [{ start := 0, length := 1000, cls := 2, trigger := 0, clMask := cl, nsMask := ns, ceMask := 15,
                rsvShare := 0, ctx := 0, tenant := 0, pipe := 0, port := 0, vc := 0, limit := 0 }] }

/-- A slot at the start of a round (R179). -/
def resetSlotRun : SlotRun :=
  { opened := false, isOpen := false, lapsed := false, openedAt := 0, owned := false, denied := false }

/-- The Sluice block after a reset of its island at a time: its first round begins then (R178, R184, R200). -/
def resetSluice (cl : BitVec 48) (ns : BitVec 9) (now : Nat) : Sluice :=
  { active := defaultTable cl ns, shadow := defaultTable cl ns, armed := none, owners := [], isDefault := true,
    runs := [resetSlotRun], boundary := now, lockLost := false, walker := false, events := [], rounds := 0, lastUs := 0, evictions := 0,
    switches := 0, yields := 0, lapsed := 0, deferred := [], reports := [], ready := [], heldUs := [], contended := [],
    rankCl := [], rankNs := [] }

/-- A disabled layer (R205). -/
def resetLayer : Layer :=
  { addr := 0, tst := 0, format := 0, enable := false, flatEn := false, blend := 0, flipX := false, flipY := false,
    surfW := 0, surfH := 0, cropX := 0, cropY := 0, cropW := 0, cropH := 0, dstX := 0, dstY := 0, dstW := 0, dstH := 0,
    alpha := 0, key := none }

/-- A disabled protected layer (R216). -/
def resetProt : ProtDesc :=
  { enable := false, format := 0, x := 0, y := 0, w := 0, h := 0, crc := 0, content := 0, fallback := 0, fbCrc := 0,
    colour := 0, origin := none }

/-- The SHADOW fields of a pipe at their reset values (R229). -/
def resetPipeCfg : PipeCfg :=
  { enable := false, timingH := 0x031F027F, timingV := 0x020C01DF, sync := 0x0A45F010, pclk := 0x00006257, owner := 0,
    bg := 0, flatCfg := 0x00040000, layers := List.replicate 8 resetLayer, prot := resetProt }

/-- A display pipe out of reset (R229). -/
def resetPipe : Pipe :=
  { shadow := resetPipeCfg, applied := resetPipeCfg, writes := [], armed := false, waiters := [], liveWrite := false,
    out := 0x200, link := 0x10, cfgBad := false, noRoom := false, withdrawn := false, withdraw := [],
    shadowGone := false, underrun := false, underruns := 0, readUe := 0, frames := 0, ages := List.replicate 8 0, flatValid := false,
    flatRun := 0, flatWrite := none, flatDone := false, flatTags := false, protState := .off, protNew := false, mismatches := 0, lastCrc := 0,
    hpd := false, hpdIrq := false, trained := false, trainFail := false, training := false, auxCmd := 0,
    auxBusy := false, auxResult := 0, auxData := [0, 0, 0, 0], cache := [], gone := [], epoch := 0 }

/-- A disabled camera descriptor (R224). -/
def resetCamDesc : CamDesc :=
  { dt := 0, enable := false, dropBad := false, out := 0, decX := 0, decY := 0, cropX := 0, cropY := 0, cropW := 0,
    cropH := 0, stride := 0 }

/-- A camera channel out of reset (R223, R228). -/
def resetChannel : Channel :=
  { shadow := resetCamDesc, applied := resetCamDesc, shadowBind := none, appliedBind := none, writes := [],
    armed := false, waiters := [], frameNo := 0, nextBuf := 0, held := [], removing := false, gone := [],
    cur := none, done := [] }

/-- A CSI-2 receiver out of reset (R230). -/
def resetPort : Port :=
  { cfg := 0x5DC0, owner := 0, running := false, hdrErr := 0, crcErr := 0, badDt := 0, noBuf := 0, deskew := 0,
    chans := List.replicate 16 resetChannel }

/-- The camera front end out of reset (R230). -/
def resetCamera : Camera :=
  { ports := List.replicate 6 resetPort, liveWrite := false, cache := [], epoch := 0 }

/-- A function out of a power-on reset: BOOTING, every register at its reset value (R256, R285, R395, R243, R234, R412). -/
def resetFun : Fun :=
  { st := .booting, liveWrite := false, leveeChanged := false, aperture2 := 0, bar2Wait := [],
    dramWin := [(0, 0), (0, 0), (0, 0), (0, 0)], rsvMask := 0, badAccess := 0, denied := 0, unsupported := 0,
    poisonSent := 0, mboxCmd := List.replicate 20 0, mboxReply := List.replicate 8 0, mboxDone := false,
    mboxBusy := false, mboxServing := false, mboxHeld := false, mboxNext := false, dbDropped := 0, evDropped := 0, overflowed := false, fifo := [], pendingMap := [],
    service := .startup, telemCfg := 0x64, telemLo := 0, telemHi := 0, telemBad := false, telemSeq := 0, sample := [],
    dumpRegions := List.replicate 8 0, msixEnable := false, msixMaskAll := false, msix := [], pba := [], vote := 0,
    d3hot := false, bar2Log2 := 28, cfgSpace := [], timeoutUs := 50000, noTimeout := false, pme := false, aerUncorr := 0,
    aerCorr := 0, aerMask := 0x00400000, aerSeverity := 0x00462030, aerCorrMask := 0xE000, aerHeader := [], doeReq := none,
    doeError := false, doeRsp := [], spdmVca := [], spdmCerts := [], spdmMeas := [], cumEvict := 0, cumFaults := 0,
    cumYields := 0, cumResets := 0, clusterUs := 0, arrayUs := 0, copyUs := 0, rsvBytes := 0, dramBytes := 0,
    hostBytes := 0 }

/-- A system cache slice after power-on: empty, every way group powered (R70). -/
def resetSlice : Slice :=
  { lines := [], trackers := [], pf := [], coal := [], stalled := [], misses := [], waiting := [], evicting := [], passing := [],
    victims := [], ways := 0xF, cleaning := none }

/-- A DRAM channel after power-on: refresh at the normal rate, nothing due (R67, R68). -/
def resetDram : DramChannel :=
  { refreshRate := 1, refreshes := 0, allBank := 0, rfms := 0, selfRefresh := false, retraining := false, softPending := false, hardPending := false, softSince := 0,
    waiting := [] }

/-- The 98 islands with their nominal clocks in kHz (R13). -/
def islandTable : List (Nat × Nat × Nat) :=
  [(0x00, 48, 1900000), (0x30, 9, 1500000), (0x40, 8, 1600000), (0x48, 4, 2000000), (0x50, 4, 1900000),
   (0x58, 8, 1200000), (0x60, 1, 1000000), (0x61, 1, 1000000), (0x62, 1, 800000), (0x63, 1, 800000),
   (0x64, 1, 800000), (0x65, 1, 800000), (0x68, 4, 1000000), (0x6C, 1, 1000000), (0x70, 1, 1000000),
   (0x71, 4, 1200000), (0x7F, 1, 100000)]

/-- The frequency of point k in kHz in a plan made at manufacture (R322, R323). Clusters, front ends and arrays follow
the table of R323; the points between 0 and 7 of the other adjustable islands lie evenly between the two the spec gives
(log entry 5). -/
def planFreq (id nominal k : Nat) : Nat :=
  if id < 0x30 ∨ (0x50 ≤ id ∧ id < 0x54) then
    [950000, 1050000, 1150000, 1300000, 1450000, 1600000, 1750000, 1900000].getD k 0
  else if id < 0x39 then [750000, 830000, 910000, 1030000, 1140000, 1260000, 1380000, 1500000].getD k 0
  else if id < 0x50 ∨ (0x71 ≤ id ∧ id < 0x75) then nominal / 2 + nominal * k / 14
  else nominal

/-- The margin plan of an island at manufacture. The voltages in mV and the slack are the model's (log entry 5). -/
def factoryPlan (id nominal : Nat) : List PlanPoint :=
  [0, 1, 2, 3, 4, 5, 6, 7].map fun k =>
    { freqKHz := planFreq id nominal k, vMax := 500 + 50 * k, vMin := 450 + 50 * k, slack := 0 }

/-- An island after power-on, held in reset (R400): counter 0, point 7, thermal cap 7. -/
def resetIsland (id nominal : Nat) : Island :=
  { id := id, counter := 0, freqKHz := nominal, point := 7, thermCap := 7, changes := 0, a2 := false, off := false,
    inReset := !(id == 0x7F), drooped := false, mv := 850, fmax0 := nominal, fmax := nominal,
    plan := factoryPlan id nominal }

/-- Every island after power-on. -/
def resetIslands : List Island :=
  islandTable.flatMap fun e => (List.range e.2.1).map fun i => resetIsland (e.1 + i) e.2.2

/-- The Reservoir's registers at their reset values (R70). -/
def resetRsv : Rsv :=
  { liveWrite := false, scrubCfg := 0x1040003C, doublings := 0, passCount := 0, ceCount := 0, ueCount := 0,
    logAddr := 0, logSyn := 0, groupAlert := 0, retained := 0xFF, lastLoss := false, s1Pass := false, active := false,
    line := 0, ce := 0, raised := false, ceThis := [], cePrev := [], outBank := List.replicate 8 8 }

/-- The system cache and DRAM registers at their reset values (R70). -/
def resetSc : Sc :=
  { liveWrite := false, mode := 6, patrolCfg := 0x18, patrolAt := 0, dramCe := 0, dramUe := 0, linkEcc := 0, array := 0,
    dramLog := 0, retrain := 0, slices := List.replicate 16 resetSlice }

/-- The PCIe island with its link down (R257). -/
def resetPcie : Pcie :=
  { liveWrite := false, linkUp := false, cfg := 0xC6, rate := 0, width := 0, l0pWidth := 0, pm := 0, recoveries := 0,
    fec := 0, replays := 0, reqs := [], nextTag := 0, held := [] }

/-- An image of the part's factory firmware: it verifies (log entry 7). -/
def factoryImage (p : Nat) : FwImage :=
  { formatOk := true, proc := p, handoverVer := 1, handoverMin := 1, svn := 0, keySlot := 0, revoke := 0, release := 1,
    keyHash := [1], signatureOk := true, digestOk := true, iramDigest := [BitVec.ofNat 8 p],
    digest := [BitVec.ofNat 8 p] }

/-- A firmware processor that has not been loaded (R374: UP 0). -/
def resetProc : Proc :=
  { up := false, cached := false, paused := false, newImage := false, restarts := 0, times := [], downSince := 0, image := none,
    iramDigest := [] }

/-- The Levee block before the first boot (R374, R360, R362; the part's OTP and flash: log entry 7). -/
def resetLevee : Levee :=
  { protMask := 0, doeOrder := [], otpKeys := [some [1], none, none], otpRevoked := 0, otpSvn := 0,
    slotA := (List.range 4).map factoryImage, slotB := (List.range 4).map factoryImage, recordSeq := 0,
    activeSlot := false, staged := false, staging := none, activation := .none, nextProc := 0, actOrigin := none,
    actDeferred := false, crashed := false, failReason := 0, backOrigin := none, bootFail := 0, fallback := false,
    noImage := false, cfgBad := false, wakeFail := false }

/-- A sector of a blank flash (R392, R408). -/
def blankSector : LogSector := { erases := 0, seq := 0, valid := false, bad := false, entries := [] }

/-- The Weir block at its reset values (R357); the ageing state of a new part is 0 (log entry 5). -/
def resetWeir : Weir :=
  { liveWrite := false, pwrLimit := 0x0F0, thermCfg := 0x786E64, cfg := 0x70032, ageSel := 0, cap := 7, below := 0,
    over110 := 0, capAtStart := 7, powerEmerg := false, thermEmerg := false, trip := false, alertLow := false,
    alertHighAt := 0, okWindows := 0, coolSince := none, temps := List.replicate 64 0, lastMw := 0, window := [],
    belowNominal := false, fixedLow := false, planVersion := 0, hours := 0, sinceReplan := 0, replans := [],
    retryReplan := false, powerEvents := 0, thermEvents := 0, trips := 0, droops := 0, clamped := false,
    scIdle := false, sample := [] }

/-- The always-on domain and the control pins at a first power-on: AON_RST_N low, PERST# low, no rails (R358, R400). -/
def resetAon : Aon :=
  { liveWrite := false, ldoLp := false, lpPeakMa := 0, wakeSrc := 0, cause := 0, i3cCfg := 0x35A,
    s3Cfg := 0x14, saveValid := false, railTimeout := false, s3Wakes := 0, mode := .off, retain := 0, dramKeep := false,
    wakePending := none, save := none, bootPending := false, aonRst := true, perst := true, corePgood := false,
    corePwrReq := false, memPwrEn := false, thermN := true, xtalStable := false, sysclk := false, vaon := true,
    i3cData := [], i3cAck := false, i2c := false, railSince := 0 }

/-- A part and a board (log entry 4): clusters 0 to 43 and arrays 0 to 7 enabled, factory spare bank 8 in each group,
stepping A0, 32 GiB of DRAM at 9600 MT/s without inline ECC; link ECC is on, as it is at every supported rate (R63). -/
def resetPart : Part :=
  { clEnable := 0x0FFFFFFFFFFF, nsEnable := 0xFF, spare := List.replicate 8 8, step := 0, dramGib := 32,
    inlineEcc := false, linkEcc := true, rfm := false, rateMts := 9600, softLimit := 50, hardLimit := 100 }

/-- The machine right after a first power-on (R400, step 1): AON_RST_N is low, every island but the always-on one is
held in reset, no processor runs, every function is BOOTING, memory lists nothing, and no command waits. -/
def State.reset : State :=
  { pending := [], now := 0, fv := 0, part := resetPart,
    mem := { dram := [], rsv := [], bus := [], rsvUe := [], dramUe := [] },
    rsv := resetRsv, sc := resetSc, dram := List.replicate 8 resetDram, islands := resetIslands,
    clusters := List.replicate 48 resetCluster, fronts := List.replicate 4 resetFront,
    arrays := List.replicate 9 resetArray, copies := List.replicate 4 resetCopy, nsRestarts := 0, nsMissed := 0,
    sluice := resetSluice resetPart.clEnable resetPart.nsEnable 0, pipes := List.replicate 4 resetPipe,
    camera := resetCamera, funs := List.replicate 4 resetFun, ctxs := [], queues := [], jobs := [], nextJob := 0,
    hgPackets := 0, hgNext := 0, hgServing := none, backlog := [], hgCache := [], hgEpoch := 0, flight := [], levee := resetLevee,
    procs := List.replicate 4 resetProc, log := List.replicate 190 blankSector, logWait := [], weir := resetWeir, aon := resetAon, pcie := resetPcie,
    resets := [], out := [] }

end Sys2Proof.Machine
end

