-- ==== Sys2Proof/Machine/Mem.lean ====
section
/-! DEFINITION. Memory: canonical lists of cells, and the three memories of State with the 64-bit words that hold an
uncorrectable error (R43, R44, R65). What an unlisted byte reads as is 0 (log entry 2). -/

namespace Sys2Proof.Machine

/-- What a byte that no cell lists reads as: the Reservoir is zeroed (R48); for DRAM and for memory across the link
the value is the model's (log entry 2). -/
def emptyByte : Byte := 0

/-- The canonical form: addresses strictly rising from a bound, no cell equal to the empty byte. -/
def Memory.wfFrom : Nat → List Host.Cell → Bool
  | _, [] => true
  | lo, c :: cs => decide (lo ≤ c.1) && !decide (c.2 = emptyByte) && Memory.wfFrom (c.1 + 1) cs

/-- The canonical form of a memory. -/
def Memory.wf (m : Memory) : Bool := Memory.wfFrom 0 m

/-- One byte. -/
def readByte : List Host.Cell → Nat → Byte
  | [], _ => emptyByte
  | c :: cs, a => if a < c.1 then emptyByte else if a = c.1 then c.2 else readByte cs a

/-- One byte written; the canonical form is kept. -/
def writeByte (a : Nat) (b : Byte) : List Host.Cell → List Host.Cell
  | [] => if b = emptyByte then [] else [(a, b)]
  | c :: cs =>
    if a < c.1 then (if b = emptyByte then c :: cs else (a, b) :: c :: cs)
    else if a = c.1 then (if b = emptyByte then cs else (a, b) :: cs)
    else c :: writeByte a b cs

/-- n bytes from an address, by a walk that skips cells below it once. -/
def readFrom : List Host.Cell → Nat → Nat → List Byte
  | _, _, 0 => []
  | m, a, n + 1 => readByte m a :: readFrom m (a + 1) n

/-- The cells at or above an address. -/
def cellsFrom (a : Nat) : List Host.Cell → List Host.Cell
  | [] => []
  | c :: cs => if c.1 < a then cellsFrom a cs else c :: cs

/-- n bytes from an address. -/
def readBytes (m : Memory) (a n : Nat) : List Byte := readFrom (cellsFrom a m) a n

/-- The cells below an address. -/
def cellsBelow (a : Nat) : List Host.Cell → List Host.Cell
  | [] => []
  | c :: cs => if c.1 < a then c :: cellsBelow a cs else []

/-- The cells of a span of bytes: those that differ from the empty byte. -/
def spanCells : Nat → List Byte → List Host.Cell
  | _, [] => []
  | a, b :: bs => if b = emptyByte then spanCells (a + 1) bs else (a, b) :: spanCells (a + 1) bs

/-- Bytes written from an address on; the canonical form is kept. -/
def writeBytes (a : Nat) (bs : List Byte) (m : List Host.Cell) : List Host.Cell :=
  cellsBelow a m ++ (spanCells a bs ++ cellsFrom (a + bs.length) m)

/-- Bytes written where their enable is set. -/
def writeMasked : Nat → List (Byte × Bool) → List Host.Cell → List Host.Cell
  | _, [], m => m
  | a, (b, e) :: bs, m => writeMasked (a + 1) bs (if e then writeByte a b m else m)

/-- A span emptied: every byte of it reads as the empty byte afterwards. -/
def clearSpan (a n : Nat) (m : Memory) : Memory := m.filter (fun c => decide (c.1 < a) || decide (a + n ≤ c.1))

/-- A little-endian number of n bytes. -/
def readLE (m : Memory) (a n : Nat) : Nat := ofLE (readBytes m a n)

/-- A little-endian number of n bytes written. -/
def writeLE (a n v : Nat) (m : Memory) : Memory := writeBytes a (toLE n v) m

/-- The 64-bit word that holds a byte. -/
def wordBase (a : Nat) : Nat := a / 8 * 8

/-- The words of a list that a span touches. -/
def wordsIn (ws : List Nat) (a n : Nat) : List Nat := ws.filter (fun w => decide (w < a + n) && decide (a < w + 8))

/-- The words of a list that a span covers whole: a write of a whole 64-bit word clears its error (R44). -/
def clearWhole (ws : List Nat) (a n : Nat) : List Nat :=
  ws.filter (fun w => !(decide (a ≤ w) && decide (w + 8 ≤ a + n)))

/-- A word added to a list of words, once. -/
def addWord (w : Nat) (ws : List Nat) : List Nat := if ws.contains w then ws else insertBy id w ws

/-- The memory of a target. HOST and PEER are the device's view across the link. -/
def Mem.of (m : Mem) : Target → Memory
  | .dram => m.dram
  | .reservoir => m.rsv
  | .host => m.bus
  | .peer => m.bus

/-- The memory of a target replaced. -/
def Mem.set (m : Mem) (t : Target) (v : Memory) : Mem :=
  match t with
  | .dram => { m with dram := v }
  | .reservoir => { m with rsv := v }
  | .host => { m with bus := v }
  | .peer => { m with bus := v }

/-- The canonical form of the three memories. -/
def Mem.wf (m : Mem) : Bool := Memory.wf m.dram && Memory.wf m.rsv && Memory.wf m.bus

/-- The words of a target that hold an uncorrectable error. -/
def Mem.ue (m : Mem) : Target → List Nat
  | .dram => m.dramUe
  | .reservoir => m.rsvUe
  | .host => []
  | .peer => []

/-- The error words of a target replaced. -/
def Mem.setUe (m : Mem) (t : Target) (v : List Nat) : Mem :=
  match t with
  | .dram => { m with dramUe := v }
  | .reservoir => { m with rsvUe := v }
  | .host => m
  | .peer => m

/-- Whether a span of a target holds an uncorrectable error: the read returns poisoned data (R43, R65). -/
def Mem.poisoned (m : Mem) (t : Target) (a n : Nat) : Bool := !(wordsIn (m.ue t) a n).isEmpty

/-- The first error word of a span, if any. -/
def Mem.firstUe (m : Mem) (t : Target) (a n : Nat) : Option Nat := (wordsIn (m.ue t) a n).head?

/-- Whether a write may be made: a write of part of a 64-bit word that holds an uncorrectable error is not made (R44);
a write of whole words clears their errors. -/
def Mem.writable (m : Mem) (t : Target) (a n : Nat) : Bool := (wordsIn (clearWhole (m.ue t) a n) a n).isEmpty

/-- A write of bytes to a target: errors of whole words are cleared (R44). -/
def Mem.write (m : Mem) (t : Target) (a : Nat) (bs : List Byte) : Mem :=
  (m.set t (writeBytes a bs (m.of t))).setUe t (clearWhole (m.ue t) a bs.length)

/-- A read of bytes from a target. -/
def Mem.read (m : Mem) (t : Target) (a n : Nat) : List Byte := readBytes (m.of t) a n

/-- A read of a little-endian number from a target. -/
def Mem.readLE (m : Mem) (t : Target) (a n : Nat) : Nat := ofLE (m.read t a n)

/-- A span of a target set to zero with valid check bits (R47, R48, R249). -/
def Mem.zero (m : Mem) (t : Target) (a n : Nat) : Mem :=
  (m.set t (clearSpan a n (m.of t))).setUe t ((m.ue t).filter (fun w => !(decide (a ≤ w) && decide (w + 8 ≤ a + n))))

end Sys2Proof.Machine
end

