-- ==== Sys2Proof/Machine/Ops.lean ====
section
/-! DEFINITION. The named operations over the state that every family uses: access to one unit of a kind, the Sluice
timer and the island counters, free values, and the error counters of the memories. -/

namespace Sys2Proof.Machine

/-- The outcome of a command. -/
abbrev Res := Host.Outcome State Fault Refusal

/-! ## One unit of a kind -/

def State.modCluster (c : Nat) (f : Cluster → Cluster) (s : State) : State := { s with clusters := modNth f c s.clusters }
def State.modFront (i : Nat) (f : FrontEnd → FrontEnd) (s : State) : State := { s with fronts := modNth f i s.fronts }
def State.modArray (i : Nat) (f : Array → Array) (s : State) : State := { s with arrays := modNth f i s.arrays }
def State.modCopy (i : Nat) (f : CopyEngine → CopyEngine) (s : State) : State := { s with copies := modNth f i s.copies }
def State.modPipe (p : Nat) (f : Pipe → Pipe) (s : State) : State := { s with pipes := modNth f p s.pipes }
def State.modFun (fn : Nat) (f : Fun → Fun) (s : State) : State := { s with funs := modNth f fn s.funs }
def State.modSlice (i : Nat) (f : Slice → Slice) (s : State) : State :=
  { s with sc := { s.sc with slices := modNth f i s.sc.slices } }
def State.modChannel (ch : Nat) (f : DramChannel → DramChannel) (s : State) : State := { s with dram := modNth f ch s.dram }
def State.modProc (p : Nat) (f : Proc → Proc) (s : State) : State := { s with procs := modNth f p s.procs }
def State.modPort (p : Nat) (f : Port → Port) (s : State) : State :=
  { s with camera := { s.camera with ports := modNth f p s.camera.ports } }
def State.modChan (p v : Nat) (f : Channel → Channel) (s : State) : State :=
  s.modPort p fun t => { t with chans := modNth f v t.chans }
def State.modIsland (id : Nat) (f : Island → Island) (s : State) : State :=
  { s with islands := s.islands.map fun i => if i.id = id then f i else i }
def State.modCtx (k : CtxKey) (f : Ctx → Ctx) (s : State) : State :=
  { s with ctxs := s.ctxs.map fun c => if c.key = k then f c else c }
def State.modQueue (fn q : Nat) (f : Queue → Queue) (s : State) : State :=
  { s with queues := s.queues.map fun u => if u.fn = fn ∧ u.q = q then f u else u }
def State.modJob (id : Nat) (f : Job → Job) (s : State) : State :=
  { s with jobs := s.jobs.map fun j => if j.id = id then f j else j }
def State.modWeir (f : Weir → Weir) (s : State) : State := { s with weir := f s.weir }
def State.modAon (f : Aon → Aon) (s : State) : State := { s with aon := f s.aon }
def State.modRsv (f : Rsv → Rsv) (s : State) : State := { s with rsv := f s.rsv }
def State.modSc (f : Sc → Sc) (s : State) : State := { s with sc := f s.sc }
def State.modSluice (f : Sluice → Sluice) (s : State) : State := { s with sluice := f s.sluice }
def State.modLevee (f : Levee → Levee) (s : State) : State := { s with levee := f s.levee }
def State.modPcie (f : Pcie → Pcie) (s : State) : State := { s with pcie := f s.pcie }
def State.modMem (f : Mem → Mem) (s : State) : State := { s with mem := f s.mem }
def State.say (m : Msg) (s : State) : State := { s with out := m :: s.out }

def State.island? (s : State) (id : Nat) : Option Island := s.islands.find? fun i => i.id == id
def State.ctx? (s : State) (k : CtxKey) : Option Ctx := s.ctxs.find? fun c => decide (c.key = k)
def State.queue? (s : State) (fn q : Nat) : Option Queue := s.queues.find? fun u => u.fn == fn && u.q == q
def State.job? (s : State) (id : Nat) : Option Job := s.jobs.find? fun j => j.id == id

/-- Processors by number (R361): 0 Headgate, 1 Sluice, 2 Weir, 3 Levee. A processor serves while it is loaded, not in a
restart and not paused by a handover (R368, R371, R373). -/
def State.procUp (s : State) (p : Nat) : Bool :=
  match s.procs[p]? with
  | some r => r.up && !r.paused
  | none => false

def State.fnState (s : State) (fn : Nat) : FnState :=
  match s.funs[fn]? with
  | some f => f.st
  | none => .fatal

/-- Every function is FATAL: the device takes nothing and writes nothing (R382). -/
def State.fatal (s : State) : Bool := s.funs.all fun f => decide (f.st = .fatal)

/-- Whether a reset that has not completed lost a context (R379). -/
def State.inReset (s : State) (k : CtxKey) : Bool := s.resets.any fun r => r.lost.contains k

/-! ## Islands -/

/-- The island of a firmware processor (R359). -/
def procIsland (p : Nat) : Nat := 0x62 + p

/-- The island of an engine (R13). -/
def engineIsland : Engine → Nat
  | .cluster i => i
  | .front i => 0x50 + i
  | .array i => 0x30 + i
  | .copy i => 0x71 + i

/-- The island of a requester (R13). -/
def requesterIsland : Requester → Nat
  | .engine e => engineIsland e
  | .pipe p => 0x68 + p
  | .compositor => 0x6C
  | .camera => 0x70
  | .headgate => 0x62
  | .sluice => 0x63
  | .host _ => 0x60

/-- Whether an engine's unit is present and enabled in this part (R25). -/
def State.enabled (s : State) : Engine → Bool
  | .cluster i => decide (i < 48) && s.part.clEnable.toNat.testBit i
  | .front i => decide (i < 4)
  | .array i => decide (i < 9) && s.part.nsEnable.toNat.testBit i
  | .copy i => decide (i < 4)

/-- Whether an ID names an island (R13, R14): a disabled unit's ID names none. -/
def State.islandUsable (s : State) (id : Nat) : Bool :=
  (s.island? id).isSome &&
    (if id < 0x30 then s.enabled (.cluster id) else if id < 0x39 then s.enabled (.array (id - 0x30)) else true)

/-- A compute-die island (R13). -/
def onComputeDie (id : Nat) : Bool := decide (id < 0x39) || (decide (0x50 ≤ id) && decide (id < 0x54))

/-- An island that is powered, or in A2, and out of reset: a dispatch to it is delivered, once it is up (R19). Its clocks
stand still during a trip when it lies on the compute die (R335). -/
def State.islandThere (s : State) (id : Nat) : Bool :=
  match s.island? id with
  | some i => !i.off && !i.inReset && !(s.weir.trip && onComputeDie id)
  | none => false

/-- An island that runs (R20, R331, R335). -/
def State.islandUp (s : State) (id : Nat) : Bool :=
  s.islandThere id && match s.island? id with
    | some i => !i.a2
    | none => false

/-- An island's local cycle counter (R15). -/
def State.count (s : State) (id : Nat) : BitVec 48 :=
  match s.island? id with
  | some i => i.counter
  | none => 0

/-- The enabled clusters in ascending order. -/
def State.clustersOn (s : State) : List Nat := (List.range 48).filter fun i => s.enabled (.cluster i)

/-- The enabled arrays in ascending order. -/
def State.arraysOn (s : State) : List Nat := (List.range 9).filter fun i => s.enabled (.array i)

/-- The 60 engines in the order of R376. -/
def State.engines (s : State) : List Engine :=
  s.clustersOn.map .cluster ++ (List.range 4).map .front ++ s.arraysOn.map .array ++ (List.range 4).map .copy

/-- The engine core of an engine. -/
def State.engine? (s : State) : Engine → Option EngineCore
  | .cluster i => s.clusters[i]?.map (·.core)
  | .front i => s.fronts[i]?.map (·.core)
  | .array i => s.arrays[i]?.map (·.core)
  | .copy i => s.copies[i]?.map (·.core)

/-- The engine core of an engine, changed. -/
def State.modEngine (e : Engine) (f : EngineCore → EngineCore) (s : State) : State :=
  match e with
  | .cluster i => s.modCluster i fun c => { c with core := f c.core }
  | .front i => s.modFront i fun c => { c with core := f c.core }
  | .array i => s.modArray i fun c => { c with core := f c.core }
  | .copy i => s.modCopy i fun c => { c with core := f c.core }

/-- The context that an engine holds. -/
def State.holder (s : State) (e : Engine) : Option CtxKey :=
  match s.engine? e with
  | some c => c.holder
  | none => none

/-! ## Time -/

/-- An island's counter as the Sluice timer goes from one microsecond to a later one, at a frequency in Hz (R15): it holds in
A2, while it is powered off and while it is held in reset. -/
def Island.after (t0 t1 hz : Nat) (i : Island) : Island :=
  if i.a2 || i.off || i.inReset then i
  else { i with counter := i.counter + BitVec.ofNat 48 (t1 * hz / 1000000 - t0 * hz / 1000000) }

/-- The frequency of an island's clock in Hz: in S3 the always-on island runs at 32.768 kHz (R348). -/
def State.clockHz (s : State) (i : Island) : Nat :=
  if i.id = 0x7F ∧ s.aon.ldoLp then 32768 else i.freqKHz * 1000

/-- The Sluice timer moved on, with every island's counter. A value in the past moves nothing. -/
def State.advance (us : Nat) (s : State) : State :=
  if s.now < us then
    { s with now := us
             islands := s.islands.map fun i =>
               if s.weir.trip && onComputeDie i.id then i else i.after s.now us (s.clockHz i) }
  else s

/-! ## Free values -/

/-- A fresh index for the free values: the step reads the counter and moves it on. -/
def State.fresh (s : State) : Nat × State := (s.fv, { s with fv := s.fv + 1 })

/-! ## Usable memory -/

/-- The usable granules of the Reservoir (R26). -/
def State.rsvGranules (s : State) : Nat := 8 * countIf (fun o => o != 0xF) s.rsv.outBank

/-- The usable bytes of the Reservoir (R38). -/
def State.rsvBytes (s : State) : Nat := s.rsvGranules * granuleBytes

/-- The usable bytes of DRAM (R65). -/
def State.dramBytes (s : State) : Nat :=
  let all := s.part.dramGib * 1073741824
  if s.part.inlineEcc then all / 8 * 7 else all

/-- Where a Reservoir address lies: bank group, physical bank, byte offset in the bank (R39). -/
def State.placement (s : State) (a : Nat) : Nat × Nat × Nat :=
  let groups := (List.range 8).filter fun g => s.rsv.outBank.getD g 0xF != 0xF
  let gn := groups.length
  let n := 8 * gn
  let b := a / 4096
  let l := b % n
  let grp := groups.getD (l % gn) 0
  let lb := l / gn
  let o := s.rsv.outBank.getD grp 0
  (grp, (if lb < o then lb else lb + 1), b / n * 4096 + a % 4096)

/-! ## Error counters and logs -/

/-- Whether a new error replaces the logged one (R70): the latest of a class, or an uncorrectable over a correctable. -/
def logReplaces (old : Word) (ue : Bool) : Bool := !(bitOf old.toNat 31) || ue || !(bitOf old.toNat 30)

/-- The Reservoir's record of one word found in error (R43, R70). The syndrome is a free value, non-zero (R415). -/
def State.rsvError (w : Nat) (ue scrub : Bool) (s : State) : State :=
  let (k, s) := s.fresh
  let (grp, bank, _) := s.placement w
  let r := s.rsv
  let r := if ue then { r with ueCount := satInc r.ueCount } else { r with ceCount := satInc r.ceCount }
  let r := if logReplaces r.logAddr ue then
      { r with
        logAddr := BitVec.ofNat 32 (at' 1 31 + at' (b2n ue) 30 + at' (b2n scrub) 29 + w / 8 % 2 ^ 25)
        logSyn := BitVec.ofNat 32 (at' grp 20 + at' bank 16 + (Config.syndrome k % 255 + 1)) }
    else r
  { s with rsv := r }

/-- The channel's record of one DRAM word found in error by inline ECC (R65, R70). -/
def State.dramError (a : Nat) (ue patrol : Bool) (s : State) : State :=
  let c := s.sc
  let c := if ue then { c with dramUe := satInc c.dramUe } else { c with dramCe := satInc c.dramCe }
  let c := if logReplaces c.dramLog ue then
      { c with dramLog := BitVec.ofNat 32 (at' 1 31 + at' (b2n ue) 30 + at' (b2n patrol) 29 + a / 128 % 2 ^ 29) }
    else c
  { s with sc := c }

/-- A read found a word with an uncorrectable error: the memory that holds it counts and logs it. -/
def State.ueFound (t : Target) (w : Nat) (s : State) : State :=
  match t with
  | .reservoir => s.rsvError w true false
  | .dram => s.dramError w true false
  | .host => s
  | .peer => s

/-- Errors that the check of an access found: a correctable one is counted, logged and corrected, in a word that holds no
uncorrectable one; an uncorrectable one marks the word (it is counted when the read that meets it returns poison). An error of
three or more bits counts as what the check reported it to be (R415; log entry 107). -/
def State.takeHits (t : Target) (hits : List EccHit) (s : State) : State :=
  runAll (fun (h : EccHit) s =>
    let w := wordBase h.addr
    if h.uncorrectable then s.modMem fun m => m.setUe t (addWord w (m.ue t))
    else if (s.mem.ue t).contains w then s
    else match t with
      | .reservoir => s.rsvError w false false
      | .dram => s.dramError w false false
      | .host => s
      | .peer => s) hits s

/-! ## Memory as an engine reaches it -/

/-- The place in State's one memory across the link of a bus address of a function: a function's requester ID has its own bus
addresses (R232; log entry 151). -/
def busPlace (fn : Nat) (t : Target) (a : Nat) : Nat :=
  match t with
  | .dram => a
  | .reservoir => a
  | .host => fn * 2 ^ 64 + a % 2 ^ 64
  | .peer => fn * 2 ^ 64 + a % 2 ^ 64

/-- What a function's configuration space was last given at the place of a register. -/
def Fun.cfgLast (i : Nat) (f : Fun) : Option Nat := (f.cfgSpace.find? fun x => x.1 == Config.cfgPlace i).map fun x => x.2.toNat

/-- The Max_Payload_Size of a function: 128, 256 or 512 bytes (R231; log entry 148). -/
def Fun.maxPayload (f : Fun) : Nat := 128 * 2 ^ min 2 ((f.cfgLast 6).elim 0 fun v => fld v 7 5)

/-- The Max_Read_Request_Size of a function: up to 4,096 bytes (R231; log entry 148). -/
def Fun.maxRead (f : Fun) : Nat := 128 * 2 ^ min 5 ((f.cfgLast 6).elim 2 fun v => fld v 14 12)

/-- How many non-posted requests of a function may be outstanding: 1,024, fewer with 8-bit tags (R231; log entry 148). -/
def Fun.tagLimit (f : Fun) : Nat :=
  if (f.cfgLast 2).any (fun v => bitOf v 12) || (f.cfgLast 7).any (fun v => bitOf v 2) then 1024 else 256

/-- A span cut into the requests of the link: at most `cap` bytes each, without the lines that the cache answers for. -/
def linkParts (cap : Nat) (held : Nat → Nat → Bool) : Nat → Nat → Nat → List (Nat × Nat)
  | 0, _, _ => []
  | fuel + 1, a, n =>
    if n = 0 then []
    else
      let k := min n (128 - a % 128)
      let rest := linkParts cap held fuel (a + k) (n - k)
      if held a k then rest
      else
        match rest with
        | (b, m) :: more => if b = a + k ∧ b % cap ≠ 0 then (a, k + m) :: more else (a, k) :: rest
        | [] => [(a, k)]

/-- Whether a line of the bytes from an address on is in a slice, whatever it holds. -/
def State.lineThere (s : State) (a _n : Nat) : Bool :=
  s.sc.slices.any fun x => (x.lines ++ x.victims).any (fun l => decide (l.tgt = .host) && l.line == a / 128) ||
    x.coal.any fun b => decide (b.tgt = .host) && b.line == a / 128

/-- Whether a slice holds the bytes of a span of one line. -/
def State.lineHolds (s : State) (a n : Nat) : Bool :=
  s.sc.slices.any fun x => (x.lines ++ x.victims).any fun l =>
    decide (l.tgt = .host) && l.line == a / 128 && (List.range n).all fun i => l.valid.toNat.testBit (a % 128 + i)

/-- The posted writes of a span across the link, but for what the cache takes: they carry the requester ID of the function (R232). -/
def State.postBy (held : Nat → Nat → Bool) (bs : List Byte) (a : Nat) (s : State) : State :=
  let fn := a / 2 ^ 64
  let cap := (s.funs[fn]?).elim 128 Fun.maxPayload
  runAll (fun (p : Nat × Nat) (s : State) => s.say (.write fn (p.1 % 2 ^ 64) ((bs.drop (p.1 - a)).take p.2) false))
    (linkParts cap held (bs.length / 128 + 2) a bs.length) s

/-- The posted writes of a span across the link of which no line is in the cache. -/
def State.post (bs : List Byte) (a : Nat) (s : State) : State := s.postBy s.lineThere bs a

/-- The read requests of a span across the link that the cache does not answer (R232). -/
def State.ask (a n : Nat) (s : State) : State :=
  let fn := a / 2 ^ 64
  let cap := (s.funs[fn]?).elim 128 Fun.maxRead
  runAll (fun (p : Nat × Nat) (s : State) => s.say (.fetch fn (p.1 % 2 ^ 64) p.2)) (linkParts cap s.lineHolds (n / 128 + 2) a n) s

/-- The read requests of a span of a target: of HOST and PEER alone. -/
def State.askAt (t : Target) (a n : Nat) (s : State) : State :=
  match t with
  | .dram => s
  | .reservoir => s
  | .host => s.ask a n
  | .peer => s.ask a n

/-- Bytes of a target. -/
def State.rd (s : State) (t : Target) (a n : Nat) : List Byte := s.mem.read t a n

/-- Every word of a span that holds an uncorrectable error is counted and logged by the memory that read it (R43, R65). -/
def State.countUes (t : Target) (a n : Nat) (s : State) : State :=
  runAll (fun (w : Nat) (s : State) => s.ueFound t w) (wordsIn (s.mem.ue t) a n) s

/-- Whether a poisoned line of a slice lies in a span (R65). -/
def Slice.poisons (x : Slice) (t : Target) (a n : Nat) : Bool :=
  (x.lines ++ x.victims).any fun l => l.poison && decide (l.tgt = t) && spansMeet a n (128 * l.line) 128

/-- Whether a read of a span returns poison: a word of the memory holds an uncorrectable error, or a line of the system cache is
held poisoned (R43, R65). -/
def State.poisoned (s : State) (t : Target) (a n : Nat) : Bool :=
  s.mem.poisoned t a n || s.sc.slices.any fun x => x.poisons t a n

/-- The first place of a span at which a read meets poison, if any; the words in error are counted and logged. -/
def State.checkUe (t : Target) (a n : Nat) (s : State) : Option Nat × State :=
  (if s.poisoned t a n then some ((s.mem.firstUe t a n).getD a) else none, s.countUes t a n)

/-- The bytes of a 128-byte line that a span covers. -/
def spanMask (line a n : Nat) : BitVec 128 :=
  let lo := min 128 (a - 128 * line)
  let hi := min 128 (a + n - 128 * line)
  BitVec.ofNat 128 (2 ^ hi - 2 ^ lo)

/-- A store's bytes in a line of the cache: they become valid and dirty; a poisoned line stays so until every byte of it has
been overwritten (R51, R65). -/
def ScLine.stored (mask : BitVec 128) (l : ScLine) : ScLine :=
  let fresh := if l.poison then l.fresh ||| mask else 0
  if fresh = BitVec.allOnes 128 then { l with dirty := true, valid := l.valid ||| mask, poison := false, fresh := 0 }
  else { l with dirty := true, valid := l.valid ||| mask, fresh := fresh }

/-- A slice after a write of a span of a target: the lines that are present take it, in the sets, in the victim cache and in the
coalescing buffer (R50, R53, R57). -/
def Slice.touched (t : Target) (a n : Nat) (x : Slice) : Slice :=
  let f := fun (l : ScLine) => if l.tgt = t ∧ spansMeet a n (128 * l.line) 128 then l.stored (spanMask l.line a n) else l
  { x with
    lines := x.lines.map f
    victims := x.victims.map f
    coal := x.coal.map fun b =>
      if b.tgt = t ∧ spansMeet a n (128 * b.line) 128 then { b with valid := b.valid ||| spanMask b.line a n } else b }

/-- The system cache after a write of a span of a target: one address has one content inside the device (R50; log entry 6). -/
def State.touchLines (t : Target) (a n : Nat) (s : State) : State :=
  { s with sc := { s.sc with slices := s.sc.slices.map (Slice.touched t a n) } }

/-- The enables of a write to the Reservoir: the bytes of a word that holds an uncorrectable error and is not written
whole are not written (R44). -/
def rsvEnables (bad : List Nat) : Nat → List Byte → List (Byte × Bool)
  | _, [] => []
  | a, b :: bs => (b, !(bad.contains (wordBase a))) :: rsvEnables bad (a + 1) bs

/-- A write of bytes to a target. For the Reservoir, answers the first word whose partial write was not made because it
holds an uncorrectable error (R44); elsewhere every byte is written, an error of a DRAM word stays until the word is
written whole (R65), and a line of the system cache that is present takes the bytes (R50). -/
def State.wr (t : Target) (a : Nat) (bs : List Byte) (s : State) : Option Nat × State :=
  match t with
  | .reservoir =>
    let keep := clearWhole s.mem.rsvUe a bs.length
    let bad := wordsIn keep a bs.length
    match bad with
    | [] => (none, { s with mem := { s.mem with rsv := writeBytes a bs s.mem.rsv, rsvUe := keep } })
    | w :: _ =>
      let s := runAll (fun (x : Nat) (s : State) => s.rsvError x true false) bad s
      (some w, { s with mem := { s.mem with rsv := writeMasked a (rsvEnables bad a bs) s.mem.rsv, rsvUe := keep } })
  | .dram => (none, ({ s with mem := s.mem.write .dram a bs } : State).touchLines .dram a bs.length)
  | .host => (none, (({ s with mem := s.mem.write .host a bs } : State).touchLines .host a bs.length).post bs a)
  | .peer => (none, ({ s with mem := s.mem.write .peer a bs } : State).post bs a)

/-- A write whose failure nobody is told of. -/
def State.wr' (t : Target) (a : Nat) (bs : List Byte) (s : State) : State := (s.wr t a bs).2

/-! ## The DRAM devices (R63) -/

/-- All-bank refresh of every channel, at initialisation and at the entry to self-refresh (R63). -/
def State.refreshAllBanks (s : State) : State := { s with dram := s.dram.map fun c => { c with allBank := c.allBank + 1 } }

/-- The devices begin to refresh themselves, after an all-bank refresh (R63). -/
def State.selfRefresh (s : State) : State :=
  let s := s.refreshAllBanks
  { s with dram := s.dram.map fun c => { c with selfRefresh := true } }

/-- The devices leave self-refresh. -/
def State.refreshResumes (s : State) : State := { s with dram := s.dram.map fun c => { c with selfRefresh := false } }

/-! ## Levee windows and function addresses -/

/-- A window-space offset of a function, translated (R240): its DRAM windows laid end to end, unused ones skipped. -/
def windowAddr : List (Nat × Nat) → Nat → Option Nat
  | [], _ => none
  | (base, count) :: ws, o =>
    if o < count * 67108864 then some (base * 67108864 + o) else windowAddr ws (o - count * 67108864)

/-- Whether a Reservoir granule is in a function's windows and usable (R242). -/
def State.ownsGranule (s : State) (fn g : Nat) : Bool :=
  match s.funs[fn]? with
  | some f => f.rsvMask.toNat.testBit g && decide (g < s.rsvGranules)
  | none => false

/-- Whether a span of DRAM lies wholly in a function's windows (R250). -/
def State.ownsDram (s : State) (fn a n : Nat) : Bool :=
  match s.funs[fn]? with
  | some f => (List.range (n / 67108864 + 2)).all fun k =>
      let b := a / 67108864 + k
      decide (a + n ≤ b * 67108864) || f.dramWin.any fun w => decide (w.1 ≤ b) && decide (b < w.1 + w.2)
  | none => false

/-- Whether a span of the Reservoir lies wholly in a function's windows (R250). -/
def State.ownsRsv (s : State) (fn a n : Nat) : Bool :=
  (List.range (n / granuleBytes + 2)).all fun k =>
    let g := a / granuleBytes + k
    decide (a + n ≤ g * granuleBytes) || s.ownsGranule fn g

/-- Whether a span of the Reservoir touches the protected region (R251). -/
def State.touchesProtected (s : State) (a n : Nat) : Bool :=
  (List.range 64).any fun g => s.levee.protMask.toNat.testBit g && spansMeet a n (g * granuleBytes) granuleBytes

/-- Where byte o of a function address lies (R279); none outside the function's windows. -/
def State.fnAddr (s : State) (fn : Nat) (fa : BitVec 64) (o : Nat) : Option (Target × Nat) :=
  let lo := fa.toNat % 2 ^ 48 + o
  match fld fa.toNat 63 62, s.funs[fn]? with
  | 0, some f => (windowAddr f.dramWin lo).map fun a => (.dram, a)
  | 1, some _ => if s.ownsGranule fn (lo / granuleBytes) then some (.reservoir, lo) else none
  | _, _ => none

/-- Bytes read at a function address. -/
def State.rdFn (s : State) (fn : Nat) (fa : BitVec 64) (o n : Nat) : List Byte :=
  match s.fnAddr fn fa o with
  | some (t, a) => s.rd t a n
  | none => List.replicate n 0

/-- Bytes written at a function address; the span lies in one granule, as every record the device writes does. -/
def State.wrFn (fn : Nat) (fa : BitVec 64) (o : Nat) (bs : List Byte) (s : State) : State :=
  match s.fnAddr fn fa o with
  | some (t, a) => s.wr' t a bs
  | none => s

/-- Whether an area at a function address lies wholly in the function's windows and outside the protected region
(R279); n is the area's size. -/
def State.fnAreaOk (s : State) (fn : Nat) (fa : BitVec 64) (n : Nat) : Bool :=
  let lo := fa.toNat % 2 ^ 48
  (List.range (n / 4096)).all (fun k => (s.fnAddr fn fa (4096 * k)).isSome) &&
    (decide (fld fa.toNat 63 62 ≠ 1) || !(s.touchesProtected lo n))

/-! ## Messages -/

/-- The table entry of an MSI-X vector; every vector is masked after reset (R243, the PCI specification). -/
def Fun.vector (f : Fun) (v : Nat) : MsixEntry :=
  match f.msix.find? fun e => e.vec == v with
  | some e => e
  | none => { vec := v, addr := 0, data := 0, mask := true }

/-- A function in D3hot that has something to tell sets its PME status, and asks for D0 while its PME is enabled (R231; log entry
148). -/
def State.pmEvent (fn : Nat) (s : State) : State :=
  match s.funs[fn]? with
  | none => s
  | some f =>
    if !f.d3hot ∨ f.pme then s
    else
      let s := s.modFun fn fun f => { f with pme := true }
      if (f.cfgLast 0).any fun v => bitOf v 8 then s.say (.pme fn) else s

/-- A message on a vector of a function: sent, or left pending while the vector, the function or D3hot masks it (R243). -/
def State.msix (fn v : Nat) (s : State) : State :=
  match s.funs[fn]? with
  | some f =>
    if !f.msixEnable then s
    else
      let e := f.vector v
      if e.mask || f.msixMaskAll || f.d3hot then
        (s.pmEvent fn).modFun fn fun f => { f with pba := if f.pba.contains v then f.pba else insertBy id v f.pba }
      else s.say (.msix fn v e.addr e.data)
  | none => s

/-- FN_STATUS.STATE changed; every change but the one to FATAL is announced on vector 0 (R243, R382). -/
def State.setFnState (fn : Nat) (st : FnState) (s : State) : State :=
  if s.fnState fn = st then s
  else
    let s := s.modFun fn fun f => { f with st := st }
    if st = .fatal then s else s.msix fn 0

/-- Every function goes to FATAL (R382). -/
def State.allFatal (s : State) : State := { s with funs := s.funs.map fun f => { f with st := .fatal } }

end Sys2Proof.Machine
end

