-- ==== Sys2Proof/Machine/Access.lean ====
section
/-! DEFINITION. Range translation (chapter 11) and the accesses that go through it: the lookup in a range cache, the walk
of the device copy, the split of an access into pieces, epochs, and reads and writes of a translated span. -/

namespace Sys2Proof.Machine

/-! ## Range entries -/

/-- The code of a target (R305). -/
def targetCode : Target → Nat
  | .dram => 0
  | .reservoir => 1
  | .host => 2
  | .peer => 3

/-- The target of a code (R305). -/
def targetOf (c : Nat) : Target :=
  match c % 4 with
  | 0 => .dram
  | 1 => .reservoir
  | 2 => .host
  | _ => .peer

/-- The length of a range in bytes. -/
def RangeEntry.bytes (e : RangeEntry) : Nat := (e.lenM1 + 1) * 65536

/-- Whether a range covers an address. -/
def RangeEntry.covers (e : RangeEntry) (va : Nat) : Bool := decide (e.start ≤ va) && decide (va < e.start + e.bytes)

/-- A range entry read from its 32 bytes (R305). -/
def parseEntry (bs : List Byte) : RangeEntry :=
  let d1 := ofLE ((bs.drop 8).take 8)
  { start := ofLE (bs.take 8) % 2 ^ 48, lenM1 := fld d1 31 0, tgt := targetOf (fld d1 33 32), r := bitOf d1 34,
    w := bitOf d1 35, a := bitOf d1 36, cacheable := bitOf d1 37, stream := bitOf d1 38,
    base := ofLE ((bs.drop 16).take 8), tag := BitVec.ofNat 32 (ofLE ((bs.drop 24).take 4)) }

/-- The 32 bytes of a range entry (R305). -/
def entryBytes (e : RangeEntry) : List Byte :=
  toLE 8 e.start ++
    toLE 8 (e.lenM1 + at' (targetCode e.tgt) 32 + at' (b2n e.r) 34 + at' (b2n e.w) 35 + at' (b2n e.a) 36 +
      at' (b2n e.cacheable) 37 + at' (b2n e.stream) 38) ++
    toLE 8 e.base ++ toLE 4 e.tag.toNat ++ toLE 4 0

/-- The slots of the device copy from slot k on: the ranges in ascending START, then 0xFF to slot m (R307). -/
def slotBytes (rs : List RangeEntry) (k m : Nat) : List Byte :=
  (rs.drop k).flatMap entryBytes ++ List.replicate (32 * (m - rs.length)) 0xFF

/-! ## Range caches -/

/-- The range cache of a requester (R316). The compositor reads through the cache of the pipe that it composes for. -/
def State.rangeCache (s : State) : Requester → List RangeCacheEntry
  | .engine e => match s.engine? e with
    | some c => c.cache
    | none => []
  | .pipe p => match s.pipes[p]? with
    | some u => u.cache
    | none => []
  | .camera => s.camera.cache
  | .compositor => []
  | .headgate => s.hgCache
  | .sluice => s.hgCache
  | .host _ => []

/-- The capacity of a requester's range cache (R316). -/
def cacheSize : Requester → Nat
  | .engine (.cluster _) => 64
  | .engine (.array _) => 128
  | .engine (.copy _) => 256
  | .engine (.front _) => 64
  | .pipe _ => 16
  | .camera => 32
  | .compositor => 0
  | .headgate => 256
  | .sluice => 256
  | .host _ => 0

/-- The range cache of a requester replaced. -/
def State.setRangeCache (who : Requester) (l : List RangeCacheEntry) (s : State) : State :=
  match who with
  | .engine e => s.modEngine e fun c => { c with cache := l }
  | .pipe p => s.modPipe p fun u => { u with cache := l }
  | .camera => { s with camera := { s.camera with cache := l } }
  | .compositor => s
  | .headgate => { s with hgCache := l }
  | .sluice => { s with hgCache := l }
  | .host _ => s

/-- Every requester that keeps a range cache and an epoch (R311, R316). -/
def State.walkers (s : State) : List Requester :=
  s.engines.map .engine ++ (List.range 4).map .pipe ++ [.camera, .headgate]

/-- The translation epoch of a requester (R311). -/
def State.epochOf (s : State) : Requester → BitVec 8
  | .engine e => match s.engine? e with
    | some c => c.epoch
    | none => 0
  | .pipe p => match s.pipes[p]? with
    | some u => u.epoch
    | none => 0
  | .camera => s.camera.epoch
  | .compositor => 0
  | .headgate => s.hgEpoch
  | .sluice => s.hgEpoch
  | .host _ => 0

/-- The epoch of a requester advanced (R312, step 3). -/
def State.bumpEpoch (who : Requester) (s : State) : State :=
  match who with
  | .engine e => s.modEngine e fun c => { c with epoch := c.epoch + 1 }
  | .pipe p => s.modPipe p fun u => { u with epoch := u.epoch + 1 }
  | .camera => { s with camera := { s.camera with epoch := s.camera.epoch + 1 } }
  | .compositor => s
  | .headgate => { s with hgEpoch := s.hgEpoch + 1 }
  | .sluice => { s with hgEpoch := s.hgEpoch + 1 }
  | .host _ => s

/-! ## The walk -/

/-- The 64-bit word at offset 0 of slot i of the device copy (R315). -/
def State.slotWord (s : State) (c : Ctx) (i : Nat) : Nat := ofLE (s.rdFn c.key.fn c.rt (32 * i) 8)

/-- The first word with an uncorrectable error among the bytes of an area of a function address. -/
def State.fnUe (s : State) (fn : Nat) (fa : BitVec 64) (o n : Nat) : Option (Target × Nat) :=
  match s.fnAddr fn fa o with
  | some (t, a) => (s.mem.firstUe t a n).map fun w => (t, w)
  | none => none

/-- The dependent reads of the walk from slot i over the remaining steps (R315); none when a read meets an uncorrectable
error. -/
def walkFrom (c : Ctx) (va : Nat) : List Nat → Nat → State → Option Nat × State
  | [], i, s => (some i, s)
  | step :: rest, i, s =>
    match s.fnUe c.key.fn c.rt (32 * (i + step)) 8 with
    | some (t, w) => (none, s.ueFound t w)
    | none => walkFrom c va rest (if s.slotWord c (i + step) ≤ va then i + step else i) s

/-- The twelve steps of the walk (R315). -/
def walkSteps : List Nat := [2048, 1024, 512, 256, 128, 64, 32, 16, 8, 4, 2, 1]

/-- A lookup that misses in the range cache: the walk over the device copy (R315). -/
def State.walk (c : Ctx) (va : Nat) (s : State) : Except FaultKind RangeEntry × State :=
  match walkFrom c va walkSteps 0 s with
  | (none, s) => (.error .poison, s)
  | (some i, s) =>
    match s.fnUe c.key.fn c.rt (32 * i) 32 with
    | some (t, w) => (.error .poison, s.ueFound t w)
    | none =>
      let e := parseEntry (s.rdFn c.key.fn c.rt (32 * i) 32)
      if va < s.slotWord c i then (.error .noRange, s)
      else if e.bytes ≤ va - e.start then (.error .noRange, s)
      else (.ok e, s)

/-- A lookup by a requester: bits [63:48] must be 0 (R304); then its range cache, whose entries are replaced least recently
used first (R316); then the walk. -/
def State.lookup (who : Requester) (k : CtxKey) (va : Nat) (s : State) : Except FaultKind RangeEntry × State :=
  if 2 ^ 48 ≤ va then (.error .noRange, s)
  else
    let hits := fun (x : RangeCacheEntry) => decide (x.key = k) && x.entry.covers va
    match (s.rangeCache who).find? hits with
    | some x => (.ok x.entry, s.setRangeCache who (x :: dropFirst hits (s.rangeCache who)))
    | none =>
      match s.ctx? k with
      | none => (.error .noRange, s)
      | some c =>
        match s.walk c va with
        | (.error f, s) => (.error f, s)
        | (.ok e, s) => (.ok e, s.setRangeCache who (({ key := k, entry := e } :: s.rangeCache who).take (cacheSize who)))

/-! ## Spans -/

/-- The rights that an access needs (R306). -/
structure Need where
  r : Bool
  w : Bool
  a : Bool
deriving DecidableEq, Repr

def needR : Need := { r := true, w := false, a := false }
def needW : Need := { r := false, w := true, a := false }
/-- Fence signals need W and A (R297). -/
def needWA : Need := { r := false, w := true, a := true }
/-- RMWN needs A; RMW needs R as well (R306). -/
def needA : Need := { r := false, w := false, a := true }
def needRA : Need := { r := true, w := false, a := true }

/-- Whether a range grants what an access needs. -/
def Need.met (n : Need) (e : RangeEntry) : Bool := (!n.r || e.r) && (!n.w || e.w) && (!n.a || e.a)

/-- A part of an access within one range: its target, physical address, virtual address and length. -/
structure Piece where
  tgt       : Target
  pa        : Nat
  va        : Nat
  len       : Nat
  cacheable : Bool
  stream    : Bool
deriving DecidableEq, Repr

/-- A translation's result: its pieces, or the fault with the virtual address at which it arose. -/
abbrev Xlat := Except (FaultKind × Nat) (List Piece)

/-- The translation of one address by a requester: its range, the rights (R306) and the Reservoir's limit (R38). A HOST or PEER
range holds a bus address of the context's function (R232). -/
def State.translate1 (who : Requester) (k : CtxKey) (va : Nat) (need : Need) (s : State) :
    Except FaultKind (RangeEntry × Nat) × State :=
  match s.lookup who k va with
  | (.error f, s) => (.error f, s)
  | (.ok e, s) =>
    if !need.met e then (.error .rights, s)
    else
      let pa := busPlace k.fn e.tgt (e.base + (va - e.start))
      if e.tgt = .reservoir ∧ s.rsvBytes ≤ pa then (.error .reservoirLimit, s) else (.ok (e, pa), s)

/-- The translation of a span, range by range; the fuel bounds the number of ranges, none of which is shorter than
64 KiB. -/
def State.translateFrom (who : Requester) (k : CtxKey) (need : Need) : Nat → Nat → Nat → State → Xlat × State
  | 0, _, _, s => (.ok [], s)
  | fuel + 1, va, len, s =>
    if len = 0 then (.ok [], s)
    else
      match s.translate1 who k va need with
      | (.error f, s) => (.error (f, va), s)
      | (.ok (e, pa), s) =>
        let n := min len (e.start + e.bytes - va)
        let n := if e.tgt = .reservoir then min n (s.rsvBytes - pa) else n
        match s.translateFrom who k need fuel (va + n) (len - n) with
        | (.error f, s) => (.error f, s)
        | (.ok ps, s) =>
          (.ok ({ tgt := e.tgt, pa := pa, va := va, len := n, cacheable := e.cacheable, stream := e.stream } :: ps), s)

/-- The translation of a span. -/
def State.translate (who : Requester) (k : CtxKey) (va len : Nat) (need : Need) (s : State) : Xlat × State :=
  s.translateFrom who k need (len / 65536 + 3) va len

/-- Whether a span translates with the rights an access needs. -/
def State.spanOk (who : Requester) (k : CtxKey) (va len : Nat) (need : Need) (s : State) : Bool × State :=
  match s.translate who k va len need with
  | (.ok _, s) => (true, s)
  | (.error _, s) => (false, s)

/-! ## Accesses -/

/-- An access joins the count of its epoch until it completes (R311). -/
def State.inFlight (who : Requester) (k : CtxKey) (t : Target) (va : Nat) (write : Bool) (s : State) : State :=
  { s with flight := { who := who, epoch := s.epochOf who, tgt := t, va := va, key := k, write := write, tag := none } :: s.flight }

/-- The bytes that a tenant's contexts move are counted for its telemetry (R389). -/
def State.countBytes (fn : Nat) (t : Target) (n : Nat) (s : State) : State :=
  s.modFun fn fun f =>
    match t with
    | .reservoir => { f with rsvBytes := f.rsvBytes + n }
    | .dram => { f with dramBytes := f.dramBytes + n }
    | .host => { f with hostBytes := f.hostBytes + n }
    | .peer => { f with hostBytes := f.hostBytes + n }

/-- An uncorrectable error in a function's AER: its status bit and, for the first, the header (log entry 73). -/
def State.aerStatus (fn bit : Nat) (s : State) : State :=
  let (v, s) := s.fresh
  s.modFun fn fun f =>
    { f with
      aerHeader := if f.aerUncorr = 0 then (List.range 4).map fun i => Config.headerWord (4 * v + i) else f.aerHeader
      aerUncorr := f.aerUncorr ||| BitVec.ofNat 32 (2 ^ bit) }

/-- Whether an uncorrectable error of a function is masked, and whether it is fatal, as host software has programmed. -/
def State.aerMasked (s : State) (fn bit : Nat) : Bool := (s.funs[fn]?).any fun f => f.aerMask.toNat.testBit bit
def State.aerFatal (s : State) (fn bit : Nat) : Bool := (s.funs[fn]?).any fun f => f.aerSeverity.toNat.testBit bit

/-- An error that a function's AER logs as uncorrectable, with the error message that its mask and its severity allow: 1
non-fatal, 2 fatal (R242). -/
def State.aerUncorrectable (fn bit : Nat) (s : State) : State :=
  let s := s.aerStatus fn bit
  if s.aerMasked fn bit then s else s.say (.aer fn bit (if s.aerFatal fn bit then 2 else 1))

/-- Whether an access ended in LINK_ERROR (R412). -/
def linkFailed : AccessEnd → Bool
  | .ok => false
  | .poison => false
  | .targetReset => false
  | .timeout => true
  | .unsupported => true
  | .abort => true
  | .linkDown => true

/-- The fault that a completion of an access brings (R94, R412). -/
def faultOf : AccessEnd → Option FaultKind
  | .ok => none
  | .poison => some .poison
  | .targetReset => some .targetReset
  | .timeout => some .linkError
  | .unsupported => some .linkError
  | .abort => some .linkError
  | .linkDown => some .linkError

/-- AER of the issuing function logs how a request of the device ended (R412; log entry 73). -/
def State.logEnd (fn : Nat) (how : AccessEnd) (s : State) : State :=
  match how with
  | .ok => s
  | .poison => s
  | .targetReset => s
  | .timeout => s.aerUncorrectable fn 14
  | .unsupported => s.aerUncorrectable fn 20
  | .abort => s.aerUncorrectable fn 15
  | .linkDown => s

/-- Whether an access cannot have ended so: with Completion Timeout Disabled no timeout ends it (R412; log entry 150). -/
def State.neverEnds (s : State) (fn : Nat) (how : AccessEnd) : Bool :=
  decide (how = .timeout) && (s.funs[fn]?).any (·.noTimeout)

/-- Whether translated pieces lie across the link. -/
def overLink (ps : List Piece) : Bool := ps.any fun p => decide (p.tgt = .host) || decide (p.tgt = .peer)

/-- A read across the link needs the link (R412). -/
def State.linkFails (s : State) (t : Target) : Bool := (decide (t = .host) || decide (t = .peer)) && !s.pcie.linkUp

/-- The bytes of translated pieces; poison with the virtual address of the failing word, or LINK_ERROR when the link is
down. The owner of an uncorrectable error counts it (R43, R65). -/
def readPieces (fn : Nat) : List Piece → State → Except (FaultKind × Nat) (List Byte) × State
  | [], s => (.ok [], s)
  | p :: ps, s =>
    if s.linkFails p.tgt then (.error (.linkError, p.va), s)
    else
      match s.checkUe p.tgt p.pa p.len with
      | (some w, s) => (.error (.poison, p.va + w - p.pa), s)
      | (none, s) =>
        let bs := s.rd p.tgt p.pa p.len
        match readPieces fn ps ((s.askAt p.tgt p.pa p.len).countBytes fn p.tgt p.len) with
        | (.ok rest, s) => (.ok (bs ++ rest), s)
        | (.error f, s) => (.error f, s)

/-- Bytes written to translated pieces in order. The first partial write that the Reservoir refuses (R44) is answered
with the virtual address of its word; the writes before it stay made. -/
def writePieces (fn : Nat) : List Piece → List Byte → State → Option (FaultKind × Nat) × State
  | [], _, s => (none, s)
  | p :: ps, bs, s =>
    match (s.countBytes fn p.tgt p.len).wr p.tgt p.pa (bs.take p.len) with
    | (some w, s) => (some (.poison, p.va + w - p.pa), s)
    | (none, s) => writePieces fn ps (bs.drop p.len) s

/-- A read of a span in a context, translated and done. -/
def State.readVa (who : Requester) (k : CtxKey) (va len : Nat) (s : State) :
    Except (FaultKind × Nat) (List Byte) × State :=
  match s.translate who k va len needR with
  | (.error f, s) => (.error f, s)
  | (.ok ps, s) => readPieces k.fn ps s

/-- A write of a span in a context, translated and done. -/
def State.writeVa (who : Requester) (k : CtxKey) (va : Nat) (bs : List Byte) (s : State) :
    Option (FaultKind × Nat) × State :=
  match s.translate who k va bs.length needW with
  | (.error f, s) => (some f, s)
  | (.ok ps, s) => writePieces k.fn ps bs s

/-- What an access of an engine ends with: a fault (kind, whether it was a write, address) or none. -/
abbrev Acc := Option (FaultKind × Bool × Nat) × State

/-- Accesses made in turn up to the first that faults. -/
def inTurn {α : Type} (f : α → State → Acc) : List α → State → Acc
  | [], s => (none, s)
  | a :: as, s =>
    match f a s with
    | (some e, s) => (some e, s)
    | (none, s) => inTurn f as s

end Sys2Proof.Machine
end

