-- ==== Sys2Proof/Machine/Reply.lean ====
section
/-! DEFINITION. Status codes, replies and events in status rings and mailboxes (R265 to R273, R283, R284). -/

namespace Sys2Proof.Machine

/-! ## Status codes (R283) -/

def stOk : Nat := 0x0000
def stDeferred : Nat := 0x0001
def stBadOpcode : Nat := 0x0010
def stBadPacket : Nat := 0x0011
def stBadParam : Nat := 0x0012
def stNotPermitted : Nat := 0x0013
def stOutsideLevee : Nat := 0x0014
def stNoResource : Nat := 0x0020
def stTooLarge : Nat := 0x0021
def stContextLost : Nat := 0x0030
def stFaulted : Nat := 0x0031
def stFenceOrder : Nat := 0x0032
def stFenceError : Nat := 0x0033
def stReset : Nat := 0x0040
def stResetEscalated : Nat := 0x0041
def stSchedYield : Nat := 0x0050
def stEmergency : Nat := 0x0060
def stVerifyFail : Nat := 0x0070

/-- The function of a source of packets. -/
def srcFn : Src → Nat
  | .queue fn _ => fn
  | .mailbox fn => fn

/-- The index of a queue as fault records name it (R289): a mailbox packet has none. -/
def srcIndex : Src → Nat
  | .queue _ q => q
  | .mailbox _ => 0x3FFF

/-- Free entries of a queue's status ring (R269). -/
def Queue.free (q : Queue) : Nat := 2 ^ q.statusLog2 - q.unread

/-- The 32 bytes of a status ring entry (R267). -/
def statusBytes (seq : Word) (op : BitVec 8) (status detail ringRead : Nat) (event : Bool) (fval : BitVec 64)
    (island : Nat) (stamp : BitVec 48) (phase : Bool) : List Byte :=
  toLE 4 seq.toNat ++ toLE 4 (op.toNat + at' status 16) ++ toLE 4 detail ++
    toLE 4 (ringRead % 2 ^ 20 + at' (b2n event) 24) ++ toLE 8 fval.toNat ++
    toLE 8 (stamp.toNat + at' (island % 128) 48 + at' (b2n phase) 63)

/-- A fault report of the Headgate or Sluice readers: SOURCE 6, 7 or 8 (R268, R297, R191). -/
def State.readerFault (s : State) (kind : FaultKind) (source : Nat) (write atomic : Bool) (island va : Nat)
    (job : Option Nat) (o : Origin) (k : CtxKey) : FaultReport :=
  { kind := kind, source := source, write := write, atomic := atomic, island := island, address := va, loc := 0,
    lanes := 0, job := job, origin := o, key := k, restart := false, stamp := s.count island }

/-- A fault report reaches the Sluice island (R95, R317). -/
def State.report (r : FaultReport) (s : State) : State :=
  s.modSluice fun l => { l with reports := l.reports ++ [r] }

/-- A queue leaves the doorbell FIFO and the pending map of its function (R262, R264). -/
def State.unlist (fn q : Nat) (s : State) : State :=
  s.modFun fn fun f => { f with fifo := f.fifo.filter fun x => x != q, pendingMap := f.pendingMap.filter fun x => x != q }

/-- A ring fault: the queue halts, and the fault is reported as a SOURCE 7 record (R268). -/
def State.ringFault (fn q : Nat) (kind : FaultKind) (write : Bool) (va : Nat) (o : Origin) (k : CtxKey) (s : State) : State :=
  ((s.modQueue fn q fun u => { u with halted := true }).unlist fn q).report (s.readerFault kind 7 write false 0x62 va none o k)

/-- An entry written into a queue's status ring at the device's write index, which then moves on; PHASE changes at each
wrap (R267). The entry is announced as R271 says. A ring across a link that is down halts its queue (R412). -/
def State.writeStatus (u : Queue) (e : Entry) (s : State) : State :=
  let k : CtxKey := { fn := u.fn, id := u.ctx }
  let va := u.statusAddr + 32 * u.sw
  let settle := fun (v : Queue) =>
    if e.deferred then { v with deferred := v.deferred - 1 }
    else if e.event then v else { v with owed := v.owed - 1 }
  match s.translate .headgate k va 32 needW with
  | (.error f, s) => (s.modQueue u.fn u.q settle).ringFault u.fn u.q f.1 true f.2 e.origin k
  | (.ok ps, s) =>
    if overLink ps ∧ !s.pcie.linkUp then (s.modQueue u.fn u.q settle).ringFault u.fn u.q .linkError true va e.origin k
    else
    let bs := statusBytes e.origin.seq e.origin.opcode e.status e.detail u.read e.event e.fval e.island e.stamp u.phase
    match writePieces k.fn ps bs s with
    | (some f, s) => (s.modQueue u.fn u.q settle).ringFault u.fn u.q f.1 true f.2 e.origin k
    | (none, s) =>
      let last := decide (u.sw + 1 = 2 ^ u.statusLog2)
      let s := s.modQueue u.fn u.q fun v =>
        let v := settle v
        { v with sw := if last then 0 else v.sw + 1, phase := if last then !v.phase else v.phase, unread := v.unread + 1 }
      if u.vector ≠ 0 ∧ (e.origin.irq ∨ u.irqAll ∨ e.status ≠ stOk ∨ e.event) then s.msix u.fn u.vector else s

/-- A reply written into a function's mailbox (R284): RING_READ, EVENT and PHASE are 0; DONE is set and BUSY cleared. -/
def State.writeMbox (fn : Nat) (e : Entry) (s : State) : State :=
  let bs := statusBytes e.origin.seq e.origin.opcode e.status e.detail 0 false e.fval e.island e.stamp false
  s.modFun fn fun f =>
    { f with
      mboxReply := (List.range 8).map fun i => BitVec.ofNat 32 (ofLE ((bs.drop (4 * i)).take 4))
      mboxDone := true
      mboxBusy := false
      mboxServing := false }

/-- A reply that Headgate writes now: into the status ring of a queue that exists, or into the mailbox. A FATAL device
writes nothing (R382). -/
def State.putReply (e : Entry) (s : State) : State :=
  if s.fatal then s
  else
    match e.origin.src with
    | .mailbox fn => if e.event then s else s.writeMbox fn e
    | .queue fn q =>
      match s.queue? fn q with
      | some u => s.writeStatus u e
      | none => s

/-- A reply, written now or, while the Headgate processor is down, after its restart in completion order (R373). -/
def State.reply (e : Entry) (s : State) : State :=
  if s.procUp 0 then s.putReply e
  else { s with backlog := s.backlog ++ [e] }

/-- The stamp of a reply by an island, taken now (R270). -/
def State.entry (s : State) (o : Origin) (island status detail : Nat) (fval : BitVec 64) : Entry :=
  { origin := o, event := false, deferred := false, status := status, detail := detail, fval := fval, island := island,
    stamp := s.count island }

/-- A reply stamped by the Headgate island (R270). -/
def State.replyHg (o : Origin) (status detail : Nat) (s : State) : State := s.reply (s.entry o 0x62 status detail 0)

/-- A reply stamped by another island (R270). -/
def State.replyBy (o : Origin) (island status detail : Nat) (s : State) : State :=
  s.reply (s.entry o island status detail 0)

/-- An event that the device owes: the outcome of a deferred packet (R272). -/
def State.deferredEvent (o : Origin) (island status detail : Nat) (s : State) : State :=
  s.reply { s.entry o island status detail 0 with event := true, deferred := true }

/-- An event that is not owed: written only while the free entries exceed the owed count, else dropped and counted
(R269). -/
def State.event (fn q : Nat) (seq : Word) (op : BitVec 8) (island status detail : Nat) (fval : BitVec 64) (s : State) : State :=
  match s.queue? fn q with
  | none => s
  | some u =>
    let o : Origin := { src := .queue fn q, seq := seq, opcode := op, irq := false }
    if u.owed + u.deferred < u.free then s.reply { s.entry o island status detail fval with event := true }
    else s.modFun fn fun f => { f with evDropped := satInc f.evDropped }

/-! ## Queues that go -/

/-- The origin of a reply that goes nowhere, when its queue is gone: no function has this mailbox. -/
def Origin.orphan (gone : Src → Bool) (o : Origin) : Origin := if gone o.src then { o with src := .mailbox 4 } else o

/-- A protected layer whose PROTECT_SET came from a queue that goes: its events go nowhere (R220). -/
def ProtDesc.orphan (f : Origin → Origin) (d : ProtDesc) : ProtDesc := { d with origin := d.origin.map f }

/-- A pipe whose waiting replies and events may have lost their queue. -/
def Pipe.orphan (f : Origin → Origin) (u : Pipe) : Pipe :=
  { u with
    waiters := u.waiters.map f
    shadow := { u.shadow with prot := u.shadow.prot.orphan f }
    applied := { u.applied with prot := u.applied.prot.orphan f }
    writes := u.writes.map fun w => match w with
      | .prot d => .prot (d.orphan f)
      | w => w }

/-- Queues removed: no reply or event that is still owed to one of them is ever written, whatever queue takes its number
(R280, R302, R369). -/
def State.dropQueues (p : Queue → Bool) (s : State) : State :=
  let gone (x : Src) : Bool := s.queues.any fun u => p u && decide (x = .queue u.fn u.q)
  let f := Origin.orphan gone
  { s with
    queues := (s.queues.filter fun u => !(p u)).map fun u => { u with destroying := u.destroying.map f }
    backlog := s.backlog.filter fun e => !(gone e.origin.src)
    sluice := { s.sluice with armed := s.sluice.armed.map f }
    pipes := s.pipes.map (Pipe.orphan f)
    camera := { s.camera with ports := s.camera.ports.map fun t =>
      { t with chans := t.chans.map fun c => { c with waiters := c.waiters.map f } } }
    ctxs := s.ctxs.map fun c =>
      { c with unmaps := c.unmaps.map fun u => { u with origin := f u.origin }
               teardown := c.teardown.map fun t => { t with origin := f t.origin } }
    levee := { s.levee with
      staging := s.levee.staging.map fun x => (f x.1, x.2)
      actOrigin := s.levee.actOrigin.map f
      backOrigin := s.levee.backOrigin.map f }
    weir := { s.weir with replans := s.weir.replans.map fun r => { r with origin := r.origin.map f } }
    resets := s.resets.map fun r => { r with waiters := r.waiters.map fun w => (f w.1, w.2) } }

end Sys2Proof.Machine
end

