-- ==== Sys2Proof/Machine/FlashLog.lean ====
section
/-! DEFINITION. The log area of the flash (R392, R393): sectors, entries, appending and compaction, and the payloads that Weir
writes. FLASH_LOG_APPEND. The spec gives the types of the entries and what each holds; the layout of a payload is the model's
(log entry 60). -/

namespace Sys2Proof.Machine

/-! ## Sectors -/

/-- Bytes that an entry with a payload takes: its header of 12 bytes, the payload, padding to 16. -/
def logEntryBytes (payload : Nat) : Nat := ceilDiv (12 + payload) 16 * 16

/-- Bytes of a sector in use: the header of 32 bytes and the entries. -/
def LogSector.used (x : LogSector) : Nat := 32 + sumN (x.entries.map fun e => logEntryBytes e.payload.length)

/-- Good sectors: those not marked BAD. -/
def goodSectors (log : List LogSector) : Nat := countIf (fun x => !x.bad) log

/-- Free sectors: good, with no valid header. -/
def freeSectors (log : List LogSector) : Nat := countIf (fun x => !x.bad && !x.valid) log

/-- The sector with the highest SECTOR_SEQ and a valid header; its number (R393). -/
def logTop (log : List LogSector) : Option Nat :=
  ((enumFrom 0 log).foldl (fun (acc : Option (Nat × Nat)) x =>
    if x.2.valid then match acc with
      | some a => if a.2 < x.2.seq then some (x.1, x.2.seq) else acc
      | none => some (x.1, x.2.seq)
    else acc) none).map (·.1)

/-- The oldest good sector with a valid header. -/
def logOldest (log : List LogSector) : Option Nat :=
  ((enumFrom 0 log).foldl (fun (acc : Option (Nat × Nat)) x =>
    if x.2.valid && !x.2.bad then match acc with
      | some a => if x.2.seq < a.2 then some (x.1, x.2.seq) else acc
      | none => some (x.1, x.2.seq)
    else acc) none).map (·.1)

/-- The next good sector after sector i in ring order. -/
def nextGood (log : List LogSector) (i : Nat) : Nat :=
  (((List.range log.length).map fun k => (i + 1 + k) % log.length).find? fun k => match log[k]? with
    | some x => !x.bad
    | none => false).getD i

/-- A sector opened as the head: erased first when it holds anything (R393). -/
def openSector (log : List LogSector) (i seq : Nat) : List LogSector :=
  modNth (fun x => { x with valid := true, seq := seq, entries := [], erases := if x.valid then x.erases + 1 else x.erases }) i log

/-- The head sector of a log, opened where there is none, or where the head is full or BAD; n is the payload to come. -/
def logHead (log : List LogSector) (n : Nat) : Nat × List LogSector :=
  match logTop log with
  | none =>
    let i := nextGood log (log.length - 1)
    (i, openSector log i 1)
  | some h =>
    match log[h]? with
    | some x =>
      if !x.bad ∧ x.used + logEntryBytes n ≤ 65536 then (h, log)
      else
        let i := nextGood log h
        (i, openSector log i (x.seq + 1))
    | none => (h, log)

/-- An entry put at the head. -/
def putEntry (e : LogEntry) (log : List LogSector) : List LogSector :=
  let (h, log) := logHead log e.payload.length
  modNth (fun x => { x with entries := x.entries ++ [e] }) h log

/-- Every entry of the log. -/
def logEntries (log : List LogSector) : List LogEntry := (log.filter (·.valid)).flatMap (·.entries)

/-- The latest entry of a type (R393). -/
def lastOf (log : List LogSector) (type : BitVec 8) : Option LogEntry :=
  (logEntries log).foldl (fun (acc : Option LogEntry) e =>
    if e.type = type then match acc with
      | some a => if a.seq < e.seq then some e else acc
      | none => some e
    else acc) none

/-- The oldest sector compacted: its entries of TYPE 0x01 to 0x03 that are the latest of their type go to the head, then it
is erased (R393). -/
def compact (log : List LogSector) : List LogSector :=
  match logOldest log with
  | none => log
  | some i =>
    let keep := match log[i]? with
      | some x => x.entries.filter fun (e : LogEntry) => decide (1 ≤ e.type.toNat) && decide (e.type.toNat ≤ 3) && decide (lastOf log e.type = some e)
      | none => []
    let log := keep.foldl (fun l e => putEntry e l) log
    modNth (fun x => { x with valid := false, entries := [], erases := x.erases + 1 }) i log

/-- Compaction while fewer than 4 free sectors remain. -/
def compactAll : Nat → List LogSector → List LogSector
  | 0, log => log
  | n + 1, log => if freeSectors log < 4 then compactAll n (compact log) else log

/-- The SEQ of the next entry. -/
def nextSeq (log : List LogSector) : Nat := maxN ((logEntries log).map (·.seq)) + 1

/-- An entry appended. A head whose program fails is marked BAD and skipped; with fewer than 8 good sectors the write fails
(R393). -/
def appendLog (type : BitVec 8) (payload : List Byte) (ok : Bool) (log : List LogSector) : Option (List LogSector) :=
  let log := if ok then log else match logTop log with
    | some h => modNth (fun x => { x with bad := true }) h log
    | none => log
  if goodSectors log < 8 then none
  else some (compactAll 4 (putEntry { type := type, seq := nextSeq log, payload := payload } log))

/-! ## Writes -/

/-- A log write by Weir: it waits while FW_STAGE programs a slot, and is lost when it fails (R393). -/
def State.logWrite (type : BitVec 8) (payload : List Byte) (s : State) : State :=
  if s.levee.staging.isSome then { s with logWait := s.logWait ++ [(type, payload)] }
  else
    match appendLog type payload true s.log with
    | some l => { s with log := l }
    | none => s

/-- The log writes that waited, made. -/
def State.logDrain (s : State) : State :=
  runAll (fun (e : BitVec 8 × List Byte) (s : State) => s.logWrite e.1 e.2) s.logWait { s with logWait := [] }

/-- FLASH_LOG_APPEND: Weir appends an entry (R393); nothing is written while FW_STAGE programs a slot or Weir is down. -/
def execFlashLogAppend (type : BitVec 8) (payload : List Byte) (ok : Bool) (s : State) : Res :=
  if s.levee.staging.isSome ∨ !(s.procUp 2) then .next s
  else
    match appendLog type payload ok s.log with
    | some l => .next { s with log := l }
    | none => .next s

/-! ## Payloads -/

/-- HOURS: active hours, and hours since the replan. -/
def hoursPayload (w : Weir) : List Byte := toLE 4 w.hours.toNat ++ toLE 4 w.sinceReplan

/-- A margin plan: eight points of FREQ, V_MAX, V_MIN and SLACK, 128 bytes for each island (R349). -/
def planPayload (islands : List Island) (version : BitVec 16) : List Byte :=
  (islands.flatMap fun i => i.plan.flatMap fun p =>
    toLE 4 p.freqKHz ++ toLE 4 p.vMax ++ toLE 4 p.vMin ++ toLE 4 ((p.slack + 2147483648).toNat)) ++ toLE 4 version.toNat

/-- AGE: FMAX of each island. -/
def agePayload (islands : List Island) : List Byte := islands.flatMap fun i => toLE 4 i.fmax

/-- The plan of island number i of a PLAN payload. -/
def payloadPlan (bs : List Byte) (i : Nat) : List PlanPoint :=
  (List.range 8).map fun k =>
    let d (o : Nat) : Nat := ofLE ((bs.drop (128 * i + 16 * k + o)).take 4)
    { freqKHz := d 0, vMax := d 4, vMin := d 8, slack := Int.ofNat (d 12) - 2147483648 }

/-- The margin plan at a cold boot: the latest in the log, else that of manufacture (R338); FMAX and the version go with
it. -/
def State.loadPlan (s : State) : State :=
  let isl := match lastOf s.log 0x02 with
    | some e => (enumFrom 0 s.islands).map fun x => { x.2 with plan := payloadPlan e.payload x.1 }
    | none => s.islands
  let isl := match lastOf s.log 0x03 with
    | some e => (enumFrom 0 isl).map fun x => { x.2 with fmax := ofLE ((e.payload.drop (4 * x.1)).take 4) }
    | none => isl
  let version := match lastOf s.log 0x02 with
    | some e => BitVec.ofNat 16 (ofLE ((e.payload.drop 12544).take 4))
    | none => 0
  { s with islands := isl, weir := { s.weir with planVersion := version } }

/-- The active hours at a cold boot (R337). -/
def State.loadHours (s : State) : State :=
  match lastOf s.log 0x01 with
  | some e =>
    s.modWeir fun w => { w with hours := BitVec.ofNat 32 (ofLE (e.payload.take 4)), sinceReplan := ofLE ((e.payload.drop 4).take 4) }
  | none => s

end Sys2Proof.Machine
end

