-- ==== Sys2Proof/Machine/Boot.lean ====
section
/-! DEFINITION. Firmware images and their verification (R361 to R363, R365), repair (R25), and the cold boot (R364): MBIST_COMPLETE
and COLD_BOOT. -/

namespace Sys2Proof.Machine

/-! ## Verification (R363) -/

/-- The reason code of an image's verification: 0 when it passes. -/
def State.verify (s : State) (img : FwImage) (p : Nat) : Nat :=
  let v := s.levee
  if !img.formatOk ∨ img.proc ≠ p ∨ 64 < img.svn then 1
  else if 2 < img.keySlot ∨ v.otpRevoked.toNat.testBit img.keySlot ∨ v.otpKeys.getD img.keySlot none ≠ some img.keyHash then 2
  else if !img.signatureOk then 3
  else if img.svn < v.otpSvn then 4
  else if !img.digestOk then 5
  else 0

/-- The images of a slot: false is slot A. -/
def Levee.slot (v : Levee) (b : Bool) : List FwImage := if b then v.slotB else v.slotA

/-- The first image of some images that fails, in a given order: its PROC and the reason. -/
def State.firstFail (s : State) (imgs : List FwImage) : List Nat → Option (Nat × Nat)
  | [] => none
  | p :: ps =>
    match imgs[p]? with
    | none => some (p, 1)
    | some img => if s.verify img p = 0 then s.firstFail imgs ps else some (p, s.verify img p)

/-- The order in which the boot ROM verifies (R364). -/
def bootOrder : List Nat := [3, 2, 1, 0]

/-- Some images carry one SVN. -/
def oneSvn (imgs : List FwImage) : Bool :=
  match imgs with
  | [] => true
  | i :: is => is.all fun j => j.svn == i.svn

/-- LV_BOOT_STATUS's record of a failed verification: reason, PROC, slot (R374). -/
def failCode (reason p : Nat) (slot : Bool) : BitVec 8 := BitVec.ofNat 8 (at' reason 3 + at' p 1 + b2n slot)

/-- R362: the OTP counter rises to the SVN of the ACTIVE slot's images, and their REVOKE bits are set, but not that of a key
that signs one of the running images. -/
def State.applyOtp (s : State) : State :=
  s.modLevee fun v =>
    let imgs := v.slot v.activeSlot
    let signs (k : Nat) : Bool := s.procs.any fun p => match p.image with
      | some i => i.keySlot == k
      | none => false
    let asked (k : Nat) : Bool := imgs.any fun i => i.revoke.toNat.testBit k
    let bits := sumN ((List.range 3).map fun k => if asked k && !(signs k) then 2 ^ k else 0)
    { v with otpSvn := max v.otpSvn (maxN (imgs.map (·.svn))), otpRevoked := v.otpRevoked ||| BitVec.ofNat 3 bits }

/-! ## The device without power or in reset -/

/-- The slot that is not ACTIVE after a write that failed or was cut short: whether its images verify is not stated (R367; log
entry 63). STAGED stays 0. -/
def State.spoilSlot (s : State) : State :=
  let k := s.fv
  let f (imgs : List FwImage) : List FwImage := (enumFrom k imgs).map fun x => { x.2 with formatOk := Config.fwBit x.1 }
  ({ s with fv := k + 4 } : State).modLevee fun v =>
    let v := { v with staging := none }
    if v.activeSlot then { v with slotA := f v.slotA } else { v with slotB := f v.slotB }

/-- Every island but 0x7F held in reset, as a cold boot finds it (R355, R401): only the flash, OTP, the always-on domain, the
memories behind their own rules, GROUP_ALERT, which only the cold boot clears (R70), and what lies outside the device stay. -/
def State.deviceOff (s : State) : State :=
  let s := if s.levee.staging.isSome then s.spoilSlot else s
  let v := s.levee
  { State.reset with
    pending := s.pending
    now := s.now
    fv := s.fv
    part := s.part
    mem := s.mem
    islands := State.reset.islands.map fun i => if i.id = 0x7F then (s.island? 0x7F).getD i else i
    nextJob := s.nextJob
    rsv := { State.reset.rsv with groupAlert := s.rsv.groupAlert }
    levee := { State.reset.levee with
      otpKeys := v.otpKeys, otpRevoked := v.otpRevoked, otpSvn := v.otpSvn, slotA := v.slotA, slotB := v.slotB,
      recordSeq := v.recordSeq, activeSlot := v.activeSlot, staged := v.staged,
      wakeFail := v.wakeFail }
    log := s.log
    pipes := s.pipes.map fun p => { resetPipe with hpd := p.hpd }
    weir := { resetWeir with alertLow := s.weir.alertLow, alertHighAt := s.weir.alertHighAt }
    sluice := resetSluice s.part.clEnable s.part.nsEnable s.now
    aon := s.aon
    out := s.out }

/-- A cold boot will follow once its conditions hold (R400). -/
def State.bootNext (s : State) : State :=
  (s.modAon fun a => { a with mode := .off, bootPending := true, wakePending := none }).modLevee fun v =>
    { v with wakeFail := false }

/-- The conditions under which the boot ROM starts (R400): the always-on domain out of reset, the rails good, SYSCLK_IN
running, PERST# released. -/
def State.bootReady (s : State) : Bool :=
  let a := s.aon
  a.bootPending && a.vaon && !a.aonRst && a.corePgood && !a.perst && a.sysclk

/-! ## Repair (R25) -/

/-- The out-of-service bank of a group: the factory choice, the failing bank, or 0xF for a retired group. -/
def outBankOf (spare : Nat) (failing : List Nat) : Nat :=
  match failing.eraseDups with
  | [] => spare
  | [b] => b
  | _ => 0xF

/-- The bank remap of every group. -/
def State.repair (failing : MbistResult) (s : State) : State :=
  s.modRsv fun r =>
    { r with outBank := (List.range 8).map fun g => outBankOf (s.part.spare.getD g 8) (failing.getD g []) }

/-- MBIST_COMPLETE: during a cold boot the boot ROM chooses the banks (R25). -/
def execMbistComplete (failing : MbistResult) (s : State) : Res := .next (if s.bootReady then s.repair failing else s)

/-! ## The cold boot (R364, R365) -/

/-- The firmware processors loaded with some images (R364, steps 3 and 4). -/
def loadedProcs (imgs : List FwImage) : List Proc :=
  (List.range 4).map fun p =>
    { resetProc with up := true, cached := true, image := imgs[p]?, iramDigest := match imgs[p]? with
        | some i => i.iramDigest
        | none => [] }

/-- The levee windows after a cold boot (R246). -/
def State.bootWindows (s : State) : State :=
  let mask := BitVec.ofNat 64 (2 ^ s.rsvGranules - 1)
  { s with funs := (enumFrom 0 s.funs).map fun x =>
      if x.1 = 0 then { x.2 with dramWin := [(0, s.dramBytes / 67108864), (0, 0), (0, 0), (0, 0)], rsvMask := mask }
      else x.2 }

/-- The islands out of reset, those of disabled units powered off (R25). -/
def State.bootIslands (s : State) : State :=
  { s with islands := s.islands.map fun i =>
      if s.islandUsable i.id then { i with inReset := false, freqKHz := match i.plan[i.point]? with
        | some p => p.freqKHz
        | none => i.freqKHz }
      else { i with inReset := true, off := true } }

/-- The points in force are those of the plan: point 7 is below nominal on a regulated island or copy engine, or an I/O-die
island has no headroom left (R339). -/
def nominalOf (id : Nat) : Nat :=
  match islandTable.find? fun e => decide (e.1 ≤ id) && decide (id < e.1 + e.2.1) with
  | some e => e.2.2
  | none => 0

/-- An island with a regulator of its own (R322). -/
def regulated (id : Nat) : Bool := onComputeDie id || (decide (0x40 ≤ id) && decide (id < 0x4C))

/-- A copy engine's island. -/
def isCopyIsland (id : Nat) : Bool := decide (0x71 ≤ id) && decide (id < 0x75)

/-- BELOW_NOMINAL and FIXED_MARGIN_LOW as the islands' FMAX gives them (R339). -/
def State.marginFlags (s : State) : State :=
  let low (i : Island) : Bool := s.islandUsable i.id && decide (i.fmax < nominalOf i.id)
  let moves (i : Island) : Bool := regulated i.id || isCopyIsland i.id
  s.modWeir fun w => { w with belowNominal := s.islands.any fun i => low i && moves i, fixedLow := s.islands.any fun i => low i && !(moves i) }

/-- The functions leave BOOTING for READY; their service state is STARTUP (R364, R384). -/
def State.functionsReady (s : State) : State :=
  runAll (fun fn (s : State) => (s.modFun fn fun f => { f with service := .startup }).setFnState fn .ready) [0, 1, 2, 3] s

/-- The images with which a cold boot runs: the ACTIVE slot's, else the other slot's when all verify with one SVN; with the
record of a failure (R365). -/
def State.pickSlot (s : State) : Option Bool × Levee :=
  let v := s.levee
  match s.firstFail (v.slot v.activeSlot) bootOrder with
  | none => (some v.activeSlot, v)
  | some (p, r) =>
    let v := { v with bootFail := failCode r p v.activeSlot }
    let other := !v.activeSlot
    match s.firstFail (v.slot other) bootOrder with
    | none =>
      if oneSvn (v.slot other) then
        (some other, { v with activeSlot := other, staged := false, fallback := true, recordSeq := v.recordSeq + 1 })
      else (none, { v with noImage := true })
    | some (p, r) => (none, { v with bootFail := failCode r p other, noImage := true })

/-- The payload of a BOOT entry: CAUSE, slot, verification result. -/
def bootPayload (cause : BitVec 4) (v : Levee) : List Byte :=
  toLE 1 cause.toNat ++ toLE 1 (b2n v.activeSlot) ++ toLE 1 v.bootFail.toNat

/-- The cold boot of R364 once its conditions hold. The contents of DRAM after its initialisation are not given: they read
as the bytes that nothing has written (log entry 2). Levee writes PCI_LINK_CFG from the boot configuration (R257; log entry
149). -/
def State.coldBoot (failing : MbistResult) (cfgCrcOk : Bool) (s : State) : State :=
  let s := (s.deviceOff.repair failing).modAon fun a => { a with bootPending := false }
  let s := s.refreshAllBanks.modRsv fun r => { r with groupAlert := 0 }
  let s := s.modMem fun m => { m with dram := [], rsv := [], rsvUe := [], dramUe := [] }
  if !cfgCrcOk then (s.modLevee fun v => { v with cfgBad := true }).allFatal
  else
    match s.pickSlot with
    | (none, v) => { s with levee := v }.allFatal
    | (some b, v) =>
      let s := { s with levee := v, procs := loadedProcs (v.slot b) }
      let s := (if v.otpSvn < maxN ((v.slot b).map (·.svn)) then s.applyOtp else s).loadPlan.loadHours
      let s := (s.bootIslands.marginFlags).bootWindows
      let s := (s.modPcie fun p => { p with cfg := Config.bootLinkCfg &&& 0xFF }).modAon fun a => { a with mode := .a }
      (s.logWrite 0x04 (bootPayload s.aon.cause s.levee)).functionsReady

/-- COLD_BOOT (R364). Nothing happens before the conditions of R400 hold. -/
def execColdBoot (mbist : MbistResult) (cfgCrcOk : Bool) (s : State) : Res :=
  .next (if s.bootReady then s.coldBoot mbist cfgCrcOk else s)

end Sys2Proof.Machine
end

