-- ==== Sys2Proof/Machine/Etc2.lean ====
section
/-! DEFINITION. The block formats ETC2 and EAC, which R126 has decoded as their specifications define: the colour blocks in their five
modes and the single-channel blocks (log entry 143). A block is a big-endian number; its pixels are counted down the columns. -/

namespace Sys2Proof.Machine

/-- A block of eight bytes of an element, from its little-endian number, as a big-endian number. -/
def blockBE (v i : Nat) : Nat := sumN ((List.range 8).map fun j => v / 2 ^ (8 * (8 * i + j)) % 256 * 2 ^ (56 - 8 * j))

/-- A number brought into 0 to top. -/
def clampTo (top : Nat) (v : Int) : Nat := if v < 0 then 0 else if (top : Int) < v then top else v.toNat

/-! ## Colour blocks -/

/-- The two magnitudes of each table of intensity modifiers. -/
def etcTables : List (Nat × Nat) := [(2, 8), (5, 17), (9, 29), (13, 42), (18, 60), (24, 80), (33, 106), (47, 183)]

/-- The distances of the T and H modes. -/
def etcDistances : List Nat := [3, 6, 11, 16, 23, 32, 41, 64]

/-- A field of n bits as eight bits, its high bits repeated. -/
def widen (n v : Nat) : Nat := if n = 4 then 17 * v else if n = 5 then 8 * v + v / 4 else if n = 6 then 4 * v + v / 16 else 2 * v + v / 64

/-- A signed field of three bits. -/
def signed3 (v : Nat) : Int := if v < 4 then (v : Int) else (v : Int) - 8

/-- The two-bit index of a pixel. -/
def etcIndex (b p : Nat) : Nat := 2 * b2n (bitOf b (16 + p)) + b2n (bitOf b p)

/-- A colour moved by a distance in every channel. -/
def moved (c : List Nat) (d : Int) : List Nat := c.map fun (x : Nat) => clampTo 255 (Int.ofNat x + d)

/-- A pixel of the individual and differential modes. `opaque_` is false in a punch-through block: index 0 then moves nothing, and index
2 is transparent. -/
def etcSub (opaque_ : Bool) (b x y : Nat) (c1 c2 : List Nat) : Option (List Nat) :=
  let second := if bitOf b 32 then decide (2 ≤ y) else decide (2 ≤ x)
  let t := etcTables.getD (if second then fld b 36 34 else fld b 39 37) (0, 0)
  let c := if second then c2 else c1
  match etcIndex b (4 * x + y) with
  | 0 => some (if opaque_ then moved c t.1 else c)
  | 1 => some (moved c t.2)
  | 2 => if opaque_ then some (moved c (-t.1)) else none
  | _ => some (moved c (-t.2))

/-- A pixel of a T or H block, from its four paint colours. -/
def etcPaint (opaque_ : Bool) (b x y : Nat) (cs : List (List Nat)) : Option (List Nat) :=
  let i := etcIndex b (4 * x + y)
  if i = 2 ∧ !opaque_ then none else cs[i]?

/-- The paint colours of the T mode. -/
def etcT (b : Nat) : List (List Nat) :=
  let c1 := [4 * fld b 60 59 + fld b 57 56, fld b 55 52, fld b 51 48].map (widen 4)
  let c2 := [fld b 47 44, fld b 43 40, fld b 39 36].map (widen 4)
  let d := etcDistances.getD (2 * fld b 35 34 + fld b 32 32) 0
  [c1, moved c2 d, c2, moved c2 (-d)]

/-- The paint colours of the H mode; the lowest bit of its distance is the order of its two colours. -/
def etcH (b : Nat) : List (List Nat) :=
  let r1 := [fld b 62 59, 2 * fld b 58 56 + fld b 52 52, 8 * fld b 51 51 + fld b 49 47]
  let r2 := [fld b 46 43, fld b 42 39, fld b 38 35]
  let num := fun (c : List Nat) => 256 * c.getD 0 0 + 16 * c.getD 1 0 + c.getD 2 0
  let d := etcDistances.getD (4 * fld b 34 34 + 2 * fld b 32 32 + b2n (decide (num r2 ≤ num r1))) 0
  let c1 := r1.map (widen 4)
  let c2 := r2.map (widen 4)
  [moved c1 d, moved c1 (-d), moved c2 d, moved c2 (-d)]

/-- A pixel of the planar mode. -/
def etcPlanar (b x y : Nat) : List Nat :=
  let o := [widen 6 (fld b 62 57), widen 7 (64 * fld b 56 56 + fld b 54 49), widen 6 (32 * fld b 48 48 + 8 * fld b 44 43 + fld b 41 39)]
  let h := [widen 6 (2 * fld b 38 34 + fld b 32 32), widen 7 (fld b 31 25), widen 6 (fld b 24 19)]
  let v := [widen 6 (fld b 18 13), widen 7 (fld b 12 6), widen 6 (fld b 5 0)]
  (List.range 3).map fun i =>
    let c := fun (l : List Nat) => (l.getD i 0 : Int)
    clampTo 255 (((x : Int) * (c h - c o) + (y : Int) * (c v - c o) + 4 * c o + 2) / 4)

/-- The colour of a pixel of an ETC2 block; none where a punch-through block is transparent. -/
def etcColour (punch : Bool) (b x y : Nat) : Option (List Nat) :=
  let flag := bitOf b 33
  let opaque_ := !punch || flag
  if !punch ∧ !flag then
    etcSub true b x y ([fld b 63 60, fld b 55 52, fld b 47 44].map (widen 4)) ([fld b 59 56, fld b 51 48, fld b 43 40].map (widen 4))
  else
    let base := [fld b 63 59, fld b 55 51, fld b 47 43]
    let other := [(fld b 63 59 : Int) + signed3 (fld b 58 56), (fld b 55 51 : Int) + signed3 (fld b 50 48), (fld b 47 43 : Int) + signed3 (fld b 42 40)]
    let out := fun (i : Nat) => let v := other.getD i 0; decide (v < 0) || decide (31 < v)
    if out 0 then etcPaint opaque_ b x y (etcT b)
    else if out 1 then etcPaint opaque_ b x y (etcH b)
    else if out 2 then some (etcPlanar b x y)
    else etcSub opaque_ b x y (base.map (widen 5)) (other.map fun v => widen 5 v.toNat)

/-! ## Single-channel blocks -/

/-- The modifiers of the sixteen EAC tables: the four magnitudes below and the four values above. -/
def eacTables : List (List Int) :=
  [[-3, -6, -9, -15, 2, 5, 8, 14], [-3, -7, -10, -13, 2, 6, 9, 12], [-2, -5, -8, -13, 1, 4, 7, 12], [-2, -4, -6, -13, 1, 3, 5, 12]] ++
  [[-3, -6, -8, -12, 2, 5, 7, 11], [-3, -7, -9, -11, 2, 6, 8, 10], [-4, -7, -8, -11, 3, 6, 7, 10], [-3, -5, -8, -11, 2, 4, 7, 10]] ++
  [[-2, -6, -8, -10, 1, 5, 7, 9], [-2, -5, -8, -10, 1, 4, 7, 9], [-2, -4, -8, -10, 1, 3, 7, 9], [-2, -5, -7, -10, 1, 4, 6, 9]] ++
  [[-3, -4, -7, -10, 2, 3, 6, 9], [-1, -2, -3, -10, 0, 1, 2, 9], [-4, -6, -8, -9, 3, 5, 7, 8], [-3, -5, -7, -9, 2, 4, 6, 8]]

/-- The modifier of a pixel of an EAC block. -/
def eacModifier (b x y : Nat) : Int := (eacTables.getD (fld b 51 48) []).getD (fld b (47 - 3 * (4 * x + y)) (45 - 3 * (4 * x + y))) 0

/-- A pixel of an EAC alpha block: 0 to 255. -/
def eacAlpha (b x y : Nat) : Nat := clampTo 255 ((fld b 63 56 : Int) + eacModifier b x y * (fld b 55 52 : Int))

/-- A pixel of an EAC 11-bit block: 0 to 2,047. -/
def eac11 (b x y : Nat) : Nat :=
  let m := fld b 55 52
  clampTo 2047 (8 * (fld b 63 56 : Int) + 4 + eacModifier b x y * (if m = 0 then 1 else 8 * (m : Int)))

end Sys2Proof.Machine
end

