-- ==== Sys2Proof/Machine/Astc.lean ====
section
/-! DEFINITION. The block format ASTC for 2D blocks, LDR and HDR, which R126 has decoded as its specification defines: the block mode, the
integer sequences, the weight grid, the partitions, the endpoint modes and the interpolation (log entry 143). -/

namespace Sys2Proof.Machine

/-- n bits of a number from a place up. -/
def bitsAt (v at_ n : Nat) : Nat := v / 2 ^ at_ % 2 ^ n

/-! ## Integer sequences -/

/-- A range of the sequences: bits, whether a trit, whether a quint. -/
structure AstcRange where
  bits  : Nat
  trit  : Bool
  quint : Bool

/-- The ranges in ascending order: 2, 3, 4, 5, 6, 8, 10, 12 and so on up to 256 values. -/
def astcRange (q : Nat) : AstcRange :=
  if q = 0 then ⟨1, false, false⟩
  else if q = 1 then ⟨0, true, false⟩
  else match q % 3 with
    | 2 => ⟨(q - 2) / 3 + 2, false, false⟩
    | 0 => ⟨(q - 3) / 3, false, true⟩
    | _ => ⟨(q - 4) / 3 + 1, true, false⟩

/-- The bits of a sequence of n values. -/
def AstcRange.size (r : AstcRange) (n : Nat) : Nat :=
  n * r.bits + (if r.trit then (8 * n + 4) / 5 else 0) + (if r.quint then (7 * n + 2) / 3 else 0)

/-- One of the five trits that eight bits encode. -/
def tritOf (t i : Nat) : Nat :=
  let wide := bitsAt t 2 3 == 7
  let c := if wide then 4 * bitsAt t 5 3 + bitsAt t 0 2 else bitsAt t 0 5
  match i with
  | 4 => if wide then 2 else if bitsAt t 5 2 = 3 then 2 else bitsAt t 7 1
  | 3 => if wide then 2 else if bitsAt t 5 2 = 3 then bitsAt t 7 1 else bitsAt t 5 2
  | 2 => if bitsAt c 0 2 = 3 ∨ bitsAt c 2 2 = 3 then 2 else bitsAt c 4 1
  | 1 => if bitsAt c 0 2 = 3 then bitsAt c 4 1 else if bitsAt c 2 2 = 3 then 2 else bitsAt c 2 2
  | _ =>
    let pair := fun (x : Nat) => if bitsAt x 1 1 = 1 then 2 else bitsAt x 0 1
    if bitsAt c 0 2 = 3 then pair (bitsAt c 2 2) else if bitsAt c 2 2 = 3 then bitsAt c 0 2 else pair (bitsAt c 0 2)

/-- One of the three quints that seven bits encode. -/
def quintOf (q i : Nat) : Nat :=
  let four := bitsAt q 1 2 == 3
  let wide := four && bitsAt q 5 2 == 0
  let c := if four then 8 * bitsAt q 3 2 + 2 * (3 - bitsAt q 5 2) + bitsAt q 0 1 else bitsAt q 0 5
  match i with
  | 2 => if wide then (if bitsAt q 0 1 = 1 then 4 else bitsAt q 3 2) else if four then 4 else bitsAt q 5 2
  | 1 => if wide ∨ bitsAt c 0 3 = 5 then 4 else bitsAt c 3 2
  | _ => if wide then 4 else if bitsAt c 0 3 = 5 then bitsAt c 3 2 else bitsAt c 0 3

/-- Value i of a sequence: its low bits, and its trit or quint. -/
def AstcRange.value (r : AstcRange) (s i : Nat) : Nat × Nat :=
  let b := r.bits
  if r.trit then
    let o := i / 5 * (5 * b + 8)
    let t := bitsAt s (o + b) 2 + 4 * bitsAt s (o + 2 * b + 2) 2 + 16 * bitsAt s (o + 3 * b + 4) 1 + 32 * bitsAt s (o + 4 * b + 5) 2 +
      128 * bitsAt s (o + 5 * b + 7) 1
    (bitsAt s (o + i % 5 * b + [0, 2, 4, 5, 7].getD (i % 5) 0) b, tritOf t (i % 5))
  else if r.quint then
    let o := i / 3 * (3 * b + 7)
    let q := bitsAt s (o + b) 3 + 8 * bitsAt s (o + 2 * b + 3) 2 + 32 * bitsAt s (o + 3 * b + 5) 2
    (bitsAt s (o + i % 3 * b + [0, 3, 5].getD (i % 3) 0) b, quintOf q (i % 3))
  else (bitsAt s (i * b) b, 0)

/-- The values of a sequence of n that begins at a place of a number. -/
def AstcRange.values (r : AstcRange) (v at_ n : Nat) : List (Nat × Nat) :=
  (List.range n).map (r.value (bitsAt v at_ (r.size n)))

/-! ## Unquantisation -/

/-- A field of n bits replicated to fill a width; the fuel is the width. -/
def replicateBits (n v : Nat) : Nat → Nat → Nat
  | 0, _ => 0
  | f + 1, w => if w ≤ n then v / 2 ^ (n - w) else v * 2 ^ (w - n) + replicateBits n v f (w - n)

/-- Bits of a value put at places, highest first: 0 stands for no bit, j + 1 for bit j. -/
def spread (v : Nat) (ps : List Nat) : Nat := ps.foldl (fun acc p => 2 * acc + (if p = 0 then 0 else bitsAt v (p - 1) 1)) 0

/-- A colour value as eight bits. -/
def AstcRange.colour (r : AstcRange) (x : Nat × Nat) : Nat :=
  let m := x.1
  let mix := fun (c : Nat) (ps : List Nat) =>
    let a := if m % 2 = 1 then 511 else 0
    let t := (x.2 * c + spread m ps) ^^^ a
    (a &&& 0x80) ||| t / 4
  match r.trit, r.quint, r.bits with
  | true, _, 1 => mix 204 []
  | true, _, 2 => mix 93 [2, 0, 0, 0, 2, 0, 2, 2, 0]
  | true, _, 3 => mix 44 [3, 2, 0, 0, 0, 3, 2, 3, 2]
  | true, _, 4 => mix 22 [4, 3, 2, 0, 0, 0, 4, 3, 2]
  | true, _, 5 => mix 11 [5, 4, 3, 2, 0, 0, 0, 5, 4]
  | true, _, _ => mix 5 [6, 5, 4, 3, 2, 0, 0, 0, 6]
  | _, true, 1 => mix 113 []
  | _, true, 2 => mix 54 [2, 0, 0, 0, 0, 2, 2, 0, 0]
  | _, true, 3 => mix 26 [3, 2, 0, 0, 0, 0, 3, 2, 3]
  | _, true, 4 => mix 13 [4, 3, 2, 0, 0, 0, 0, 4, 3]
  | _, true, _ => mix 6 [5, 4, 3, 2, 0, 0, 0, 0, 5]
  | _, _, b => replicateBits b m 8 8

/-- A weight: 0 to 64. -/
def AstcRange.weight (r : AstcRange) (x : Nat × Nat) : Nat :=
  let m := x.1
  let mix := fun (c : Nat) (ps : List Nat) =>
    let a := if m % 2 = 1 then 127 else 0
    let t := (x.2 * c + spread m ps) ^^^ a
    (a &&& 0x20) ||| t / 4
  let w := match r.trit, r.quint, r.bits with
    | true, _, 0 => [0, 32, 63].getD x.2 0
    | _, true, 0 => [0, 16, 32, 47, 63].getD x.2 0
    | true, _, 1 => mix 50 []
    | true, _, 2 => mix 23 [2, 0, 0, 0, 2, 0, 2]
    | true, _, _ => mix 11 [3, 2, 0, 0, 0, 3, 2]
    | _, true, 1 => mix 28 []
    | _, true, _ => mix 13 [2, 0, 0, 0, 0, 2, 0]
    | _, _, b => replicateBits b m 6 6
  if 32 < w then w + 1 else w

/-! ## The block mode -/

/-- A block's weight grid: width, height, range and whether it has two planes. -/
structure AstcGrid where
  w     : Nat
  h     : Nat
  range : Nat
  dual  : Bool

/-- The grid that a block mode of eleven bits names; none where it is reserved. -/
def astcGrid (m : Nat) : Option AstcGrid :=
  let a := bitsAt m 5 2
  let low := bitsAt m 0 2
  let r := bitsAt m 4 1 + 2 * (if low ≠ 0 then low else bitsAt m 2 2)
  let high := bitsAt m 9 1
  let dual := bitsAt m 10 1 == 1
  let make := fun (w h high : Nat) (dual : Bool) => if r < 2 then none else some ({ w := w, h := h, range := r - 2 + 6 * high, dual := dual } : AstcGrid)
  if low ≠ 0 then
    let b := bitsAt m 7 2
    match bitsAt m 2 2 with
    | 0 => make (b + 4) (a + 2) high dual
    | 1 => make (b + 8) (a + 2) high dual
    | 2 => make (a + 2) (b + 8) high dual
    | _ => if bitsAt m 8 1 = 1 then make (b % 2 + 2) (a + 2) high dual else make (a + 2) (b % 2 + 6) high dual
  else
    match bitsAt m 7 2 with
    | 0 => make 12 (a + 2) high dual
    | 1 => make (a + 2) 12 high dual
    | 2 => make (a + 6) (bitsAt m 9 2 + 6) 0 false
    | _ => if a = 0 then make 6 10 high dual else if a = 1 then make 10 6 high dual else none

/-- The weights of a grid: their count, and the bits they take. -/
def AstcGrid.count (g : AstcGrid) : Nat := g.w * g.h * (if g.dual then 2 else 1)
def AstcGrid.bits (g : AstcGrid) : Nat := (astcRange g.range).size g.count

/-! ## Partitions and weights of a texel -/

/-- The hash of a partition's number. -/
def astcHash (p : BitVec 32) : BitVec 32 :=
  let p := p ^^^ (p >>> 15)
  let p := p * 0xEEDE0891
  let p := p ^^^ (p >>> 5)
  let p := p + (p <<< 16)
  let p := p ^^^ (p >>> 7)
  let p := p ^^^ (p >>> 3)
  let p := p ^^^ (p <<< 6)
  p ^^^ (p >>> 17)

/-- The partition of a texel. -/
def astcPartition (index parts x y : Nat) (small : Bool) : Nat :=
  let x := if small then 2 * x else x
  let y := if small then 2 * y else y
  let n := (astcHash (BitVec.ofNat 32 (index + (parts - 1) * 1024))).toNat
  let s1 := if bitsAt index 1 1 = 1 then 4 else 5
  let s2 := if parts = 3 then 6 else 5
  let (sh1, sh2) := if index % 2 = 1 then (s1, s2) else (s2, s1)
  let seed := fun (at_ sh : Nat) => bitsAt n at_ 4 * bitsAt n at_ 4 / 2 ^ sh
  let a := (seed 0 sh1 * x + seed 4 sh2 * y + n / 2 ^ 14) % 64
  let b := (seed 8 sh1 * x + seed 12 sh2 * y + n / 2 ^ 10) % 64
  let c := if parts < 3 then 0 else (seed 16 sh1 * x + seed 20 sh2 * y + n / 2 ^ 6) % 64
  let d := if parts < 4 then 0 else (seed 24 sh1 * x + seed 28 sh2 * y + n / 2 ^ 2) % 64
  if b ≤ a ∧ c ≤ a ∧ d ≤ a then 0 else if c ≤ b ∧ d ≤ b then 1 else if d ≤ c then 2 else 3

/-- The weight of a texel of a block of w × h texels, interpolated in the grid. -/
def AstcGrid.texelWeight (g : AstcGrid) (w h x y : Nat) (weights : Nat → Nat) : Nat :=
  let place := fun (n size at_ : Nat) => ((1024 + size / 2) / (size - 1) * at_ * (n - 1) + 32) / 64
  let gs := place g.w w x
  let gt := place g.h h y
  let fs := gs % 16
  let ft := gt % 16
  let v := gs / 16 + gt / 16 * g.w
  let w11 := (fs * ft + 8) / 16
  (weights v * (16 + w11 - fs - ft) + weights (v + 1) * (fs - w11) + weights (v + g.w) * (ft - w11) + weights (v + g.w + 1) * w11 + 8) / 16

/-! ## Endpoints -/

/-- Two endpoints of four channels, and which of the channels are HDR: none, the colours, or all. -/
structure AstcEnds where
  lo  : List Int
  hi  : List Int
  hdr : Nat

/-- A value brought into 0 to top. -/
def clampI (top v : Int) : Int := if v < 0 then 0 else if top < v then top else v

/-- The transfer of a sign bit from an offset to its base. -/
def astcTransfer (a b : Nat) : Int × Int :=
  let x := a / 2 % 64
  (if x < 32 then (x : Int) else (x : Int) - 64, ((b / 2 + a / 128 * 128 : Nat) : Int))

/-- Blue contraction. -/
def astcContract (c : List Int) : List Int :=
  let b := c.getD 2 0
  [(c.getD 0 0 + b) / 2, (c.getD 1 0 + b) / 2, b, c.getD 3 0]

/-- The two ends of an LDR mode, each channel in 0 to 255. -/
def astcLdr (lo hi : List Int) : AstcEnds := { lo := lo.map (clampI 255), hi := hi.map (clampI 255), hdr := 0 }

/-- The first two channels exchanged, or the first and the third. -/
def astcSwap (major : Nat) (c : List Int) : List Int :=
  match major, c with
  | 1, [r, g, b] => [g, r, b]
  | 2, [r, g, b] => [b, g, r]
  | _, c => c

/-- Bit j of value i of an endpoint, at a place, where a mode is one of a set. -/
def astcExtra (mode : Nat) (v : Nat → Nat) (l : List (Nat × Nat × Nat × Nat)) : Nat :=
  sumN (l.map fun x => if bitsAt x.1 mode 1 = 1 then bitsAt (v x.2.1) x.2.2.1 1 * 2 ^ x.2.2.2 else 0)

/-- HDR colours with a base and a scale (mode 7). -/
def astcHdrScale (v : Nat → Nat) : List Int × List Int :=
  let m := bitsAt (v 0) 6 2 + 4 * bitsAt (v 1) 7 1 + 8 * bitsAt (v 2) 7 1
  let (major, mode) := if m / 4 ≠ 3 then (m / 4, m % 4) else if m ≠ 15 then (m % 4, 4) else (0, 5)
  let red := v 0 % 64 + astcExtra mode v
    ([(0x3B, 3, 7, 6), (0x04, 2, 5, 6), (0x10, 3, 6, 7), (0x0F, 2, 6, 7), (0x05, 1, 5, 8), (0x0A, 1, 6, 8)] ++
     [(0x05, 1, 6, 9), (0x02, 3, 5, 9), (0x01, 2, 5, 10), (0x02, 3, 6, 10)])
  let green := v 1 % 32 + astcExtra mode v [(0x30, 1, 6, 6), (0x3A, 1, 5, 5)]
  let blue := v 2 % 32 + astcExtra mode v [(0x30, 2, 6, 6), (0x3A, 2, 5, 5)]
  let scale := v 3 % 32 + astcExtra mode v [(0x3D, 3, 5, 5), (0x2D, 3, 6, 6), (0x04, 3, 7, 7)]
  let sh := 2 ^ [1, 1, 2, 3, 4, 5].getD mode 0
  let r : Int := (red * sh : Nat)
  let g : Int := (green * sh : Nat)
  let b : Int := (blue * sh : Nat)
  let s : Int := (scale * sh : Nat)
  let c := astcSwap major (if mode = 5 then [r, g, b] else [r, r - g, r - b])
  (c.map fun x => clampI 4095 (x - s), c.map (clampI 4095))

/-- HDR colours given directly (modes 11, 14 and 15). -/
def astcHdrDirect (v : Nat → Nat) : List Int × List Int :=
  let major := bitsAt (v 4) 7 1 + 2 * bitsAt (v 5) 7 1
  if major = 3 then
    (([v 0 * 16, v 2 * 16, v 4 % 128 * 32] : List Nat).map Int.ofNat, ([v 1 * 16, v 3 * 16, v 5 % 128 * 32] : List Nat).map Int.ofNat)
  else
    let mode := bitsAt (v 1) 7 1 + 2 * bitsAt (v 2) 7 1 + 4 * bitsAt (v 3) 7 1
    let va := v 0 + 256 * bitsAt (v 1) 6 1 + astcExtra mode v
      [(0xA4, 2, 6, 9), (0x08, 4, 6, 9), (0x50, 4, 5, 9), (0x50, 5, 5, 10), (0xA0, 3, 6, 10), (0xC0, 4, 6, 11)]
    let vc := v 1 % 64 + astcExtra mode v [(0x04, 3, 6, 6), (0xE8, 5, 6, 6), (0x20, 4, 6, 7)]
    let vb0 := v 2 % 64 + astcExtra mode v [(0x5B, 2, 6, 6), (0x12, 4, 6, 7)]
    let vb1 := v 3 % 64 + astcExtra mode v [(0x5B, 3, 6, 6), (0x12, 5, 6, 7)]
    let n := [7, 6, 7, 6, 5, 6, 5, 6].getD mode 7
    let ext := fun (x : Nat) => if bitsAt x (n - 1) 1 = 1 then (bitsAt x 0 n : Int) - 2 ^ n else (bitsAt x 0 n : Int)
    let sh : Int := 2 ^ (mode / 2 ^^^ 3)
    let a : Int := va * sh
    let b0 : Int := vb0 * sh
    let b1 : Int := vb1 * sh
    let c : Int := vc * sh
    let hi := [a, a - b0, a - b1]
    let lo := [a - c, a - b0 - c - ext (v 4) * sh, a - b1 - c - ext (v 5) * sh]
    (astcSwap major (lo.map (clampI 4095)), astcSwap major (hi.map (clampI 4095)))

/-- HDR alpha (mode 15). -/
def astcHdrAlpha (v6 v7 : Nat) : Int × Int :=
  let sel := v6 / 128 % 2 + v7 / 128 % 2 * 2
  let a := v6 % 128
  let b := v7 % 128
  if sel = 3 then ((a * 32 : Nat), (b * 32 : Nat))
  else
    let lo : Int := (((a ||| (b * 2 ^ (sel + 1) &&& 0x780)) * 2 ^ (4 - sel) : Nat) : Int)
    let d := (b &&& 0x3F / 2 ^ sel) ^^^ 32 / 2 ^ sel
    (lo, clampI 4095 (lo + ((d : Int) - (32 / 2 ^ sel : Nat)) * 2 ^ (4 - sel)))

/-- The endpoints that a mode and its values give. -/
def astcEnds (mode : Nat) (v : Nat → Nat) : AstcEnds :=
  let i := fun (j : Nat) => (v j : Int)
  let grey := fun (y a : Int) => [y, y, y, a]
  match mode with
  | 0 => astcLdr (grey (i 0) 255) (grey (i 1) 255)
  | 1 =>
    let l := v 0 / 4 + v 1 / 64 * 64
    astcLdr (grey l 255) (grey ((l + v 1 % 64 : Nat) : Int) 255)
  | 2 =>
    let (lo, hi) := if v 0 ≤ v 1 then (16 * i 0, 16 * i 1) else (16 * i 1 + 8, 16 * i 0 - 8)
    { lo := grey lo 0x780, hi := grey hi 0x780, hdr := 2 }
  | 3 =>
    let (y, d) := if 128 ≤ v 0 then (v 1 / 32 * 512 + v 0 % 128 * 4, v 1 % 32 * 4) else (v 1 / 16 * 256 + v 0 % 128 * 2, v 1 % 16 * 2)
    { lo := grey y 0x780, hi := grey (min 4095 (y + d) : Nat) 0x780, hdr := 2 }
  | 4 => astcLdr (grey (i 0) (i 2)) (grey (i 1) (i 3))
  | 5 =>
    let (d, l) := astcTransfer (v 1) (v 0)
    let (e, a) := astcTransfer (v 3) (v 2)
    astcLdr (grey l a) (grey (l + d) (a + e))
  | 6 => astcLdr [i 0 * i 3 / 256, i 1 * i 3 / 256, i 2 * i 3 / 256, 255] [i 0, i 1, i 2, 255]
  | 7 =>
    let (lo, hi) := astcHdrScale v
    { lo := lo ++ [0x780], hi := hi ++ [0x780], hdr := 2 }
  | 10 => astcLdr [i 0 * i 3 / 256, i 1 * i 3 / 256, i 2 * i 3 / 256, i 4] [i 0, i 1, i 2, i 5]
  | 11 =>
    let (lo, hi) := astcHdrDirect v
    { lo := lo ++ [0x780], hi := hi ++ [0x780], hdr := 2 }
  | 14 =>
    let (lo, hi) := astcHdrDirect v
    { lo := lo ++ [i 6], hi := hi ++ [i 7], hdr := 1 }
  | 15 =>
    let (lo, hi) := astcHdrDirect v
    let (a, b) := astcHdrAlpha (v 6) (v 7)
    { lo := lo ++ [a], hi := hi ++ [b], hdr := 2 }
  | _ =>
    let alpha := 12 ≤ mode
    if mode % 2 = 0 then
      let lo := [i 0, i 2, i 4, if alpha then i 6 else 255]
      let hi := [i 1, i 3, i 5, if alpha then i 7 else 255]
      if v 0 + v 2 + v 4 ≤ v 1 + v 3 + v 5 then astcLdr lo hi else astcLdr (astcContract hi) (astcContract lo)
    else
      let p := fun (j : Nat) => astcTransfer (v (2 * j + 1)) (v (2 * j))
      let lo := [(p 0).2, (p 1).2, (p 2).2, if alpha then (p 3).2 else 255]
      let hi := [(p 0).1 + (p 0).2, (p 1).1 + (p 1).2, (p 2).1 + (p 2).2, if alpha then (p 3).1 + (p 3).2 else 255]
      if 0 ≤ (p 0).1 + (p 1).1 + (p 2).1 then astcLdr lo hi else astcLdr (astcContract hi) (astcContract lo)

/-! ## A texel -/

/-- A channel of a decoded texel: sixteen bits as a fraction, eight bits of an sRGB curve, or an FP16 pattern. -/
inductive AstcOut where
  | unorm (c : Nat)
  | srgb (c : Nat)
  | half (b : Nat)
deriving DecidableEq, Repr

/-- A channel between two endpoints at a weight. -/
def astcMix (srgb : Bool) (e : AstcEnds) (w ch : Nat) : AstcOut :=
  let lo := (e.lo.getD ch 0).toNat
  let hi := (e.hi.getD ch 0).toNat
  let mix := fun (a b : Nat) => (a * (64 - w) + b * w + 32) / 64
  if e.hdr = 2 ∨ (e.hdr = 1 ∧ ch < 3) then
    let c := mix (16 * lo) (16 * hi)
    let m := c % 2048
    let mt := if m < 512 then 3 * m else if 1536 ≤ m then 5 * m - 2048 else 4 * m - 512
    .half (min 0x7BFF (c / 2048 * 1024 + mt / 8))
  else if srgb ∧ ch < 3 then .srgb (mix (256 * lo + 128) (256 * hi + 128) / 256)
  else .unorm (mix (257 * lo) (257 * hi))

/-- The channels of a void-extent block, whose one colour fills its texels. -/
def astcVoid (hdr srgb : Bool) (v ch : Nat) : Option AstcOut :=
  let c := bitsAt v (64 + 16 * ch) 16
  let f := fun (i : Nat) => bitsAt v (12 + 13 * i) 13
  let all := (List.range 4).all fun i => f i == 0x1FFF
  if bitsAt v 10 2 ≠ 3 ∨ (!all ∧ (f 1 ≤ f 0 ∨ f 3 ≤ f 2)) then none
  else if bitsAt v 9 1 = 1 then (if hdr then some (.half c) else none)
  else if srgb ∧ ch < 3 then some (.srgb (c / 256)) else some (.unorm c)

/-- The endpoint modes of a block's partitions, the place of its colour data, and the bits of its modes that lie under the weights. -/
def astcModes (v parts below : Nat) : List Nat × Nat × Nat :=
  if parts = 1 then ([bitsAt v 13 4], 17, 0)
  else
    let cls := bitsAt v 23 2
    if cls = 0 then (List.replicate parts (bitsAt v 25 4), 29, 0)
    else
      let extra := 3 * parts - 4
      let code := bitsAt v 25 4 + 16 * bitsAt v (below - extra) extra
      ((List.range parts).map fun i => 4 * (bitsAt code i 1 + cls - 1) + bitsAt code (parts + 2 * i) 2, 29, extra)

/-- The bits of a block in reverse order, in which its weights are stored. -/
def reversed (v : Nat) : Nat := sumN ((List.range 128).map fun i => bitsAt v i 1 * 2 ^ (127 - i))

/-- A channel of a texel of a block of w × h texels; none where the block is an error. -/
def astcChannel (hdr srgb : Bool) (w h v x y ch : Nat) : Option AstcOut :=
  if bitsAt v 0 9 = 0x1FC then astcVoid hdr srgb v ch
  else
    match astcGrid (bitsAt v 0 11) with
    | none => none
    | some g =>
      let parts := bitsAt v 11 2 + 1
      let below := 128 - g.bits
      let (modes, first, extra) := astcModes v parts below
      let n := sumN (modes.map fun m => m / 4 * 2 + 2)
      let room := below - extra - (if g.dual then 2 else 0) - first
      if 64 < g.count ∨ g.bits < 24 ∨ 96 < g.bits ∨ w < g.w ∨ h < g.h ∨ (g.dual ∧ parts = 4) ∨ 18 < n ∨
          below < first + extra + (if g.dual then 2 else 0) then none
      else
        match ((List.range 17).map (· + 4)).reverse.find? fun q => decide ((astcRange q).size n ≤ room) with
        | none => none
        | some q =>
          let r := astcRange q
          let cs := (r.values v first n).map r.colour
          let p := if parts = 1 then 0 else astcPartition (bitsAt v 13 10) parts x y (decide (w * h < 31))
          let at_ := sumN ((modes.take p).map fun m => m / 4 * 2 + 2)
          let e := astcEnds (modes.getD p 0) fun i => cs.getD (at_ + i) 0
          if e.hdr ≠ 0 ∧ !hdr then none
          else
            let wr := astcRange g.range
            let ws := (wr.values (reversed v) 0 g.count).map wr.weight
            let second := g.dual && bitsAt v (below - extra - 2) 2 == ch
            let weight := g.texelWeight w h x y fun i => ws.getD (if g.dual then 2 * i + b2n second else i) 0
            some (astcMix srgb e weight ch)

end Sys2Proof.Machine
end

