-- ==== Sys2Proof/Machine/Float.lean ====
section
/-! DEFINITION. Binary floating point as the Heith instructions, the atomic units and the Nersovo engine compute it: exact
values, one rounding (R42, R101, R102, R168). Special values follow IEEE 754, by which chapter 05 defines FP16 and FP32
(log entry 24). What the spec leaves open is free (log entries 10 and 20); the argument k names the free choice. -/

namespace Sys2Proof.Machine

/-! ## Formats and values -/

/-- A binary format: exponent and fraction widths. -/
structure Fmt where
  eb : Nat
  mb : Nat
deriving DecidableEq, Repr

def f16 : Fmt := { eb := 5, mb := 10 }
def bf16 : Fmt := { eb := 8, mb := 7 }
def f32 : Fmt := { eb := 8, mb := 23 }
def f64 : Fmt := { eb := 11, mb := 52 }

/-- The exponent bias. -/
def Fmt.bias (f : Fmt) : Nat := 2 ^ (f.eb - 1) - 1

/-- The pattern of +infinity. -/
def Fmt.infBits (f : Fmt) : Nat := (2 ^ f.eb - 1) <<< f.mb

/-- The weight of the last place of a subnormal number, as a power of two. -/
def Fmt.minExp (f : Fmt) : Int := 1 - Int.ofNat f.bias - Int.ofNat f.mb

/-- The width in bits. -/
def Fmt.width (f : Fmt) : Nat := 1 + f.eb + f.mb

/-- A value: NaN, an infinity, or a finite number m × 2^e with its sign. `more` says that the exact value lies strictly
between m and m + 1 units. -/
inductive FVal where
  | nan
  | inf (neg : Bool)
  | fin (neg : Bool) (m : Nat) (e : Int) (more : Bool)
deriving DecidableEq, Repr

/-- The value of a pattern. -/
def Fmt.value (f : Fmt) (b : Nat) : FVal :=
  let neg := b.testBit (f.eb + f.mb)
  let ex := fld b (f.eb + f.mb - 1) f.mb
  let fr := b % 2 ^ f.mb
  if ex = 2 ^ f.eb - 1 then (if fr = 0 then .inf neg else .nan)
  else if ex = 0 then .fin neg fr f.minExp false
  else .fin neg (2 ^ f.mb + fr) (f.minExp + Int.ofNat (ex - 1)) false

/-- The rounding modes (R101). -/
inductive RMode where
  | nearest | zero | up | down
deriving DecidableEq, Repr

/-- Whether a magnitude is moved up one unit: the remainder doubled is compared with the unit. -/
def roundsUp (mode : RMode) (neg odd : Bool) (twiceRem unit : Nat) (more : Bool) : Bool :=
  match mode with
  | .nearest => decide (unit < twiceRem) || (decide (twiceRem = unit) && (more || odd))
  | .zero => false
  | .up => !neg && (decide (twiceRem ≠ 0) || more)
  | .down => neg && (decide (twiceRem ≠ 0) || more)

/-- Whether overflow gives infinity, not the largest number (IEEE 754). -/
def overflowsToInf (mode : RMode) (neg : Bool) : Bool :=
  match mode with
  | .nearest => true
  | .zero => false
  | .up => !neg
  | .down => neg

/-- The magnitude bits of m × 2^e (and more) rounded to a format. -/
def Fmt.roundMag (f : Fmt) (mode : RMode) (neg : Bool) (m : Nat) (e : Int) (more : Bool) : Nat :=
  let k := max (Int.ofNat (Nat.log2 m) + e - Int.ofNat f.mb) f.minExp
  let q := if e ≤ k then m >>> (k - e).toNat else m <<< (e - k).toNat
  let unit := if e ≤ k then 2 ^ (k - e).toNat else 1
  let rem := if e ≤ k then m % unit else 0
  let q := if roundsUp mode neg (q % 2 == 1) (2 * rem) unit more then q + 1 else q
  let b := ((k - f.minExp).toNat) <<< f.mb
  let b := b + q
  if b < f.infBits then b else if overflowsToInf mode neg then f.infBits else f.infBits - 1

/-- The pattern with a sign. -/
def Fmt.signed (f : Fmt) (neg : Bool) (mag : Nat) : Nat := mag + at' (b2n neg) (f.eb + f.mb)

/-- A produced NaN: sign and fraction are free, the fraction is not zero (log entry 10). -/
def Fmt.nanBits (f : Fmt) (k : Nat) : Nat :=
  f.signed (Config.signBit (4 * k)) (f.infBits + (1 + Config.nanPayload k % (2 ^ f.mb - 1)))

/-- What MOD gives an FP instruction (R101). -/
structure FpCtl where
  mode : RMode
  ftz  : Bool
  sat  : Bool
deriving DecidableEq, Repr

/-- Rounding to nearest even, subnormals kept, no saturation (R42, R168). -/
def fpPlain : FpCtl := { mode := .nearest, ftz := false, sat := false }

/-- The rounding mode of MOD [4:3]. -/
def rmodeOf (m : Nat) : RMode :=
  match m % 4 with
  | 0 => .nearest
  | 1 => .zero
  | 2 => .up
  | _ => .down

/-- The control that MOD gives an FP arithmetic instruction (R101). -/
def fpCtlOf (m : Nat) : FpCtl := { mode := rmodeOf (fld m 4 3), ftz := bitOf m 2, sat := bitOf m 1 }

/-- A zero of unstated sign. -/
def freeZero (k : Nat) (e : Int) : FVal := .fin (Config.signBit k) 0 e false

/-- An input: subnormal inputs are flushed to zero when MOD says so (R101). -/
def Fmt.input (f : Fmt) (c : FpCtl) (k : Nat) (b : Nat) : FVal :=
  match f.value b with
  | .fin neg m e more => if c.ftz ∧ m ≠ 0 ∧ m < 2 ^ f.mb then freeZero k e else .fin neg m e more
  | v => v

/-- A value saturated to [0.0, 1.0] (R101); a zero's sign is then free. -/
def saturate (k : Nat) : FVal → FVal
  | .nan => .nan
  | .inf true => freeZero k 0
  | .inf false => .fin false 1 0 false
  | .fin true _ _ _ => freeZero k 0
  | .fin false m e more =>
    if m = 0 ∧ !more then .fin (Config.signBit k) 0 0 false
    else if 0 ≤ Int.ofNat (Nat.log2 m) + e then .fin false 1 0 false
    else .fin false m e more

/-- The pattern of a result: saturated, rounded once, flushed (R101). The saturation of a NaN has no stated result. -/
def Fmt.result (f : Fmt) (c : FpCtl) (k : Nat) (v : FVal) : Nat :=
  match (if c.sat then saturate (4 * k + 3) v else v) with
  | .nan => if c.sat then Config.fpFree k % 2 ^ f.width else f.nanBits k
  | .inf neg => f.signed neg f.infBits
  | .fin neg m e more =>
    if m = 0 ∧ !more then f.signed neg 0
    else
      let b := f.roundMag c.mode neg m e more
      if c.ftz ∧ b ≠ 0 ∧ b < 2 ^ f.mb then f.signed (Config.signBit (4 * k + 3)) 0 else f.signed neg b

/-! ## Exact arithmetic -/

/-- The sign of a value. -/
def FVal.neg : FVal → Bool
  | .nan => false
  | .inf n => n
  | .fin n _ _ _ => n

/-- A finite value as a signed number of units of 2^e. -/
def signedUnits (neg : Bool) (m : Nat) (e u : Int) : Int :=
  let x := Int.ofNat (m <<< (e - u).toNat)
  if neg then -x else x

/-- Exact sum; an exact zero of unlike signs is +0, or -0 when rounding down (IEEE 754). -/
def fAdd (mode : RMode) : FVal → FVal → FVal
  | .nan, _ => .nan
  | _, .nan => .nan
  | .inf a, .inf b => if a = b then .inf a else .nan
  | .inf a, .fin _ _ _ _ => .inf a
  | .fin _ _ _ _, .inf b => .inf b
  | .fin a ma ea _, .fin b mb eb _ =>
    let u := min ea eb
    let x := signedUnits a ma ea u + signedUnits b mb eb u
    if x = 0 then .fin (if a = b then a else decide (mode = .down)) 0 u false
    else .fin (decide (x < 0)) x.natAbs u false

/-- The negative of a value. -/
def fNeg : FVal → FVal
  | .nan => .nan
  | .inf n => .inf (!n)
  | .fin n m e r => .fin (!n) m e r

/-- Exact product. -/
def fMul : FVal → FVal → FVal
  | .nan, _ => .nan
  | _, .nan => .nan
  | .inf a, .inf b => .inf (a != b)
  | .inf a, .fin b m _ _ => if m = 0 then .nan else .inf (a != b)
  | .fin a m _ _, .inf b => if m = 0 then .nan else .inf (a != b)
  | .fin a ma ea _, .fin b mb eb _ => .fin (a != b) (ma * mb) (ea + eb) false

/-- Exact product and sum. -/
def fMulAdd (mode : RMode) (x y z : FVal) : FVal := fAdd mode (fMul x y) z

/-- Whether one value is less than another; neither is NaN, and zeros are equal. -/
def fLess : FVal → FVal → Bool
  | .inf true, .inf true => false
  | .inf true, .nan => false
  | .inf true, _ => true
  | .inf false, _ => false
  | .nan, _ => false
  | _, .nan => false
  | .fin _ _ _ _, .inf n => !n
  | .fin a ma ea _, .fin b mb eb _ =>
    let u := min ea eb
    decide (signedUnits a ma ea u < signedUnits b mb eb u)

/-- Equality as numbers. -/
def fEq (x y : FVal) : Bool := decide (x ≠ .nan) && decide (y ≠ .nan) && !(fLess x y) && !(fLess y x)

/-- FMIN: a NaN only when both inputs are NaN (R102); of two equal numbers either may be given. -/
def fMin (k : Nat) (x y : FVal) : FVal :=
  if x = .nan then y else if y = .nan then x
  else if fLess x y then x else if fLess y x then y else if Config.signBit k then x else y

/-- FMAX, as FMIN. -/
def fMax (k : Nat) (x y : FVal) : FVal :=
  if x = .nan then y else if y = .nan then x
  else if fLess y x then x else if fLess x y then y else if Config.signBit k then x else y

/-- The integer square root of n, bit by bit from 2^bits down. -/
def isqrtFrom (n : Nat) : Nat → Nat → Nat
  | 0, r => r
  | b + 1, r => isqrtFrom n b (if (r + 2 ^ b) * (r + 2 ^ b) ≤ n then r + 2 ^ b else r)

/-- The integer square root. -/
def isqrt (n : Nat) : Nat := isqrtFrom n (Nat.log2 n / 2 + 1) 0

/-- Square root, to 80 places and more (R102: correctly rounded). -/
def fSqrt : FVal → FVal
  | .nan => .nan
  | .inf n => if n then .nan else .inf false
  | .fin n m e _ =>
    if m = 0 then .fin n 0 e false
    else if n then .nan
    else
      let odd := decide (e % 2 = 1)
      let m := if odd then 2 * m else m
      let e := if odd then e - 1 else e
      let big := m <<< 160
      let r := isqrt big
      .fin false r (e / 2 - 80) (r * r != big)

/-! ## Operations that the spec bounds (R102) -/

/-- Places of the fixed-point numbers in which bounded results are compared. -/
def fixPlaces : Nat := 340

/-- A finite value as a fixed-point number. -/
def toFixed (m : Nat) (e : Int) : Nat :=
  let s := e + Int.ofNat fixPlaces
  if 0 ≤ s then m <<< s.toNat else m >>> (-s).toNat

/-- The unit in the last place of FP32 at a positive fixed-point value. -/
def fixUlp (v : Nat) : Nat := 2 ^ (max (Nat.log2 v) (fixPlaces - 126) - 23)

/-- A result within n ulp of a positive fixed-point value: the free candidate when it lies within the bound, else the
value rounded (log entry 20). The fixed-point value is exact to far less than an ulp. -/
def within (n : Nat) (c : FpCtl) (k : Nat) (neg : Bool) (v : Nat) : FVal :=
  match f32.value (Config.fpFree k % 2 ^ 32) with
  | .fin s m e _ =>
    let y := toFixed m e
    if s = neg ∧ y ≤ v + n * fixUlp v + 2 ∧ v ≤ y + n * fixUlp v + 2 then .fin s m e false
    else f32.value (f32.signed neg (f32.roundMag c.mode neg v (-Int.ofNat fixPlaces) true))
  | _ => f32.value (f32.signed neg (f32.roundMag c.mode neg v (-Int.ofNat fixPlaces) true))

/-- A result that the spec states nothing about. -/
def freeF32 (k : Nat) : FVal := f32.value (Config.fpFree k % 2 ^ 32)

/-- FRECIP: within 1 ulp; no result is stated for zero and infinity. -/
def fRecip (c : FpCtl) (k : Nat) : FVal → FVal
  | .nan => .nan
  | .inf _ => freeF32 k
  | .fin n m e _ =>
    if m = 0 then freeF32 k
    else within 1 c k n (toFixed (2 ^ 400 / m) (-e - 400))

/-- FRSQRT: within 2 ulp; no result is stated for zero, negative numbers and infinity. -/
def fRsqrt (c : FpCtl) (k : Nat) : FVal → FVal
  | .nan => .nan
  | .inf _ => freeF32 k
  | .fin n m e _ =>
    if m = 0 ∨ n then freeF32 k
    else
      let odd := decide (e % 2 = 1)
      let m := if odd then 2 * m else m
      let e := if odd then e - 1 else e
      within 2 c k false (toFixed (isqrt (2 ^ 800 / m)) (-(e / 2) - 400))

/-- Places of the fixed-point numbers in which the elementary functions are computed. -/
def elemPlaces : Nat := 160

/-- The product of 2^(2^-i) over the bits of a fraction of n bits, highest bit first; root is 2^(2^-i) so far. -/
def exp2Bits : Nat → Nat → Nat → Nat → Nat
  | 0, _, _, acc => acc
  | n + 1, fr, root, acc =>
    let root := isqrt (root <<< elemPlaces)
    exp2Bits n fr root (if fr.testBit n then (acc * root) >>> elemPlaces else acc)

/-- FEXP2: within 2 ulp; no result is stated for an infinity. -/
def fExp2 (c : FpCtl) (k : Nat) : FVal → FVal
  | .nan => .nan
  | .inf _ => freeF32 k
  | .fin n m e _ =>
    let big := Int.ofNat (Nat.log2 m) + e
    if m ≠ 0 ∧ 8 ≤ big then (if n then within 2 c k false 1 else .fin false 1 1000 false)
    else
      let x := if 0 ≤ e + 96 then m <<< (e + 96).toNat else m >>> (-(e + 96)).toNat
      let t : Int := if n then -(Int.ofNat x) else Int.ofNat x
      let i := t / 2 ^ 96
      let fr := (t - i * 2 ^ 96).toNat
      let p := exp2Bits 96 fr (2 ^ (elemPlaces + 1)) (2 ^ elemPlaces)
      if -200 ≤ i then within 2 c k false (toFixed p (i - Int.ofNat elemPlaces)) else within 2 c k false 1

/-- n bits of the base-2 logarithm of a fixed-point number in [1, 2), below a result so far. -/
def log2Bits : Nat → Nat → Nat → Nat
  | 0, _, acc => acc
  | n + 1, x, acc =>
    let y := (x * x) >>> elemPlaces
    if 2 ^ (elemPlaces + 1) ≤ y then log2Bits n (y / 2) (2 * acc + 1) else log2Bits n y (2 * acc)

/-- FLOG2: within 2 ulp; no result is stated for zero, negative numbers and infinity. -/
def fLog2 (c : FpCtl) (k : Nat) : FVal → FVal
  | .nan => .nan
  | .inf _ => freeF32 k
  | .fin n m e _ =>
    if m = 0 ∨ n then freeF32 k
    else
      let l := Nat.log2 m
      let x := (m <<< elemPlaces) >>> l
      let v : Int := (Int.ofNat l + e) * 2 ^ 76 + Int.ofNat (log2Bits 76 x 0)
      if v = 0 then .fin false 0 0 false else within 2 c k (decide (v < 0)) (toFixed v.natAbs (-76))

/-- The terms x^j / j! of a series from j on, every second one, with alternating signs. -/
def trigSum (x2 : Nat) : Nat → Nat → Nat → Bool → Int
  | 0, _, _, _ => 0
  | n + 1, j, term, neg =>
    (if neg then -(Int.ofNat term) else Int.ofNat term) +
      trigSum x2 n (j + 2) (((term * x2) >>> elemPlaces) / ((j + 1) * (j + 2))) (!neg)

/-- A result within an absolute error of 2^-21 of a value in elemPlaces places. -/
def withinTrig (c : FpCtl) (k : Nat) (v : Int) : FVal :=
  let good := fun (s : Bool) (m : Nat) (e : Int) =>
    let sh := e + Int.ofNat elemPlaces
    let y := if 0 ≤ sh then m <<< sh.toNat else m >>> (-sh).toNat
    decide (((if s then -(Int.ofNat y) else Int.ofNat y) - v).natAbs ≤ 2 ^ (elemPlaces - 21) + 2)
  let rounded := if v = 0 then FVal.fin false 0 0 false
    else f32.value (f32.signed (decide (v < 0)) (f32.roundMag c.mode (decide (v < 0)) v.natAbs (-Int.ofNat elemPlaces) true))
  match f32.value (Config.fpFree k % 2 ^ 32) with
  | .fin s m e r => if e ≤ 8 ∧ good s m e then .fin s m e r else rounded
  | _ => rounded

/-- FSIN and FCOS: an absolute error within 2^-21 for abs(x) ≤ π; no result is stated elsewhere. `b` is the operand's
pattern after the flush of R101. -/
def fTrig (cos : Bool) (c : FpCtl) (k : Nat) : FVal → FVal
  | .nan => .nan
  | .inf _ => freeF32 k
  | .fin n m e _ =>
    if Int.ofNat (Nat.log2 m) + e ≤ 1 ∧ f32.roundMag .nearest false m e false ≤ 0x40490FDA then
      let s := e + Int.ofNat elemPlaces
      let x := if 0 ≤ s then m <<< s.toNat else m >>> (-s).toNat
      let x2 := (x * x) >>> elemPlaces
      if cos then withinTrig c k (trigSum x2 30 0 (2 ^ elemPlaces) false)
      else withinTrig c k (let v := trigSum x2 30 1 x false; if n then -v else v)
    else freeF32 k

/-! ## Compares and conversions -/

/-- A compare code of R101 on two values; NaN is unordered. -/
def fCompare (cond : Nat) (x y : FVal) : Bool :=
  let nan := decide (x = .nan) || decide (y = .nan)
  match cond with
  | 0 => fEq x y
  | 1 => !(fEq x y)
  | 2 => fLess x y
  | 3 => fLess x y || fEq x y
  | 4 => fLess y x
  | 5 => fLess y x || fEq x y
  | 6 => !nan
  | _ => nan

/-- The integer nearest to a value in a rounding mode. -/
def roundInt (mode : RMode) (neg : Bool) (m : Nat) (e : Int) : Int :=
  let q := if 0 ≤ e then m <<< e.toNat else m >>> (-e).toNat
  let unit := if 0 ≤ e then 1 else 2 ^ (-e).toNat
  let rem := if 0 ≤ e then 0 else m % unit
  let q := if roundsUp mode neg (q % 2 == 1) (2 * rem) unit false then q + 1 else q
  if neg then -(Int.ofNat q) else Int.ofNat q

/-- An integer brought into a range. -/
def clampInt (lo hi v : Int) : Int := if v < lo then lo else if hi < v then hi else v

/-- The value of an integer. -/
def fOfInt (v : Int) : FVal := .fin (decide (v < 0)) v.natAbs 0 false

/-- One and zero. -/
def fOne : FVal := .fin false 1 0 false
def fZero : FVal := .fin false 0 0 false

end Sys2Proof.Machine
end

