-- ==== Sys2Proof/Machine/Exact.lean ====
section
/-! DEFINITION. Exact geometry over the rational values of FP32 numbers: what the ray unit (R132 to R134), the assembly of
primitives (R117) and texture sampling (R128) compute before they round. -/

namespace Sys2Proof.Machine

/-! ## Numbers -/

/-- A number m × 2^e. -/
def scaled (m : Int) (e : Int) : Rat := if 0 ≤ e then (m * 2 ^ e.toNat : Int) else mkRat m (2 ^ (-e).toNat)

/-- The exact value of a finite value. -/
def FVal.exact? : FVal → Option Rat
  | .fin neg m e _ => some (scaled (if neg then -(Int.ofNat m) else Int.ofNat m) e)
  | _ => none

/-- The exact value of an FP32 pattern; none for an infinity and a NaN. -/
def exactOf (w : Nat) : Option Rat := (f32.value (w % 2 ^ 32)).exact?

/-- A bound of a ray as a number: an infinity lies beyond every FP32 number, a NaN bounds nothing. -/
def boundOf (w : Nat) : Option Rat :=
  match f32.value (w % 2 ^ 32) with
  | .inf neg => some (if neg then -(2 ^ 200 : Nat) else (2 ^ 200 : Nat))
  | v => v.exact?

/-- One of the two FP32 neighbours of an exact number: away from zero or towards it. A number that FP32 holds is itself, and of
the two zeros `neg0` gives the sign. -/
def roundRat (away neg0 : Bool) (q : Rat) : Word :=
  if q.num = 0 then BitVec.ofNat 32 (f32.signed neg0 0)
  else
    let neg := decide (q.num < 0)
    let k := Nat.log2 q.den + 200
    let m := q.num.natAbs * 2 ^ k / q.den
    let more := decide (m * q.den ≠ q.num.natAbs * 2 ^ k)
    let low := f32.roundMag .zero false m (-(Int.ofNat k)) more
    let high := f32.roundMag .up false m (-(Int.ofNat k)) more
    BitVec.ofNat 32 (f32.signed neg (if low = high then low else if away then high else low))

/-! ## Scaling -/

/-- The position among `inn` samples of an axis that position o of `out` comes from, where the scale maps the centres of the
samples or their corners; it stays among the samples. Where the sizes agree both give the position itself. -/
def axisPos (centre : Bool) (out inn o : Nat) : Rat :=
  if out = inn then mkRat o 1
  else max 0 (min (if centre then mkRat ((2 * o + 1) * inn) (2 * out) - mkRat 1 2 else mkRat (o * inn) out) (mkRat inn 1 - 1))

/-- The samples on both sides of a position, with their weights; one of them at a sample. -/
def linearTaps (p : Rat) : List (Nat × Rat) :=
  let i := p.floor.toNat
  let f := p - p.floor
  if f = 0 then [(i, 1)] else [(i, 1 - f), (i + 1, f)]

/-! ## Vectors -/

structure Vec3 where
  x : Rat
  y : Rat
  z : Rat
deriving DecidableEq, Repr

def Vec3.sub (a b : Vec3) : Vec3 := { x := a.x - b.x, y := a.y - b.y, z := a.z - b.z }

def Vec3.dot (a b : Vec3) : Rat := a.x * b.x + a.y * b.y + a.z * b.z

def Vec3.cross (a b : Vec3) : Vec3 :=
  { x := a.y * b.z - a.z * b.y, y := a.z * b.x - a.x * b.z, z := a.x * b.y - a.y * b.x }

/-- A vector of three FP32 patterns. -/
def vecOf (f : Nat → Nat) : Option Vec3 :=
  match exactOf (f 0), exactOf (f 1), exactOf (f 2) with
  | some x, some y, some z => some { x := x, y := y, z := z }
  | _, _, _ => none

/-! ## Rays, boxes and triangles -/

/-- A ray: the points o + t d with lo ≤ t ≤ hi. -/
structure ExactRay where
  o  : Vec3
  d  : Vec3
  lo : Rat
  hi : Rat
deriving DecidableEq, Repr

/-- The part of an interval of t in which o + t d lies between two planes. -/
def slab (o d a b : Rat) (i : Option (Rat × Rat)) : Option (Rat × Rat) :=
  match i with
  | none => none
  | some (lo, hi) =>
    if d = 0 then (if a ≤ o ∧ o ≤ b then some (lo, hi) else none)
    else
      let t := (a - o) / d
      let u := (b - o) / d
      let lo := max lo (if 0 < d then t else u)
      let hi := min hi (if 0 < d then u else t)
      if lo ≤ hi then some (lo, hi) else none

/-- Whether a ray meets a box, its faces included. -/
def ExactRay.meetsBox (r : ExactRay) (a b : Vec3) : Bool :=
  (slab r.o.z r.d.z a.z b.z (slab r.o.y r.d.y a.y b.y (slab r.o.x r.d.x a.x b.x
    (if r.lo ≤ r.hi then some (r.lo, r.hi) else none)))).isSome

/-- Where the line of a ray meets a triangle, its edges included, so that a ray that crosses a shared edge hits both (R134: at
least one): t, the weights u and v of the second and third vertices, and whether it is wound counter-clockwise as seen from the
origin, in right-handed axes. A triangle seen edge on is not hit (log entry 138). -/
def ExactRay.meetsTri (r : ExactRay) (a b c : Vec3) : Option (Rat × Rat × Rat × Bool) :=
  let e := b.sub a
  let f := c.sub a
  let p := r.d.cross f
  let det := e.dot p
  if det = 0 then none
  else
    let o := r.o.sub a
    let q := o.cross e
    let u := o.dot p / det
    let v := r.d.dot q / det
    if 0 ≤ u ∧ 0 ≤ v ∧ u + v ≤ 1 then some (f.dot q / det, u, v, decide (0 < det)) else none

end Sys2Proof.Machine
end

