-- ==== Sys2Proof/Machine/Surface.lean ====
section
/-! DEFINITION. The block layout of surfaces and the tile state tables (R119, R123 to R126). -/

namespace Sys2Proof.Machine

/-- The width and height in elements of a micro-tile, by the bytes of an element (R124). -/
def microTile (e : Nat) : Nat × Nat :=
  if e = 1 then (16, 8) else if e = 2 then (8, 8) else if e = 4 then (8, 4) else if e = 8 then (4, 4) else (4, 2)

/-- The Morton place of micro-tile (mx, my) in its block (R124). -/
def mortonPlace (mx my : Nat) : Nat :=
  mx % 2 + my % 2 * 2 + mx / 2 % 2 * 4 + my / 2 % 2 * 8 + mx / 4 % 2 * 16

/-- The offset of element (x, y) of a surface level w elements wide (R124). -/
def blockOffset (e w x y : Nat) : Nat :=
  let (mw, mh) := microTile e
  let bw := 8 * mw
  let bh := 4 * mh
  let m := mortonPlace (x % bw / mw) (y % bh / mh)
  (y / bh * ceilDiv w bw + x / bw) * 4096 + m * 128 + (y % mh * mw + x % mw) * e

/-- The bytes of a surface level of w by h elements, whole blocks (R124, R125). -/
def levelBytes (e w h : Nat) : Nat :=
  let (mw, mh) := microTile e
  ceilDiv w (8 * mw) * ceilDiv h (4 * mh) * 4096

/-- The bytes of an element, by the format code (R126). -/
def formatBytes (f : Nat) : Nat :=
  if f = 0x01 ∨ f = 0x02 then 1
  else if f = 0x03 ∨ f = 0x10 ∨ f = 0x11 ∨ f = 0x20 then 2
  else if f = 0x13 ∨ f = 0x14 ∨ f = 0x15 ∨ f = 0x1A ∨ f = 0x30 ∨ f = 0x31 ∨ f = 0x32 ∨ f = 0x34 then 8
  else if f = 0x1B ∨ f = 0x1C ∨ f = 0x33 ∨ f = 0x35 ∨ (0x40 ≤ f ∧ f ≤ 0x4D) ∨ (0x50 ≤ f ∧ f ≤ 0x5D) then 16
  else 4

/-- The offset of the entry of a state tile in a table for a surface of some width in pixels (R119). -/
def tstOffset (width sx sy : Nat) : Nat := 0x80 + 2 * (sy * ceilDiv width 32 + sx)

/-- The bytes of a tile state table for a surface (R119). -/
def tstBytes (width height : Nat) : Nat := 0x80 + 2 * (ceilDiv width 32 * ceilDiv height 32)

end Sys2Proof.Machine
end

