-- ==== Sys2Proof/Machine/Texel.lean ====
section
/-! DEFINITION. Texels: the formats of R126 as channels, their conversion to and from registers, the place of a texel in a
surface with levels and slices (R124, R125), and the entries of a tile state table (R119). -/

namespace Sys2Proof.Machine

/-! ## Channels -/

/-- How the bits of a channel are read (R126). -/
inductive Chan where
  | unorm (n : Nat)
  | snorm (n : Nat)
  | uint (n : Nat)
  | float (f : Fmt) (sign : Bool)
  | srgb

/-- The unsigned small floats of RGB_11_11_10_FLOAT. -/
def uf11 : Fmt := { eb := 5, mb := 6 }
def uf10 : Fmt := { eb := 5, mb := 5 }

/-- Four or fewer channels of one kind and width, from red in the low bits up (log entry 31). -/
def evenChannels (count width : Nat) (c : Chan) : List (Nat × Nat × Chan) :=
  (List.range count).map fun i => (i, width * i, c)

/-- The channels of a format: output channel from red 0 to alpha 3, lowest bit, kind. Compressed formats, RGB9E5 and the
depth formats are not made of channels. `srgb` is the SRGB bit of a texture descriptor. -/
def formatChannels (f : Nat) (srgb : Bool) : List (Nat × Nat × Chan) :=
  match f with
  | 0x01 => evenChannels 1 8 (.unorm 8)
  | 0x02 => evenChannels 1 8 (.uint 8)
  | 0x03 => evenChannels 2 8 (.unorm 8)
  | 0x04 => if srgb then evenChannels 3 8 .srgb ++ [(3, 24, .unorm 8)] else evenChannels 4 8 (.unorm 8)
  | 0x05 => evenChannels 3 8 .srgb ++ [(3, 24, .unorm 8)]
  | 0x06 => [(0, 16, .unorm 8), (1, 8, .unorm 8), (2, 0, .unorm 8), (3, 24, .unorm 8)]
  | 0x07 => evenChannels 4 8 (.snorm 8)
  | 0x08 => evenChannels 4 8 (.uint 8)
  | 0x09 => evenChannels 3 10 (.unorm 10) ++ [(3, 30, .unorm 2)]
  | 0x0A => [(0, 0, .float uf11 false), (1, 11, .float uf11 false), (2, 22, .float uf10 false)]
  | 0x10 => evenChannels 1 16 (.float f16 true)
  | 0x11 => evenChannels 1 16 (.unorm 16)
  | 0x12 => evenChannels 2 16 (.float f16 true)
  | 0x13 => evenChannels 4 16 (.float f16 true)
  | 0x14 => evenChannels 4 16 (.unorm 16)
  | 0x15 => evenChannels 4 16 (.uint 16)
  | 0x18 => evenChannels 1 32 (.float f32 true)
  | 0x19 => evenChannels 1 32 (.uint 32)
  | 0x1A => evenChannels 2 32 (.float f32 true)
  | 0x1B => evenChannels 4 32 (.float f32 true)
  | 0x1C => evenChannels 4 32 (.uint 32)
  | _ => []

/-- The width of a channel. -/
def Chan.width : Chan → Nat
  | .unorm n => n
  | .snorm n => n
  | .uint n => n
  | .float f true => f.width
  | .float f false => f.width - 1
  | .srgb => 8

/-- The codes of R126. -/
def formatKnown (f : Nat) : Bool :=
  (decide (1 ≤ f) && decide (f ≤ 0x0B)) || (decide (0x10 ≤ f) && decide (f ≤ 0x15)) || (decide (0x18 ≤ f) && decide (f ≤ 0x1C)) ||
    (decide (0x20 ≤ f) && decide (f ≤ 0x22)) || (decide (0x30 ≤ f) && decide (f ≤ 0x35)) ||
    (decide (0x40 ≤ f) && decide (f ≤ 0x4D)) || (decide (0x50 ≤ f) && decide (f ≤ 0x5D))

/-- The formats that a colour attachment can have (R126). -/
def colourFormat (f : Nat) : Bool := formatKnown f && decide (f < 0x20) && f != 0x07 && f != 0x0B

/-- The formats that a depth attachment can have (R126). -/
def depthFormat (f : Nat) : Bool := decide (0x20 ≤ f) && decide (f ≤ 0x22)

/-- Whether a format is compressed. -/
def compressedFormat (f : Nat) : Bool := formatKnown f && decide (0x30 ≤ f)

/-- The formats whose values are integers (R126). -/
def uintFormat (f : Nat) : Bool := [0x02, 0x08, 0x15, 0x19, 0x1C].contains f

/-- The value num / den as FP32: exact where it can be, else one of the two neighbours (log entry 31). -/
def ratioF32 (k num den : Nat) : Nat :=
  let m := num * 2 ^ 64 / den
  f32.roundMag (if Config.texBit k then .up else .zero) false m (-64) (decide (num * 2 ^ 64 % den ≠ 0))

/-- Whether an 8-bit sRGB value lies on the linear part of the curve: it is at most 0.04045. -/
def srgbLinear (v : Nat) : Bool := decide (v * 100000 ≤ 4045 * 255)

/-- (v / 255 + 0.055) / 1.055, of which the curve takes the power 2.4. -/
def srgbBase (v : Nat) : Nat × Nat := (1000 * v + 55 * 255, 1055 * 255)

/-- The linear value of an 8-bit sRGB value as FP32: one of the two neighbours of the curve's value (log entry 32). -/
def srgbDecode (k v : Nat) : Nat :=
  if srgbLinear v then (if v = 0 then 0 else ratioF32 k (100 * v) (255 * 1292))
  else
    let (n, d) := srgbBase v
    let r := rootFrom 5 (((n ^ 12) <<< 320) / d ^ 12) 66 0
    f32.roundMag (if Config.texBit k then .up else .zero) false r (-64) (decide (r ^ 5 * d ^ 12 ≠ (n ^ 12) <<< 320))

/-- How the linear value of an 8-bit sRGB value compares with a number: at most it, and equal to it. -/
def srgbAgainst (v : Nat) (x : Rat) : Bool × Bool :=
  let (a, b) := if srgbLinear v then (mkRat (100 * v) (255 * 1292), x)
    else (mkRat ((srgbBase v).1 ^ 12) ((srgbBase v).2 ^ 12), x * x * x * x * x)
  (decide (a ≤ b), decide (a = b))

/-- A value clamped to 0 to 1 as an 8-bit sRGB value: one of the two neighbours of the curve's (log entry 32). -/
def srgbEncode (k : Nat) (x : FVal) : Nat :=
  match x with
  | .nan => Config.texWord k % 256
  | .inf neg => if neg then 0 else 255
  | .fin neg m e more =>
    if neg then 0
    else
      let q := scaled m e
      let n := (List.range 256).countP (fun v => (srgbAgainst v q).1) - 1
      if n = 255 ∨ ((srgbAgainst n q).2 ∧ !more) ∨ !(Config.texBit k) then n else n + 1

/-- A channel as a register receives it. -/
def Chan.decode (k : Nat) (v : Nat) : Chan → Nat
  | .unorm n => if v = 0 then 0 else ratioF32 k v (2 ^ n - 1)
  | .snorm n =>
    let i := signedOf n v
    let m := ratioF32 k (min i.natAbs (2 ^ (n - 1) - 1)) (2 ^ (n - 1) - 1)
    f32.signed (decide (i < 0)) (if i = 0 then 0 else m)
  | .uint _ => v
  | .float f _ => f32.result fpPlain k (f.value v)
  | .srgb => srgbDecode k v

/-- A value between two representable ones becomes one of them; n is the number of units below it. -/
def neighbour (k n : Nat) (exact : Bool) : Nat := if !exact ∧ Config.texBit k then n + 1 else n

/-- A value clamped to 0 to 1 in units of 1 / top. -/
def unitsOf (k top : Nat) : FVal → Nat
  | .nan => Config.texWord k % (top + 1)
  | .inf true => 0
  | .inf false => top
  | .fin true _ _ _ => 0
  | .fin false m e more =>
    let v := m * top
    let q := if 0 ≤ e then v <<< e.toNat else v >>> (-e).toNat
    let exact := !more && (decide (0 ≤ e) || decide (v % 2 ^ (-e).toNat = 0))
    if top ≤ q then top else neighbour k q exact

/-- A value as a small float; one below zero has no stated image in an unsigned format. -/
def smallFloat (k : Nat) (f : Fmt) (sign : Bool) (v : FVal) : Nat :=
  let mode := if Config.texBit k then RMode.up else RMode.down
  match v with
  | .nan => f.nanBits k % 2 ^ (f.width - b2n (!sign))
  | .inf neg => if neg ∧ !sign then Config.texWord k % 2 ^ (f.width - 1) else f.signed neg f.infBits
  | .fin neg m e more =>
    if m = 0 ∧ !more then (if sign then f.signed neg 0 else 0)
    else if neg ∧ !sign then Config.texWord k % 2 ^ (f.width - 1)
    else f.signed neg (f.roundMag mode neg m e more)

/-- A value as a channel stores it; `raw` is the register's word, for integer channels. -/
def Chan.encode (k : Nat) (v : FVal) (raw : Nat) : Chan → Nat
  | .unorm n => unitsOf k (2 ^ n - 1) v
  | .snorm n => Config.texWord k % 2 ^ n
  | .uint n => if raw < 2 ^ n then raw else Config.texWord k % 2 ^ n
  | .float f s => smallFloat k f s v
  | .srgb => srgbEncode k v

/-- The depth of a stored word as FP32 (R126). -/
def depthValue (k f v : Nat) : Nat :=
  match f with
  | 0x20 => Chan.decode k (v % 2 ^ 16) (.unorm 16)
  | 0x21 => v % 2 ^ 32
  | _ => Chan.decode k (v % 2 ^ 24) (.unorm 24)

/-- A depth in FP32 as the format stores it. -/
def depthBits (k f w : Nat) : Nat :=
  match f with
  | 0x20 => unitsOf k (2 ^ 16 - 1) (f32.value w)
  | 0x21 => w
  | _ => unitsOf k (2 ^ 24 - 1) (f32.value w)

/-- RGB9E5: three 9-bit fractions with a common exponent (log entry 31). -/
def rgb9e5 (k v i : Nat) : Nat := f32.result fpPlain k (.fin false (fld v (9 * i + 8) (9 * i)) (Int.ofNat (fld v 31 27) - 24) false)

/-- One channel of a texel of an ETC2 or EAC block; none where the format lacks it (R126; log entry 143). -/
def etcChannel (k f v tx ty i : Nat) : Option Nat :=
  let colour := fun (punch : Bool) (b : Nat) =>
    match etcColour punch b tx ty with
    | none => 0
    | some c => Chan.decode (4 * k + i) (c.getD i 0) (if f = 0x31 then .srgb else .unorm 8)
  let eleven := fun (b : Nat) => let n := eac11 b tx ty; if n = 0 then 0 else ratioF32 (4 * k + i) n 2047
  match f, i with
  | 0x30, 3 => none
  | 0x31, 3 => none
  | 0x32, 3 => some (if (etcColour true (blockBE v 0) tx ty).isSome then 0x3F800000 else 0)
  | 0x33, 3 => some (Chan.decode (4 * k + i) (eacAlpha (blockBE v 0) tx ty) (.unorm 8))
  | 0x33, _ => some (colour false (blockBE v 1))
  | 0x34, 0 => some (eleven (blockBE v 0))
  | 0x34, _ => none
  | 0x35, 0 => some (eleven (blockBE v 0))
  | 0x35, 1 => some (eleven (blockBE v 1))
  | 0x35, _ => none
  | _, _ => some (colour (f == 0x32) (blockBE v 0))

/-- The texels of an element (R126): a compressed block has its footprint. -/
def footprint (f : Nat) : Nat × Nat :=
  if (0x40 ≤ f ∧ f ≤ 0x4D) ∨ (0x50 ≤ f ∧ f ≤ 0x5D) then
    [(4, 4), (5, 4), (5, 5), (6, 5), (6, 6), (8, 5), (8, 6), (8, 8), (10, 5), (10, 6), (10, 8), (10, 10), (12, 10),
     (12, 12)].getD (f % 16) (4, 4)
  else if 0x30 ≤ f ∧ f ≤ 0x35 then (4, 4)
  else (1, 1)

/-- One channel of a texel of an ASTC block; an error block is magenta, and a NaN in an HDR format (R126; log entry 143). -/
def astcTexel (k f : Nat) (srgb : Bool) (v tx ty i : Nat) : Nat :=
  match astcChannel (decide (0x50 ≤ f)) srgb (footprint f).1 (footprint f).2 v tx ty i with
  | none => if 0x50 ≤ f then f32.nanBits (4 * k + i) else if i = 1 then 0 else 0x3F800000
  | some (.unorm c) =>
    if c = 0 then 0 else if c = 65535 then 0x3F800000 else f32.result fpPlain k (f16.value (f16.roundMag .zero false c (-16) false))
  | some (.srgb c) => Chan.decode (4 * k + i) c .srgb
  | some (.half b) => f32.result fpPlain (4 * k + i) (f16.value b)

/-- One channel of a texel, red 0 to alpha 3, from the bytes of its element. A channel that the format lacks is free. -/
def texelChannel (k f : Nat) (srgb : Bool) (v tx ty i : Nat) : Nat :=
  if 0x40 ≤ f then astcTexel k f srgb v tx ty i
  else if compressedFormat f then
    match etcChannel k f v tx ty i with
    | some x => x
    | none => Config.texWord (4 * k + i) % 2 ^ 32
  else if f = 0x0B ∧ i < 3 then rgb9e5 (4 * k + i) v i
  else if depthFormat f ∧ i = 0 then depthValue (4 * k) f v
  else
    match (formatChannels f srgb).find? fun x => x.1 == i with
    | some (_, lo, c) => c.decode (4 * k + i) (v / 2 ^ lo % 2 ^ c.width)
    | none => Config.texWord (4 * k + i) % 2 ^ 32

/-- An element with some channels replaced: those whose bit of the mask is 1. -/
def putChannels (k f : Nat) (mask : Nat) (vs : List FVal) (raws : List Nat) (old : Nat) : Nat :=
  (formatChannels f false).foldl (fun acc x =>
    let (i, lo, c) := x
    if mask.testBit i then
      let new := c.encode (4 * k + i) (vs.getD i .nan) (raws.getD i 0)
      acc - (acc / 2 ^ lo % 2 ^ c.width) * 2 ^ lo + new * 2 ^ lo
    else acc) old

/-! ## Surfaces (R124, R125) -/

/-- A surface: its address, extent in texels, levels and format; depth is 1 except in 3D. -/
structure Surf where
  base   : Nat
  width  : Nat
  height : Nat
  depth  : Nat
  levels : Nat
  format : Nat

/-- Width and height of a level in elements. -/
def Surf.elements (u : Surf) (l : Nat) : Nat × Nat :=
  let (fw, fh) := footprint u.format
  (ceilDiv (max 1 (u.width >>> l)) fw, ceilDiv (max 1 (u.height >>> l)) fh)

/-- The bytes of one depth slice of a level. -/
def Surf.planeBytes (u : Surf) (l : Nat) : Nat :=
  levelBytes (formatBytes u.format) (u.elements l).1 (u.elements l).2

/-- The bytes of a level. -/
def Surf.levelBytes (u : Surf) (l : Nat) : Nat := u.planeBytes l * max 1 (u.depth >>> l)

/-- The bytes of a slice: all of its levels. -/
def Surf.sliceBytes (u : Surf) : Nat := sumN ((List.range u.levels).map u.levelBytes)

/-- The address of the element that holds a texel, and the texel's place in it. -/
def Surf.texel (u : Surf) (slice l z x y : Nat) : Nat × Nat × Nat :=
  let (fw, fh) := footprint u.format
  (u.base + slice * u.sliceBytes + sumN ((List.range l).map u.levelBytes) + z * u.planeBytes l +
    blockOffset (formatBytes u.format) (u.elements l).1 (x / fw) (y / fh), x % fw, y % fh)

/-! ## Tile state tables (R119) -/

/-- STATE of an entry: 0 CLEARED, 1 PARTIAL, 2 WRITTEN; 3 reads as WRITTEN. -/
def tstState (e : Nat) : Nat := min (e % 4) 2

/-- CLEAR_IDX and QMASK of an entry. -/
def tstIdx (e : Nat) : Nat := fld e 4 2
def tstQ (e : Nat) : Nat := fld e 11 8

/-- An entry. -/
def tstEntry (st idx q : Nat) : Nat := st + at' idx 2 + at' q 8

/-- The quadrant of a pixel in its state tile. -/
def quadrant (x y : Nat) : Nat := y / 16 % 2 * 2 + x / 16 % 2

/-- Whether memory holds the pixels of a quadrant (R119). -/
def tstHolds (e q : Nat) : Bool := decide (tstState e = 2) || (decide (tstState e = 1) && (tstQ e).testBit q)

/-- An entry with a quadrant's data in memory (R120): a CLEARED tile first takes QMASK 0. -/
def tstMark (e q : Nat) : Nat :=
  if tstState e = 2 then e
  else
    let m := (if tstState e = 0 then 0 else tstQ e) ||| 2 ^ q
    if m = 15 then tstEntry 2 (tstIdx e) m else tstEntry 1 (tstIdx e) m

end Sys2Proof.Machine
end

