-- ==== Sys2Proof/Machine/Compose.lean ====
section
/-! DEFINITION. The compositor (R207, R208, R212): a layer's pixels read through its surface and its tile state table, scaled and
blended; the flat layer. -/

namespace Sys2Proof.Machine

/-! ## Reads of a pipe -/

/-- A place that the compositor reads: target, physical address, length. -/
abbrev Place := Target × Nat × Nat

/-- Where a pipe reads an address of a context: through its range cache, the entries of ranges that are being withdrawn and
that its applied layers still name included (R209, R312). -/
def State.pipeLook (s : State) (p : Nat) (k : CtxKey) (va n : Nat) : Option Place :=
  let held := match s.pipes[p]? with
    | some u => u.gone
    | none => []
  match ((s.setRangeCache (.pipe p) (held ++ s.rangeCache (.pipe p))).translate1 (.pipe p) k va needR).1 with
  | .ok (e, pa) => some (e.tgt, pa, n)
  | .error _ => none

/-- What a place reads as: zeros where its line of 128 bytes holds an uncorrectable error (R208). A place that is not translated
reads as a free value (log entry 12). -/
def State.scan (s : State) (va : Nat) : Option Place → Nat
  | some (t, a, n) => if s.poisoned t (a / 128 * 128) 128 then 0 else s.mem.readLE t a n
  | none => Config.scanFree va

/-- A pixel of a layer's surface: what is read for it, and its element. A CLEARED tile and an unmarked quadrant read as their
clear slot (R123, R207). -/
def State.layerElem (s : State) (p : Nat) (k : CtxKey) (l : Layer) (x y : Nat) : List Place × Nat :=
  let n := formatBytes l.format
  let entryVa := l.tst + tstOffset (l.surfW + 1) (x / 32) (y / 32)
  let entry := if l.tst = 0 then none else s.pipeLook p k entryVa 2
  let e := if l.tst = 0 then 2 else s.scan entryVa entry
  let va := if tstHolds e (quadrant x y) then l.addr + blockOffset n (l.surfW + 1) x y else l.tst + 16 * tstIdx e
  let at_ := s.pipeLook p k va n
  (entry.toList ++ at_.toList, s.scan va at_ % 2 ^ (8 * n))

/-! ## Colours -/

/-- The four channels of an element of a layer as numbers from 0 to 1: an SRGB format as its UNORM twin, RGBA16_FLOAT clamped
(R207). What a NaN gives is not stated. -/
def layerColour (f w : Nat) : List Rat :=
  (List.range 4).map fun i =>
    match (formatChannels f false).find? fun x => x.1 == i with
    | some (_, lo, .float g _) =>
      match g.value (w / 2 ^ lo % 2 ^ 16) with
      | .nan => mkRat (Config.scanFree w % 1024) 1023
      | .inf neg => if neg then 0 else 1
      | v => max 0 (min 1 (v.exact?.getD 0))
    | some (_, lo, c) => mkRat (w / 2 ^ lo % 2 ^ c.width) (2 ^ c.width - 1)
    | none => 1

/-- The format whose channels a layer's elements have: blending does not linearise. -/
def blendFormat (f : Nat) : Nat := if f = 0x05 then 0x04 else f

/-- A channel rounded to 10 bits; which way a tie goes is not stated (log entry 12). -/
def round10 (q : Rat) : Nat :=
  let v := 1023 * max 0 (min 1 q)
  let n := v.floor.toNat
  let f := v - v.floor
  if 2 * f < 1 then n else if 2 * f = 1 then n + Config.scanFree n % 2 else n + 1

/-- One layer step (R207): a colour with its alpha blended over the 10-bit result below, by BLEND. PLANE_ALPHA has multiplied the
alpha. -/
def blendStep (blend : Nat) (c : List Rat) (below : List Nat) : List Nat :=
  let a := c.getD 3 1
  (enumFrom 0 below).map fun x =>
    let v := c.getD x.1 0
    let under := mkRat x.2 1023
    round10 (match blend with
      | 0 => v
      | 1 => v + under * (1 - a)
      | _ => v * a + under * (1 - a))

/-! ## Layers -/

/-- Whether a layer's rectangle holds a pixel of the pipe. -/
def Layer.covers (l : Layer) (x y : Nat) : Bool :=
  decide (l.dstX ≤ x) && decide (x ≤ l.dstX + l.dstW) && decide (l.dstY ≤ y) && decide (y ≤ l.dstY + l.dstH)

/-- The places of a crop that a pixel of the rectangle takes, with their weights (R207): bilinear, the crop mirrored where FLIP
says so. Whether the scale maps centres or corners is open (log entry 12). -/
def Layer.taps (l : Layer) (x y : Nat) : List (Nat × Nat × Rat) :=
  (linearTaps (axisPos Config.scaleCentre (l.dstW + 1) (l.cropW + 1) (x - l.dstX))).flatMap fun i =>
    (linearTaps (axisPos Config.scaleCentre (l.dstH + 1) (l.cropH + 1) (y - l.dstY))).map fun j =>
      (l.cropX + (if l.flipX then l.cropW - i.1 else i.1), l.cropY + (if l.flipY then l.cropH - j.1 else j.1), i.2 * j.2)

/-- The places that a layer reads for a pixel of its rectangle. -/
def State.layerReads (s : State) (p : Nat) (l : Layer) (x y : Nat) : List Place :=
  match l.key with
  | none => []
  | some k => (l.taps x y).flatMap fun t => (s.layerElem p k l t.1 t.2.1).1

/-- The colour and alpha of a layer at a pixel of its rectangle, PLANE_ALPHA applied (R207). -/
def State.layerPixel (s : State) (p : Nat) (l : Layer) (x y : Nat) : List Rat :=
  match l.key with
  | none => [0, 0, 0, 0]
  | some k =>
    let c := (l.taps x y).foldl (fun acc t =>
      (List.zip acc (layerColour (blendFormat l.format) (s.layerElem p k l t.1 t.2.1).2)).map fun v => v.1 + t.2.2 * v.2) [0, 0, 0, 0]
    c.take 3 ++ [c.getD 3 1 * mkRat l.alpha 255]

/-- The layers of a list blended in order over a result (R207). -/
def State.blendLayers (s : State) (p : Nat) (ls : List Layer) (x y : Nat) (below : List Nat) : List Nat :=
  ls.foldl (fun acc l => if l.enable ∧ l.covers x y then blendStep l.blend (s.layerPixel p l x y) acc else acc) below

/-- DSP_BG as three channels of 10 bits. -/
def PipeCfg.background (c : PipeCfg) : List Nat := [fld c.bg.toNat 29 20, fld c.bg.toNat 19 10, fld c.bg.toNat 9 0]

/-- Active pixels and lines of a pipe's applied timing. -/
def PipeCfg.activeW (c : PipeCfg) : Nat := fld c.timingH.toNat 15 0 + 1
def PipeCfg.activeH (c : PipeCfg) : Nat := fld c.timingV.toNat 15 0 + 1

/-! ## The flat layer (R212, R213) -/

/-- Where a pixel of the flat layer lies. -/
def PipeCfg.flatPlace (c : PipeCfg) (x y : Nat) : Place :=
  (.reservoir, fld c.flatCfg.toNat 7 0 * granuleBytes + blockOffset 4 c.activeW x y, 4)

/-- The word of a pixel of the flat layer: the 10-bit results of the run's last step, unclipped by the protected rectangle, so
that what is composed from it equals what is composed from the surfaces (R213; log entry 12). Its alpha, and a pixel outside the
active area, are free. -/
def State.flatWord (s : State) (p run : Nat) (c : PipeCfg) (v x y : Nat) : Nat :=
  if c.activeW ≤ x ∨ c.activeH ≤ y then Config.flatWord v x y % 2 ^ 32
  else
    let px := s.blendLayers p (c.layers.take run) x y c.background
    px.getD 0 0 + at' (px.getD 1 0) 10 + at' (px.getD 2 0) 20 + at' (Config.flatWord v x y % 4) 30

/-- The flat layer written by lines of 128 bytes: the micro-tiles that hold an active pixel (R124, R212). -/
def State.writeFlat (p run : Nat) (c : PipeCfg) (v : Nat) (s : State) : State :=
  let tiles := (List.range (ceilDiv c.activeH 4)).flatMap fun j => (List.range (ceilDiv c.activeW 8)).map fun i => (8 * i, 4 * j)
  runAll (fun (t : Nat × Nat) (z : State) =>
    let bs := (List.range 4).flatMap fun dy => (List.range 8).flatMap fun dx => toLE 4 (s.flatWord p run c v (t.1 + dx) (t.2 + dy))
    z.wr' .reservoir (c.flatPlace t.1 t.2).2.1 bs) tiles s

/-! ## A frame -/

/-- Whether the shown protected rectangle holds a pixel (R217). -/
def Pipe.protects (u : Pipe) (x y : Nat) : Bool :=
  let d := u.applied.prot
  decide (u.protState ≠ .off) && decide (d.x ≤ x) && decide (x ≤ d.x + d.w) && decide (d.y ≤ y) && decide (y ≤ d.y + d.h)

/-- The composed pixel outside the protected rectangle: from the flat layer and the layers above its run, or from the surfaces
over DSP_BG (R207, R213). -/
def State.composed (s : State) (p : Nat) (u : Pipe) (x y : Nat) : List Nat :=
  let c := u.applied
  if u.flatValid then
    let at_ := c.flatPlace x y
    let w := s.scan at_.2.1 (some at_)
    s.blendLayers p (c.layers.drop u.flatRun) x y [fld w 9 0, fld w 19 10, fld w 29 20]
  else s.blendLayers p c.layers x y c.background

/-- What is read for a pixel of a frame outside the protected rectangle. -/
def State.pixelReads (s : State) (p : Nat) (u : Pipe) (x y : Nat) : List Place :=
  let ls := if u.flatValid then u.applied.layers.drop u.flatRun else u.applied.layers
  (if u.flatValid then [u.applied.flatPlace x y] else []) ++
    ls.flatMap fun l => if l.enable ∧ l.covers x y then s.layerReads p l x y else []

/-- The 128-byte lines of places, each once. -/
def placeLines (ps : List Place) : List (Target × Nat) :=
  ps.foldl (fun acc x => if acc.contains (x.1, x.2.1 / 128) then acc else (x.1, x.2.1 / 128) :: acc) []

/-- Whether nothing in the device reads as poisoned. -/
def State.errorFree (s : State) : Bool :=
  s.mem.rsvUe.isEmpty && s.mem.dramUe.isEmpty && s.sc.slices.all fun x => !((x.lines ++ x.victims).any fun l => l.poison)

/-- The lines that a pipe's frame reads and that hold an uncorrectable error (R208). -/
def State.badLines (s : State) (p : Nat) (u : Pipe) : List (Target × Nat) :=
  if s.errorFree then []
  else
    let c := u.applied
    (placeLines ((List.range c.activeH).flatMap fun y => (List.range c.activeW).flatMap fun x =>
      if u.protects x y then [] else s.pixelReads p u x y)).filter fun l => s.poisoned l.1 (128 * l.2) 128

end Sys2Proof.Machine
end

