-- ==== Sys2Proof/Machine/Hash.lean ====
section
/-! DEFINITION. CRC-32 (R218), SHA-256 (R314, R363, R366) and the RSA power of RSASSA-PKCS1-v1_5 (R363). -/

namespace Sys2Proof.Machine

/-- One bit of the reflected CRC-32. -/
def crcBit (c : Word) : Word := if c.toNat % 2 = 1 then (c >>> 1) ^^^ 0xEDB88320 else c >>> 1

/-- One byte of the reflected CRC-32. -/
def crcByte (c : Word) (b : Byte) : Word :=
  crcBit (crcBit (crcBit (crcBit (crcBit (crcBit (crcBit (crcBit (c ^^^ b.zeroExtend 32))))))))

/-- CRC-32 of IEEE 802.3: reflected, initial value and final XOR all ones (R218). -/
def crc32 (bs : List Byte) : Word := bs.foldl crcByte 0xFFFFFFFF ^^^ 0xFFFFFFFF

/-! ## SHA-256 -/

/-- The first 32 bits of the fraction of the k-th root of p, for p below 512. -/
def rootWord (k p : Nat) : Word := BitVec.ofNat 32 (rootFrom k (p * 2 ^ (32 * k)) 37 0)

/-- The primes below n. -/
def primesBelow (n : Nat) : List Nat :=
  (List.range n).filter fun p => decide (2 ≤ p) && (List.range p).all fun d => decide (d < 2) || decide (p % d ≠ 0)

/-- The 64 constants of the rounds: from the cube roots of the first 64 primes. -/
def roundWords : List Word := (primesBelow 312).map (rootWord 3)

/-- The value that the hash starts from: from the square roots of the first 8 primes. -/
def hashStart : List Word := (primesBelow 20).map (rootWord 2)

/-- A word turned right by each of some counts, and shifted right by another, all combined; by 32 nothing is left. -/
def twist (turns : List Nat) (shift : Nat) (x : Word) : Word :=
  turns.foldl (fun y n => y ^^^ x.rotateRight n) (x >>> shift)

/-- What a block is hashed through: the last sixteen words of its schedule, oldest first, and the last four values of either
chain of the working state, newest first. -/
structure Hashing where
  win  : List Word
  top  : List Word
  low  : List Word

/-- One round: the oldest word of the window is used and the next of the schedule joins it. -/
def Hashing.round (h : Hashing) (k : Word) : Hashing :=
  let w := fun i => h.win.getD i 0
  let a := fun i => h.top.getD i 0
  let e := fun i => h.low.getD i 0
  let sum := w 0 + k + e 3 + (e 2 ^^^ (e 0 &&& (e 1 ^^^ e 2))) + twist [6, 11, 25] 32 (e 0)
  { win := h.win.drop 1 ++ [twist [17, 19] 10 (w 14) + w 9 + twist [7, 18] 3 (w 1) + w 0]
    top := (sum + ((a 0 &&& a 1) ||| (a 2 &&& (a 0 ||| a 1))) + twist [2, 13, 22] 32 (a 0)) :: h.top.take 3
    low := (a 3 + sum) :: h.low.take 3 }

/-- The sixteen big-endian words of a 64-byte block. -/
def blockWords (bs : List Byte) : List Word :=
  (List.range 16).map fun i => BitVec.ofNat 32 (ofBE ((bs.drop (4 * i)).take 4))

/-- The hash value after one more block. -/
def hashBlock (v : List Word) (bs : List Byte) : List Word :=
  let h := roundWords.foldl Hashing.round { win := blockWords bs, top := v.take 4, low := v.drop 4 }
  (List.zip v (h.top ++ h.low)).map fun x => x.1 + x.2

/-- The hash value after n more blocks. -/
def hashBlocks : Nat → List Word → List Byte → List Word
  | 0, v, _ => v
  | n + 1, v, bs => hashBlocks n (hashBlock v (bs.take 64)) (bs.drop 64)

/-- SHA-256 of a byte string, as 32 bytes: the message is closed by a one bit, zeros and its length in bits, to whole blocks. -/
def sha256 (bs : List Byte) : List Byte :=
  let blocks := (bs.length + 72) / 64
  let zeros := 64 * blocks - 9 - bs.length
  (hashBlocks blocks hashStart (bs ++ 0x80 :: List.replicate zeros 0 ++ toBE 8 (8 * bs.length))).flatMap fun w => toBE 4 w.toNat

/-- b to the power that the bits of e spell, modulo m; n bounds the bits. -/
def powMod : Nat → Nat → Nat → Nat → Nat
  | 0, _, _, m => 1 % m
  | n + 1, b, e, m =>
    let r := powMod n (b * b % m) (e / 2) m
    if e % 2 = 1 then r * b % m else r

/-- The DER prefix of a SHA-256 DigestInfo. -/
def digestInfo : List Byte :=
  [0x30, 0x31, 0x30, 0x0d, 0x06, 0x09, 0x60, 0x86, 0x48, 0x01, 0x65, 0x03, 0x04, 0x02, 0x01, 0x05, 0x00, 0x04, 0x20]

/-- The encoded message of RSASSA-PKCS1-v1_5 for 384 bytes. -/
def pkcs1 (digest : List Byte) : List Byte :=
  [0x00, 0x01] ++ List.replicate (384 - 3 - digestInfo.length - digest.length) 0xFF ++ [0x00] ++ digestInfo ++ digest

/-- Whether a signature of 384 big-endian bytes verifies (R363). -/
def rsaVerify (modulus : List Byte) (exponent : Nat) (signature digest : List Byte) : Bool :=
  let m := ofBE modulus
  let s := ofBE signature
  decide (s < m) && decide (powMod 32 s exponent m = ofBE (pkcs1 digest))

end Sys2Proof.Machine
end

