-- ==== Sys2Proof/Machine/Context.lean ====
section
/-! DEFINITION. Fault records and episodes, the loss of a context, fences and the end of a job (chapter 10; R90, R95, R273,
R379). -/

namespace Sys2Proof.Machine

/-! ## Fault records -/

/-- The code of a fault kind (R289). -/
def kindCode : FaultKind → Nat
  | .noRange => 0x01
  | .rights => 0x02
  | .breakpoint => 0x03
  | .reservoirLimit => 0x04
  | .poison => 0x05
  | .targetReset => 0x06
  | .atomicTarget => 0x07
  | .misaligned => 0x08
  | .illegalInstr => 0x09
  | .branchMixed => 0x0A
  | .linkError => 0x0B
  | .flume => 0x10

/-- Whether a record is REPLAYABLE: KIND 0x01 to 0x03 and SOURCE 0, 2, 3 or 4 (R289). -/
def FaultReport.replayable (r : FaultReport) : Bool :=
  decide (kindCode r.kind ≤ 3) && [0, 2, 3, 4].contains r.source

/-- The 64 bytes of a fault record (R289). -/
def recordBytes (r : FaultReport) (fseq : Nat) (secondary : Bool) (suppressed : Nat) : List Byte :=
  let addr := if r.kind = .illegalInstr ∨ r.kind = .branchMixed then 0 else r.address
  toLE 4 fseq ++
    toLE 4 (kindCode r.kind + at' r.source 8 + at' (b2n secondary) 12 + at' (b2n r.replayable) 13 + at' (b2n r.restart) 14 +
      at' (b2n r.write) 15 + at' (b2n r.atomic) 16 + at' r.island 24) ++
    toLE 8 (addr % 2 ^ 48) ++ toLE 8 r.loc ++ toLE 4 r.lanes.toNat ++ toLE 4 0 ++ toLE 4 r.origin.seq.toNat ++
    toLE 4 (srcIndex r.origin.src + at' r.origin.opcode.toNat 16) ++ toLE 8 r.stamp.toNat ++ toLE 4 suppressed ++ toLE 12 0

/-- A record written at its ring index through the function address of the ring (R292). -/
def State.writeRecord (c : Ctx) (idx : Nat) (bs : List Byte) (s : State) : State :=
  s.wrFn c.key.fn c.ring (64 * idx) bs

/-- The end of an episode: the count of its suppressed faults goes into SUPPRESSED of its first record (R292). -/
def State.endEpisode (k : CtxKey) (s : State) : State :=
  match s.ctx? k with
  | none => s
  | some c =>
    match c.episode with
    | none => s
    | some e =>
      let s := { s.modCtx k fun c => { c with episode := none } with
        jobs := s.jobs.map fun j => if j.key = k ∧ j.outcome = .running then { j with hasFault := false, record := none } else j }
      if e.suppressed = 0 then s else s.wrFn k.fn c.ring (64 * e.first + 0x30) (toLE 4 e.suppressed)

/-! ## The end of a context's work on its units (R293) -/

/-- A ring without the entries of a context. -/
def ringWithout (k : CtxKey) (r : List RingEntry) : List RingEntry :=
  r.filter fun e => match e with
    | .work _ x => decide (x ≠ k)
    | .wait _ _ x => decide (x ≠ k)
    | .switch _ into => decide (into ≠ some k)

/-- An engine left by a context: its entries dropped, its holder gone, no unit running. A commit that was armed stays armed:
only a commit clears the arm (R29). -/
def EngineCore.leave (k : CtxKey) (c : EngineCore) : EngineCore :=
  let c := { c with ring := ringWithout k c.ring }
  if c.holder = some k then { c with holder := none, busy := false, sw := none } else c

/-- A cluster emptied of its context's work: groups, workgroups, tiles and L1 lines (R22). The retire buffer of its
render-output slice is not the work of the context that it holds: it keeps the entries of passes whose slices include it until
their fragments retire or the pass ends (R129, R130; log entry 123). -/
def Cluster.empty (c : Cluster) : Cluster :=
  { c with run := none, stopJob := none, wgs := [], groups := [], l1 := [], tiles := [], tileMem := [] }

/-- A retire buffer without the entries of some jobs. -/
def Cluster.dropSlice (gone : Nat → Bool) (c : Cluster) : Cluster :=
  { c with
    slice := c.slice.filter fun x => !(gone x.job)
    buf := c.buf.filter fun x => !(gone x.at_.job)
    free := c.free + countIf (fun x : SliceExpect => gone x.job) c.slice }

/-- Whether a started job belongs to a context. -/
def State.jobOf (s : State) (k : CtxKey) (id : Nat) : Bool :=
  match s.job? id with
  | some j => decide (j.key = k)
  | none => false

/-- The report of an access in flight, or of a chunk, whose job ends before it does (R289, R290). -/
def Job.orphan (j : Job) (source island place lanes address : Nat) (atomic : Bool) : FaultReport :=
  { kind := .linkError, source := source, write := false, atomic := atomic, island := island, address := address, loc := place,
    lanes := BitVec.ofNat 32 lanes, job := some j.id, origin := j.origin, key := j.key, restart := false, stamp := 0 }

/-- The report of the group that waits for a request of the link. -/
def State.groupOrphan (s : State) (k : CtxKey) (r : NpReq) : Option FaultReport :=
  match r.owner with
  | .group c slot =>
    match s.clusters[c]? with
    | none => r.orphan
    | some cl =>
      if cl.core.holder ≠ some k then r.orphan
      else
        match (cl.groups.find? fun g => g.slot == slot), (cl.run.bind fun x => s.job? x.work.job) with
        | some g, some j =>
          match g.pend with
          | some p =>
            if g.st = .bus r.tag then
              some (j.orphan 0 (engineIsland (.cluster c)) g.pc.toNat p.lanes.toNat p.va (p.op == 0x64 || p.op == 0x65))
            else r.orphan
          | none => r.orphan
        | _, _ => r.orphan
  | _ => r.orphan

/-- The report of the chunk that a copy engine is in. -/
def State.chunkOrphan (s : State) (i : Nat) (e : CopyEngine) : Option FaultReport :=
  match e.chunk, e.job.bind s.job? with
  | some n, some j =>
    some (j.orphan 3 (engineIsland (.copy i)) (65536 * n) 0 (match j.kind with
      | .copy d _ _ => d.src
      | _ => 0) false)
  | _, _ => e.orphan

/-- An access whose work a loss or a teardown had ended has failed: its fault is reported (R290, R303). -/
def State.orphanFault (o : Option FaultReport) (err : Option FaultKind) (s : State) : State :=
  match o, err with
  | some t, some f => s.report { t with kind := f, stamp := s.count t.island }
  | _, _ => s

/-- Every unit leaves a context's work at its next boundary (R293): clusters at an instruction, arrays at an output tile;
a copy engine finishes the chunk it is in. -/
def State.endWork (k : CtxKey) (s : State) : State :=
  let own := s.jobOf k
  { s with
    clusters := s.clusters.map fun c =>
      let mine := decide (c.core.holder = some k)
      let c := { c with core := c.core.leave k }.dropSlice own
      if mine then c.empty else c
    fronts := s.fronts.map fun f =>
      { f with core := f.core.leave k, job := if (f.job.map own).getD false then none else f.job }
    arrays := s.arrays.map fun a =>
      let mine := decide (a.core.holder = some k)
      let a := { a with core := a.core.leave k }
      if mine then { a with layer := none, grant := none, kept := none, step := 0, buf := [] } else a
    pcie := { s.pcie with reqs := s.pcie.reqs.map fun r => { r with orphan := s.groupOrphan k r } }
    copies := (enumFrom 0 s.copies).map fun x =>
      let e : CopyEngine := { x.2 with orphan := if x.2.core.holder = some k then s.chunkOrphan x.1 x.2 else x.2.orphan }
      if e.chunk.isSome ∧ e.core.holder = some k then { e with core := { e.core with ring := ringWithout k e.core.ring } }
      else { e with core := e.core.leave k, job := if (e.job.map own).getD false then none else e.job }
    sluice := { s.sluice with ready := s.sluice.ready.filter fun w => !(own w.job) }
    ctxs := s.ctxs.map fun c => if c.key = k then { c with saved := [] } else c }

/-- Whether no unit runs anything of a job, and Sluice has recorded every fault that its units reported: its end may be
written, with ST_FAULTED when it has a record (R317; log entry 104). -/
def State.jobIdle (s : State) (id : Nat) : Bool :=
  !(s.sluice.reports.any fun r => decide (r.job = some id)) &&
  s.clusters.all (fun c => match c.run with
    | some r => r.work.job != id
    | none => true) &&
  s.fronts.all (fun f => decide (f.job ≠ some id)) &&
  s.arrays.all (fun a => match a.layer with
    | some w => w.job != id
    | none => true) &&
  s.copies.all (fun e => decide (e.job ≠ some id) || e.chunk.isNone) &&
  s.pcie.reqs.all fun r => match r.orphan with
    | some t => decide (t.job ≠ some id)
    | none => true

/-! ## Packets held at the head of a queue -/

/-- The read index moved past a packet of n dwords (R259, R260). -/
def Queue.pass (n : Nat) (q : Queue) : Queue := { q with read := (q.read + n / 4) % 2 ^ q.ringLog2, held := none }

/-- A registered FENCE_WAIT leaves the head of its queue with a reply (R275, R300). -/
def State.finishWait (fn q status detail : Nat) (fval : BitVec 64) (s : State) : State :=
  match s.queue? fn q with
  | none => s
  | some u =>
    match u.wait with
    | none => s
    | some w =>
      let s := s.modQueue fn q fun u => { u.pass 8 with wait := none }
      s.reply (s.entry w.origin 0x62 status detail fval)

/-- Whether a ring entry is the remote wait of a queue. -/
def RingEntry.waitOf (fn q : Nat) : RingEntry → Bool
  | .wait a b _ => a == fn && b == q
  | _ => false

/-- A ring without the remote wait of a queue; when its engine held it the unit has ended (R173, R196). -/
def EngineCore.dropWait (fn q : Nat) (c : EngineCore) : EngineCore :=
  { c with ring := c.ring.filter fun e => !(e.waitOf fn q), busy := c.busy && !(c.ring.head?.elim false (RingEntry.waitOf fn q)) }

/-- The engine ring entries of a remote wait removed (R196, R293). -/
def State.dropWaitEntries (fn q : Nat) (s : State) : State :=
  let f := EngineCore.dropWait fn q
  { s with
    clusters := s.clusters.map fun c => { c with core := f c.core }
    fronts := s.fronts.map fun c => { c with core := f c.core }
    arrays := s.arrays.map fun c => { c with core := f c.core }
    copies := s.copies.map fun c => { c with core := f c.core } }

/-- The queues of a context. -/
def State.queuesOf (s : State) (k : CtxKey) : List Queue := s.queues.filter fun u => u.fn == k.fn && u.ctx == k.id

/-- The FENCE_WAITs held for a context end with ST_CONTEXT_LOST; a remote wait leaves its engine at once (R293). -/
def State.loseWaits (k : CtxKey) (s : State) : State :=
  runAll (fun (u : Queue) s => if u.wait.isSome then (s.dropWaitEntries u.fn u.q).finishWait u.fn u.q stContextLost k.id 0 else s)
    (s.queuesOf k) s

/-! ## Losing a context -/

/-- How the started jobs of a lost context end: those with a fault record ST_FAULTED, the others ST_CONTEXT_LOST (R293,
R317). -/
def lossOutcome (j : Job) : JobOutcome := if j.hasFault then .faulted else .contextLost

/-- The running jobs of a context given an outcome. -/
def State.endJobs (k : CtxKey) (f : Job → JobOutcome) (s : State) : State :=
  { s with jobs := s.jobs.map fun j => if j.key = k ∧ j.outcome = .running then { j with outcome := f j } else j }

/-- The slots that a context owned by its ID are left without an owner, in the active table and in one that is armed
(R185). -/
def State.disown (k : CtxKey) (s : State) : State :=
  let mine := fun (t : Slot) => decide (t.ctx = k.id) && decide (t.tenant = k.fn)
  s.modSluice fun l =>
    { l with
      runs := (List.zip l.active.slots l.runs).map fun x => if mine x.1 then { x.2 with owned := false } else x.2
      owners := (List.zip l.shadow.slots l.owners).map fun x => x.2 && !(mine x.1) }

/-- A context becomes LOST by a fault (R291, R293). A context that is LOST or DESTROYING stays as it is (R290). -/
def State.lose (k : CtxKey) (s : State) : State :=
  match s.ctx? k with
  | none => s
  | some c =>
    if c.st = .lost ∨ c.st = .destroying then s
    else
      let s := s.modCtx k fun c =>
        { c with st := .lost, episode := c.episode.map fun e => { e with waiting := false } }
      let s := s.endJobs k lossOutcome
      let s := s.endWork k
      (s.loseWaits k).disown k

/-- Whether the sources of a fault park groups (R290): cluster group, tile network, front end. -/
def parkingSource (n : Nat) : Bool := [0, 2, 4].contains n

/-- The job of a fault takes the record as its own when it has none yet (R292, R317). A job that a loss has already ended
replies ST_FAULTED once it has a record. -/
def State.jobFault (r : FaultReport) (idx : Nat) (s : State) : State :=
  match r.job with
  | none => s
  | some id =>
    s.modJob id fun j =>
      { j with
        record := if j.hasFault then j.record else some idx
        hasFault := true
        outcome := if j.outcome = .contextLost then .faulted else j.outcome }

/-- Sluice writes a fault record and applies its effect on the context (R95 step 2, R289 to R292, R317). Answers the ring
index of the record: 0xFFFF_FFFF when the episode already has its 64 records. -/
def State.recordFault (r : FaultReport) (s : State) : Nat × State :=
  match s.ctx? r.key with
  | none => (0xFFFFFFFF, s)
  | some c =>
    let fseq := c.fseq + 1
    let s := s.modFun r.key.fn fun f => { f with cumFaults := f.cumFaults + 1 }
    let s := s.modCtx r.key fun c => { c with fseq := fseq }
    let idx := (fseq - 1) % 64
    if r.restart ∧ c.st = .active ∧ c.episode.isNone then
      let s := s.writeRecord c idx (recordBytes r fseq false 0)
      let s := s.modCtx r.key fun c => { c with lastFseq := fseq }
      (idx, s.jobFault r idx)
    else
      let ep := c.episode.getD { first := idx, written := 0, suppressed := 0, eligible := true, waiting := false }
      let fits := decide (ep.written < 64)
      let s := if fits then s.writeRecord c idx (recordBytes r fseq c.episode.isSome 0) else s
      let ok := ep.eligible && (r.restart || (c.replayable && r.replayable))
      let live := decide (c.st = .active) || decide (c.st = .faulted)
      let waits := live && (ep.waiting || parkingSource r.source)
      let ep := { ep with written := if fits then ep.written + 1 else ep.written,
                          suppressed := if fits then ep.suppressed else ep.suppressed + 1, eligible := ok, waiting := waits }
      let s := s.modCtx r.key fun c =>
        { c with episode := some ep, lastFseq := if fits then fseq else c.lastFseq,
                 st := if c.st = .active then .faulted else c.st }
      let idx := if fits then idx else 0xFFFFFFFF
      let s := s.jobFault r idx
      if live ∧ !ok ∧ !waits then (idx, s.lose r.key) else (idx, s)

/-! ## Fences (R296 to R300) -/

/-- How an access across the link ends, by a number. -/
def endOf (n : Nat) : AccessEnd :=
  match n % 6 with
  | 0 => .ok
  | 1 => .poison
  | 2 => .timeout
  | 3 => .unsupported
  | 4 => .abort
  | _ => .linkDown

/-- How the access of an operation on a HOST fence ends (R297, R412): a free value, that the function's settings allow (log
entry 154). The read across the link, whose completion carries its end, is that of the operation (R59). -/
def State.fenceEnd (fn : Nat) (s : State) : Option FaultKind × State :=
  let (v, s) := s.fresh
  let how := endOf (Config.fenceEnd v)
  if s.neverEnds fn how then (none, s) else (faultOf how, s.logEnd fn how)

/-- Where a fence lies for an access with some rights, and whether its data can be read (R297). How the read of a wait ends
comes with its poll; how an operation's ends is open. -/
def State.fenceAt (k : CtxKey) (va : Nat) (need : Need) (s : State) : Except FaultKind (Target × Nat) × State :=
  match s.translate1 .sluice k va need with
  | (.error f, s) => (.error f, s)
  | (.ok (e, pa), s) =>
    if need.w ∧ e.tgt = .peer then (.error .rights, s)
    else if s.linkFails e.tgt then (.error .linkError, s)
    else
      match s.checkUe e.tgt pa 16 with
      | (some _, s) => (.error .poison, s)
      | (none, s) =>
        let s := s.askAt e.tgt pa 16
        match (if need.w ∧ e.tgt = .host then s.fenceEnd k.fn else (none, s)) with
        | (some f, s) => (.error f, s)
        | (none, s) => (.ok (e.tgt, pa), s)

/-- VALUE of a fence. -/
def State.fenceValue (s : State) (t : Target) (pa : Nat) : BitVec 64 := BitVec.ofNat 64 (s.mem.readLE t pa 8)

/-- The error code of a fence: bytes 8 to 11 (R296). -/
def State.fenceError (s : State) (t : Target) (pa : Nat) : Word := BitVec.ofNat 32 (s.mem.readLE t (pa + 8) 4)

/-- A SOURCE 6 fault of a fence access, recorded (R297; log entry 103). -/
def State.fenceFault (k : CtxKey) (va : Nat) (kind : FaultKind) (write : Bool) (island : Nat) (job : Option Nat) (o : Origin)
    (s : State) :
    Nat × State :=
  s.recordFault (s.readerFault kind 6 write write island va job o k)

/-- A registered wait whose read of the fence failed: it leaves the head of its queue, the fault is recorded, and it replies
ST_FAULTED with the record's index (R297). -/
def State.failWait (fn q : Nat) (w : Wait) (k : CtxKey) (kind : FaultKind) (island : Nat) (s : State) : State :=
  let s := (s.dropWaitEntries fn q).modQueue fn q fun u => { u.pass 8 with wait := none }
  let (idx, s) := s.fenceFault k w.addr kind false island none w.origin
  s.reply (s.entry w.origin 0x62 stFaulted idx 0)

/-- One registered wait evaluated (R300, R195, R196): its fence is read; VALUE at or above the wait's value satisfies it,
an error code fails it, a failed read fails it at once (R297). A wait that a reset ends is answered after the reset (R379). -/
def State.resolveWait (fn q : Nat) (island : Nat) (s : State) : State :=
  match s.queue? fn q with
  | none => s
  | some u =>
    match u.wait with
    | none => s
    | some w =>
      let k : CtxKey := { fn := fn, id := u.ctx }
      if s.inReset k then s else
      match s.fenceAt k w.addr needR with
      | (.error f, s) => s.failWait fn q w k f island
      | (.ok (t, pa), s) =>
        let v := s.fenceValue t pa
        let e := s.fenceError t pa
        if w.value.toNat ≤ v.toNat then (s.dropWaitEntries fn q).finishWait fn q stOk 0 v
        else if e ≠ 0 then (s.dropWaitEntries fn q).finishWait fn q stFenceError e.toNat v
        else s.modQueue fn q fun u =>
          { u with wait := some { w with remote := decide (t = .host) || decide (t = .peer), lastValue := v, lastError := e } }

/-- Where a registered wait's fence lies now, without touching the state. -/
def State.waitPlace (s : State) (u : Queue) : Option (Target × Nat) :=
  match u.wait with
  | none => none
  | some w =>
    match (s.translate1 .sluice { fn := u.fn, id := u.ctx } w.addr needR).1 with
    | .ok (e, pa) => some (e.tgt, pa)
    | .error _ => none

/-- A device operation wrote a span: Sluice evaluates the waits on RESERVOIR and DRAM fences in it (R300), unless its
processor is down (R373). -/
def State.spanWritten (t : Target) (a n : Nat) (s : State) : State :=
  if (t = .dram ∨ t = .reservoir) ∧ s.procUp 1 then
    runAll (fun (u : Queue) s => match s.waitPlace u with
      | some (t', pa) => if t' = t ∧ spansMeet a n pa 16 then s.resolveWait u.fn u.q 0x63 else s
      | none => s) s.queues s
  else s

/-- A device operation wrote a fence (R300). -/
def State.fenceWritten (t : Target) (pa : Nat) (s : State) : State := s.spanWritten t pa 16

/-- How much of a piece a write has stored that ended as given. -/
def Piece.stored (p : Piece) (end_ : Option (FaultKind × Nat)) : Nat := end_.elim p.len fun f => min p.len (f.2 - p.va)

/-- A device operation wrote pieces: the waits on fences in what it stored are evaluated (R300). -/
def State.piecesWritten (end_ : Option (FaultKind × Nat)) (ps : List Piece) (s : State) : State :=
  runAll (fun (p : Piece) (s : State) => s.spanWritten p.tgt p.pa (p.stored end_)) ps s

/-- A device operation writes translated pieces (R300). -/
def putPieces (fn : Nat) (ps : List Piece) (bs : List Byte) (s : State) : Option (FaultKind × Nat) × State :=
  let (f, s) := writePieces fn ps bs s
  (f, s.piecesWritten f ps)

/-- A device operation writes a span in a context (R300). -/
def State.putVa (who : Requester) (k : CtxKey) (va : Nat) (bs : List Byte) (s : State) : Option (FaultKind × Nat) × State :=
  match s.translate who k va bs.length needW with
  | (.error f, s) => (some f, s)
  | (.ok ps, s) => putPieces k.fn ps bs s

/-- The result of a signal. -/
inductive Signalled where
  | done
  | order (current : BitVec 64)
  | failed (kind : FaultKind)
deriving DecidableEq, Repr

/-- signal(f, v) (R298): dropped unless the value is greater than the current one; the error code stays. -/
def State.signal (k : CtxKey) (va : Nat) (v : BitVec 64) (s : State) : Signalled × State :=
  match s.fenceAt k va needWA with
  | (.error f, s) => (.failed f, s)
  | (.ok (t, pa), s) =>
    let cur := s.fenceValue t pa
    if v.toNat ≤ cur.toNat then (.order cur, s)
    else (.done, (s.wr' t pa (toLE 8 v.toNat)).fenceWritten t pa)

/-- init(f, v) (R298): the value is stored and the error is cleared. -/
def State.fenceInit (k : CtxKey) (va : Nat) (v : BitVec 64) (s : State) : Signalled × State :=
  match s.fenceAt k va needWA with
  | (.error f, s) => (.failed f, s)
  | (.ok (t, pa), s) => (.done, (s.wr' t pa (toLE 8 v.toNat ++ toLE 8 0)).fenceWritten t pa)

/-- set_error(f, cause, ctx, tenant) (R298): the error code is set once; later errors set MULTIPLE; VALUE stays. An error
write that fails is recorded and not retried (R297). Address 0 names no fence (R277). -/
def State.setError (k : CtxKey) (va cause : Nat) (job : Option Nat) (o : Origin) (s : State) : State :=
  if va = 0 then s
  else
    match s.fenceAt k va needWA with
    | (.error f, s) => (s.fenceFault k va f true 0x62 job o).2
    | (.ok (t, pa), s) =>
      if s.fenceError t pa = 0 then
        (s.wr' t (pa + 8) (toLE 4 (cause + at' k.id 16 + at' k.fn 26) ++ s.rd t (pa + 12) 4)).fenceWritten t pa
      else
        (s.wr' t (pa + 8) (s.rd t (pa + 8) 4 ++ toLE 4 (s.mem.readLE t (pa + 12) 4 / 2 * 2 + 1))).fenceWritten t pa

/-! ## The end of a job (R273) -/

/-- The fence cause and the reply status and detail of a job that did not complete (R293, R296, R379). -/
def Job.lossReply (j : Job) : Nat × Nat × Nat :=
  match j.outcome with
  | .faulted => (2, stFaulted, j.record.getD 0xFFFFFFFF)
  | .reset kind => (3, stReset, kind)
  | .escalated kind => (4, stResetEscalated, kind)
  | _ => (1, stContextLost, j.key.id)

/-- The detail of a job's ST_OK (R278): 0, or 1 for a pass that ran DIRECT. -/
def Job.okDetail (j : Job) : Nat :=
  match j.kind with
  | .pass _ (some r) => b2n r.direct
  | _ => 0

/-- A job of a function replied ST_OK: STARTUP ends, and so does RECOVERY when the job started after the reset completed
(R384). -/
def State.jobOk (j : Job) (s : State) : State :=
  s.modFun j.key.fn fun f =>
    match f.service with
    | .startup => { f with service := .normal }
    | .recovery => if j.sinceReset then { f with service := .normal } else f
    | _ => f

/-- The reply of a job, and the job gone. -/
def State.replyJob (j : Job) (island : Nat) (stamp : BitVec 48) (status detail : Nat) (s : State) : State :=
  let s := { s with jobs := s.jobs.filter fun x => x.id != j.id }
  s.reply { s.entry j.origin island status detail j.value with stamp := stamp }

/-- A job whose work is over: its fence is signalled or takes the error, then its reply is written (R273, R293, R299). -/
def State.endJob (j : Job) (s : State) : State :=
  match j.outcome with
  | .running => s
  | .complete =>
    if j.fence = 0 then (s.replyJob j j.island j.endStamp stOk j.okDetail).jobOk j
    else
      match s.signal j.key j.fence j.value with
      | (.done, s) => (s.replyJob j j.island j.endStamp stOk j.okDetail).jobOk j
      | (.order cur, s) => s.replyJob j j.island j.endStamp stFenceOrder (cur.toNat % 2 ^ 32)
      | (.failed f, s) =>
        let (idx, s) := s.fenceFault j.key j.fence f true 0x62 (some j.id) j.origin
        s.replyJob j 0x62 (s.count 0x62) stFaulted idx
  | _ =>
    let (cause, status, detail) := j.lossReply
    let s := s.setError j.key j.fence cause (some j.id) j.origin
    s.replyJob j 0x62 (s.count 0x62) status detail

/-- A job that reached the end of its work on an engine: it waits for Headgate to write its end (R273). -/
def State.completeJob (id : Nat) (e : Engine) (s : State) : State :=
  let i := engineIsland e
  s.modJob id fun j =>
    if j.outcome = .running then { j with outcome := .complete, island := i, endStamp := s.count i } else j

end Sys2Proof.Machine
end

