-- ==== Sys2Proof/Machine/Packet.lean ====
section
/-! DEFINITION. How Headgate takes a packet from a queue's ring or a mailbox: the checks of R266 in order, the holds of
R274 and R275, the room of R269, and the reply. The opcodes' own checks and effects are handlers that later files give. -/

namespace Sys2Proof.Machine

/-- A packet at step 10 of R266: who issued it, in which context (none in the mailbox), its origin for replies, and its
parameter bytes, and how the reads of what it names ended. -/
structure Pk where
  src    : Src
  fn     : Nat
  key    : Option CtxKey
  origin : Origin
  bytes  : List Byte
  named  : AccessEnd
deriving DecidableEq, Repr

/-- Bits [hi:lo] of the little-endian structure at a byte offset of the parameters. -/
def Pk.f (p : Pk) (off hi lo : Nat) : Nat := fld (ofLE ((p.bytes.drop off).take (hi / 8 + 1))) hi lo

/-- What becomes of a packet at its own checks. -/
inductive Verdict where
  | hold (why : Hold)
  | reply (status detail : Nat) (s : State)
  | replyBy (island status detail : Nat) (fval : BitVec 64) (s : State)
  | replyTell (island status detail fn : Nat) (s : State)
  | owed (s : State)
  | deferred (island detail : Nat) (s : State)
  | waiting (w : Wait) (s : State)
deriving DecidableEq, Repr

/-- The checks of R266 that depend on the opcode alone. `reserved` lists the reserved parameter fields in ascending order:
byte offset, high bit, low bit. -/
structure OpSpec where
  opcode   : BitVec 8
  assigned : Bool
  may      : Pk → State → Bool
  mailbox  : Bool
  job      : Bool
  lostOk   : Bool
  len      : Pk → Nat
  reserved : Pk → List (Nat × Nat × Nat)

/-- The byte offset of the first non-zero reserved field (R266 step 9). -/
def firstReserved (p : Pk) : List (Nat × Nat × Nat) → Option Nat
  | [] => none
  | (o, hi, lo) :: rest => if p.f o hi lo = 0 then firstReserved p rest else some (o + lo / 8)

/-- LEN is 4 to 1,028 and a multiple of 4 (R265). -/
def lenValid (n : Nat) : Bool := decide (4 ≤ n) && decide (n ≤ 1028) && decide (n % 4 = 0)

/-- The parameter bytes of a packet: LEN dwords less the header. -/
def packetBytes (p : Packet) : List Byte := (takePad 0 (p.len.toNat - 4) p.params).flatMap fun w => toLE 4 w.toNat

/-- The origin that a packet's replies carry. -/
def packetOrigin (p : Packet) (src : Src) (op : BitVec 8) : Origin :=
  { src := src, seq := p.seq, opcode := op, irq := p.irq }

/-- The opcodes whose replies carry a value of the packet: the job packets and FENCE_SIGNAL (R267). -/
def valueOpcodes : List Nat := [0x31, 0x40, 0x41, 0x43, 0x45]

/-- The FENCE_VALUE of a packet's reply: for a job packet the value that its job signals, for FENCE_SIGNAL the value given,
whatever the status (R267, R277; log entry 100). -/
def packetValue (op : BitVec 8) (p : Packet) : BitVec 64 :=
  if valueOpcodes.contains op.toNat then BitVec.ofNat 64 (ofLE (((packetBytes p).drop 8).take 8)) else 0

/-- Any context of any function may issue the opcode (R278). -/
def mayAny (_ : Pk) (_ : State) : Bool := true

/-- PF0 alone may issue the opcode (R278). -/
def mayPf0 (p : Pk) (_ : State) : Bool := p.fn == 0

/-- A PF0 context created PROTECTED may issue the opcode (R215, R278). -/
def mayProtected (p : Pk) (s : State) : Bool :=
  p.fn == 0 && match p.key with
    | some k => match s.ctx? k with
      | some c => c.prot
      | none => false
    | none => false

/-- The issuing function and context may issue the opcode; the mailbox takes only some opcodes (R266 step 6, R284). -/
def State.mayIssue (s : State) (spec : OpSpec) (p : Pk) : Bool := (p.key.isSome || spec.mailbox) && spec.may p s

/-- The fence of a job packet: address of the job block (R277), 0 for none. -/
def Pk.fence (p : Pk) : Nat := p.f 0 47 0

/-- Steps 5 to 10 of R266, given whether the opcode is assigned. A job packet or FENCE_SIGNAL that is refused with
ST_CONTEXT_LOST sets its fence's error (R293). -/
def State.checkPacket (spec : OpSpec) (h : Pk → State → Verdict) (p : Pk) (len : Nat) (s : State) : Verdict :=
  if !spec.assigned then .reply stBadOpcode spec.opcode.toNat s
  else if !s.mayIssue spec p then .reply stNotPermitted 0 s
  else if len ≠ spec.len p then .reply stBadPacket 4 s
  else
    let st := match p.key with
      | some k => (s.ctx? k).map (·.st)
      | none => none
    if st = some .lost ∧ !spec.lostOk then
      let id := (p.key.map (·.id)).getD 0
      let s := match p.key with
        | some k => if spec.job ∨ spec.opcode = 0x31 then s.setError k p.fence 1 none p.origin else s
        | none => s
      .reply stContextLost id s
    else if st = some .faulted ∧ spec.job then .hold .faulted
    else
      match firstReserved p (spec.reserved p) with
      | some o => .reply stBadParam o s
      | none => h p s

/-- A queue enters its function's doorbell FIFO, or the pending map when the FIFO is full; a queue with an entry in the FIFO keeps its
place (R262). -/
def State.enlist (fn q : Nat) (s : State) : State :=
  s.modFun fn fun f =>
    if f.fifo.contains q then f
    else if f.fifo.length < 4096 then { f with fifo := f.fifo ++ [q] }
    else { f with pendingMap := if f.pendingMap.contains q then f.pendingMap else insertBy id q f.pendingMap, overflowed := true }

/-! ## Turns (R264, R284; log entry 152) -/

/-- Whether a packet of a queue that Headgate completes itself has not replied yet: the queue's next packet waits for that
(R275; log entry 101). -/
def State.awaitsReply (s : State) (fn q : Nat) : Bool :=
  let mine := fun (o : Origin) => decide (o.src = .queue fn q)
  s.ctxs.any (fun c => c.unmaps.any (fun u => mine u.origin) || c.teardown.any fun t => mine t.origin) ||
    s.queues.any (fun u => u.destroying.any mine) || s.resets.any (fun r => r.waiters.any fun w => mine w.1) ||
    (s.levee.actOrigin.any mine && !s.levee.actDeferred) || s.levee.backOrigin.any mine

/-- Whether a queue has packets that Headgate has not taken, and takes packets at all. -/
def Queue.open' (u : Queue) : Bool := !u.halted && u.destroying.isNone && u.read != u.write

/-- Whether a turn of a queue takes a packet, as far as is known: it has one, and none is held at its head (R264, R275). -/
def State.ready (s : State) (fn q : Nat) : Bool :=
  match s.queue? fn q with
  | none => false
  | some u => u.open' && u.wait.isNone && u.held.isNone && !(s.awaitsReply fn q)

/-- The queues that Headgate serves of a function, in their order: the FIFO, or the pending map once the FIFO is empty (R262). -/
def Fun.order (f : Fun) : List Nat := if f.fifo.isEmpty then f.pendingMap else f.fifo

/-- Whether Headgate takes packets of a function: its processor runs, the device is in A and not entering a sleep state,
and the function is READY (R263, R343, R373, R382). -/
def State.serves (s : State) (fn : Nat) : Bool :=
  s.procUp 0 && decide (s.fnState fn = .ready) && decide (s.aon.mode = .a)

/-- Whether a function's mailbox holds a packet that waits for its turn. -/
def Fun.mboxWaits (f : Fun) : Bool := f.mboxBusy && !f.mboxServing && !f.mboxHeld

/-- Whether some queue of a function is ready. -/
def State.queueReady (s : State) (fn : Nat) (f : Fun) : Bool := f.order.any fun q => s.ready fn q

/-- Whether a function has something that its turn would take. -/
def State.fnReady (s : State) (fn : Nat) : Bool :=
  s.serves fn && (s.funs[fn]?).any fun f => f.mboxWaits || s.queueReady fn f

/-- Whether a queue's turn goes on. -/
def State.turnOpen (s : State) : Bool := s.hgServing.any fun x => s.serves x.1 && s.ready x.1 x.2

/-- Whether the round of the functions has come to one: none before it has anything to take (R264). -/
def State.roundAt (s : State) (fn : Nat) : Bool :=
  (List.range 4).all fun i => decide ((fn + 4 - s.hgNext) % 4 ≤ i) || !(s.fnReady ((s.hgNext + i) % 4))

/-- Whether Headgate comes to a queue: its turn goes on; or no turn does, the round has come to its function, the mailbox is not
before it, and no ready queue stands before it. -/
def State.mayServe (s : State) (fn q : Nat) : Bool :=
  if s.turnOpen then decide (s.hgServing = some (fn, q))
  else
    s.roundAt fn && (s.funs[fn]?).any fun f =>
      f.order.contains q && !(f.mboxNext && f.mboxWaits) && (f.order.takeWhile fun x => x != q).all fun x => !(s.ready fn x)

/-- Whether Headgate comes to a function's mailbox: it and the function's queues take turns (R284). -/
def State.mayMbox (s : State) (fn : Nat) : Bool :=
  !s.turnOpen && s.roundAt fn && (s.funs[fn]?).any fun f => f.mboxNext || !(s.queueReady fn f)

/-- The queues that a turn passed over: those with packets left go to the tail of the FIFO, the others leave it. -/
def Fun.passOver (left : Nat → Bool) (q : Nat) (f : Fun) : Fun :=
  if f.fifo.contains q then
    { f with fifo := (f.fifo.dropWhile fun x => x != q) ++ (f.fifo.takeWhile fun x => x != q).filter left }
  else { f with pendingMap := f.pendingMap.filter fun x => decide (q ≤ x) || left x }

/-- The queues of a function with packets left. -/
def State.left (s : State) (fn : Nat) (q : Nat) : Bool := (s.queue? fn q).any Queue.open'

/-- A queue's turn begins, unless it goes on. -/
def State.turnTo (fn q : Nat) (s : State) : State :=
  if s.hgServing = some (fn, q) then s
  else
    let s := s.modFun fn (Fun.passOver (s.left fn) q)
    { s.modQueue fn q fun u => { u with turn := 0 } with hgServing := some (fn, q), hgNext := fn }

/-- No turn goes on; the next function comes after this one. -/
def State.closeTurn (fn : Nat) (mbox : Bool) (s : State) : State :=
  { s.modFun fn fun f => { f with mboxNext := mbox } with hgServing := none, hgNext := (fn + 1) % 4 }

/-- The end of a queue's turn: a queue with packets left goes to the tail of the FIFO (R264). -/
def State.endTurn (fn q : Nat) (s : State) : State :=
  let s := s.turnTo fn q
  let more := if s.left fn q then [q] else []
  let s := s.unlist fn q
  (s.modFun fn fun f => { f with fifo := f.fifo ++ more }).closeTurn fn true

/-- A turn of a queue takes at most 16 packets (R264). -/
def State.afterTake (fn q : Nat) (s : State) : State :=
  match s.queue? fn q with
  | none => s
  | some u => if u.open' && decide (u.turn < 16) then s else s.endTurn fn q

/-- A packet held at the head of its queue (R275). -/
def State.holdPacket (fn q : Nat) (why : Hold) (op : BitVec 8) (p : Packet) (s : State) : State :=
  s.modQueue fn q fun u => { u with held := some { why := why, opcode := op, pkt := p } }

/-- Headgate takes one more packet (R286). -/
def State.countPacket (s : State) : State := { s with hgPackets := s.hgPackets + 1 }

/-- A packet leaves the head of its queue: the read index passes it and its reply is owed (R260, R269). -/
def State.passHead (fn q len : Nat) (s : State) : State :=
  (s.modQueue fn q fun u => { u.pass len with owed := u.owed + 1 }).countPacket

/-- A packet taken in the turn of its queue. -/
def State.takeHead (fn q len : Nat) (s : State) : State :=
  ((s.turnTo fn q).passHead fn q len).modQueue fn q fun u => { u with turn := u.turn + 1 }

/-- A held packet ends the turn (R264). -/
def State.holdTurn (fn q : Nat) (why : Hold) (op : BitVec 8) (p : Packet) (s : State) : State :=
  (s.holdPacket fn q why op p).endTurn fn q

/-- A function is told that its windows have changed: after the reply (R243, R249). -/
def State.leveeTell (fn : Nat) (s : State) : State := (s.modFun fn fun f => { f with leveeChanged := true }).msix fn 0

/-- The outcome of a packet taken from a queue. -/
def State.settle (fn q : Nat) (op : BitVec 8) (p : Packet) (o : Origin) (before : State) : Verdict → State
  | .hold why => before.holdTurn fn q why op p
  | .reply st d s => (s.reply (s.entry o 0x62 st d (packetValue op p))).afterTake fn q
  | .replyBy i st d v s => (s.reply (s.entry o i st d v)).afterTake fn q
  | .replyTell i st d t s => ((s.reply (s.entry o i st d 0)).afterTake fn q).leveeTell t
  | .owed s => s.afterTake fn q
  | .deferred i d s =>
    let s := s.modQueue fn q fun u => { u with deferred := u.deferred + 1 }
    (s.replyBy o i stDeferred d).afterTake fn q
  | .waiting w s =>
    let head := (before.queue? fn q).elim 0 fun u => u.read
    ((s.holdPacket fn q .fenceWait op p).modQueue fn q fun u => { u with wait := some w, read := head }).endTurn fn q

/-- A mailbox packet that is held keeps BUSY at 1, and others go before it. -/
def State.holdMbox (o : Origin) (s : State) : State := s.modFun (srcFn o.src) fun f => { f with mboxHeld := true }

/-- The outcome of a packet of the mailbox. A held packet keeps BUSY at 1. -/
def State.settleMbox (p : Packet) (o : Origin) (before : State) : Verdict → State
  | .hold _ => before.holdMbox o
  | .reply st d s => (s.reply (s.entry o 0x62 st d (packetValue o.opcode p))).countPacket
  | .replyBy i st d v s => (s.reply (s.entry o i st d v)).countPacket
  | .replyTell i st d t s => ((s.reply (s.entry o i st d 0)).countPacket).leveeTell t
  | .owed s => s.countPacket
  | .deferred i d s => (s.replyBy o i stDeferred d).countPacket
  | .waiting _ _ => before

/-- The jobs of a queue that are started and not replied, and those of them that are armed FRAME_END runs (R275, R160). -/
def State.startedJobs (s : State) (src : Src) : List Job := s.jobs.filter fun j => decide (j.origin.src = src)

/-- Whether a job is an armed NET_RUN that has not fired. -/
def Job.armed (j : Job) : Bool :=
  match j.kind with
  | .net r => r.armed
  | _ => false

/-- The read of ring bytes from a read index on (R260, R268): the fault that halts the queue, if any. -/
def State.ringRead (u : Queue) (pos n : Nat) (how : AccessEnd) (s : State) : Option (FaultKind × Nat) × State :=
  let k : CtxKey := { fn := u.fn, id := u.ctx }
  let va := u.ringAddr + 16 * pos
  match s.translate .headgate k va n needR with
  | (.error f, s) => (some f, s)
  | (.ok ps, s) =>
    if linkFailed how ∧ overLink ps then (some (.linkError, va), s.logEnd u.fn how)
    else
      match readPieces u.fn ps s with
      | (.ok _, s) => (none, s)
      | (.error f, s) => (some f, s)

/-- Steps 3 and 4 of R266, then the rest, for a packet whose header and length passed. -/
def State.checkRing (spec : OpSpec) (h : Pk → State → Verdict) (u : Queue) (p : Packet) (s : State) : Verdict :=
  let o := packetOrigin p (.queue u.fn u.q) spec.opcode
  let pos := at' u.read 8
  if p.queue.toNat ≠ u.q ∨ p.ctx.toNat ≠ u.ctx then .reply stBadPacket (2 + pos) s
  else if p.rsv0 ≠ 0 ∨ p.rsv3 ≠ 0 then .reply stBadPacket (3 + pos) s
  else
    let pk : Pk :=
      { src := .queue u.fn u.q, fn := u.fn, key := some { fn := u.fn, id := u.ctx }, origin := o, bytes := packetBytes p,
        named := p.named }
    match s.checkPacket spec h pk p.len.toNat with
    | .reply st d s => .reply st (if st = stBadPacket then d + pos else d) s
    | v => v

/-- Headgate serves the packet at the head of a queue's ring (R264 to R275). The command names the packet that the ring
read returned; it does nothing while Headgate takes no packet of this queue, and a held packet is tried again. -/
def State.takeQueue (spec : OpSpec) (h : Pk → State → Verdict) (fn q : Nat) (p : Packet) (s : State) : State :=
  match s.queue? fn q with
  | none => s
  | some u =>
    let destroying : Bool := match s.ctx? { fn := fn, id := u.ctx } with
      | some c => decide (c.st = .destroying)
      | none => true
    let other : Bool := match u.held with
      | some x => decide (x.opcode ≠ spec.opcode ∨ x.pkt ≠ p) || (spec.job && s.inReset { fn := fn, id := u.ctx })
      | none => false
    if !s.serves fn ∨ u.halted ∨ u.destroying.isSome ∨ destroying ∨ u.wait.isSome ∨ s.awaitsReply fn q ∨ other ∨
        !s.mayServe fn q then s
    else if u.read = u.write then s.endTurn fn q
    else if u.free ≤ u.owed + u.deferred then s.holdTurn fn q .ringRoom spec.opcode p
    else
      let o := packetOrigin p (.queue fn q) spec.opcode
      let len := p.len.toNat
      let units := len / 4
      let avail := (u.write + 2 ^ u.ringLog2 - u.read) % 2 ^ u.ringLog2
      match s.ringRead u u.read 16 p.ring with
      | (some f, s) =>
        (s.ringFault fn q f.1 false f.2 { o with seq := 0, opcode := 0 } { fn := fn, id := u.ctx }).endTurn fn q
      | (none, s) =>
        if !lenValid len ∨ 2 ^ u.ringLog2 < u.read + units then
          let s := (s.modQueue fn q fun u => { u with owed := u.owed + 1 }).countPacket
          ((s.replyHg o stBadPacket (1 + at' u.read 8)).modQueue fn q fun u => { u with halted := true }).endTurn fn q
        else if avail < units then ((s.turnTo fn q).unlist fn q).closeTurn fn true
        else if p.barrier ∧ u.owed ≠ countIf Job.armed (s.startedJobs (.queue fn q)) then
          s.holdTurn fn q .barrier spec.opcode p
        else if spec.job ∧ 64 ≤ (s.startedJobs (.queue fn q)).length then s.holdTurn fn q .jobLimit spec.opcode p
        else
          match s.ringRead u u.read (4 * len) p.ring with
          | (some f, s) => (s.ringFault fn q f.1 false f.2 o { fn := fn, id := u.ctx }).endTurn fn q
          | (none, s) => State.settle fn q spec.opcode p o s ((s.takeHead fn q len).checkRing spec h u p)

/-- The header words of a packet (R265). -/
def packetHeader (p : Packet) (op : BitVec 8) : List Word :=
  [BitVec.ofNat 32 (op.toNat + at' (b2n p.barrier) 8 + at' (b2n p.irq) 9 + at' p.rsv0.toNat 10 + at' p.len.toNat 16),
   p.seq, BitVec.ofNat 32 (p.ctx.toNat + at' p.queue.toNat 16), p.rsv3]

/-- Whether a packet is the one in a function's command registers (R284): they hold up to 20 dwords. -/
def Fun.holds (f : Fun) (op : BitVec 8) (p : Packet) : Bool :=
  let ws := (packetHeader p op ++ p.params).take 20
  decide (min 20 p.len.toNat ≤ ws.length) && decide (f.mboxCmd.take ws.length = ws)

/-- Headgate serves a function's mailbox (R284): the packet is the one that its command registers hold while BUSY is 1. -/
def State.takeMbox (spec : OpSpec) (h : Pk → State → Verdict) (fn : Nat) (p : Packet) (s : State) : State :=
  match s.funs[fn]? with
  | none => s
  | some f =>
    if !s.serves fn ∨ !f.mboxBusy ∨ f.mboxServing ∨ !f.holds spec.opcode p ∨ !s.mayMbox fn then s
    else
      let s := s.closeTurn fn false
      let o := packetOrigin p (.mailbox fn) spec.opcode
      let len := p.len.toNat
      if !lenValid len ∨ 20 < len then (s.replyHg o stBadPacket 1).countPacket
      else if p.ctx ≠ 0xFFFF ∨ p.queue ≠ 0xFFFF then State.settleMbox p o s (.reply stBadPacket 5 s)
      else if p.rsv0 ≠ 0 ∨ p.rsv3 ≠ 0 then State.settleMbox p o s (.reply stBadPacket 3 s)
      else
        let pk : Pk :=
          { src := .mailbox fn, fn := fn, key := none, origin := o, bytes := packetBytes p, named := p.named }
        match s.checkPacket spec h pk len with
        | .owed t => (t.countPacket).modFun fn fun f => { f with mboxServing := f.mboxBusy }
        | v => State.settleMbox p o s v

/-- Headgate serves a packet (R264, R284). With Completion Timeout Disabled no read for it ends in a timeout (R412). -/
def State.takePacket (spec : OpSpec) (h : Pk → State → Verdict) (src : Src) (p : Packet) (s : State) : State :=
  if s.neverEnds (srcFn src) p.ring ∨ s.neverEnds (srcFn src) p.named then s
  else
    match src with
    | .queue fn q => s.takeQueue spec h fn q p
    | .mailbox fn => s.takeMbox spec h fn p

/-- A packet whose own part needs nothing but a reply. -/
def okReply (s : State) : Verdict := .reply stOk 0 s

end Sys2Proof.Machine
end

