-- ==== Sys2Proof/Machine/Display.lean ====
section
/-! DEFINITION. Display pipes and the compositor (chapter 07, R201 to R220, R229): layers, commits at vblank, withdrawal,
flattening and the protected layer. -/

namespace Sys2Proof.Machine

/-! ## Layers -/

/-- A layer descriptor read from its 48 bytes (R205); extents are kept minus 1. -/
def parseLayer (bs : List Byte) (k : Option CtxKey) : Layer :=
  let v := ofLE bs
  { addr := fld v 47 0, tst := fld v 111 64, format := fld v 135 128, enable := bitOf v 136, flatEn := bitOf v 137,
    blend := fld v 139 138, flipX := bitOf v 140, flipY := bitOf v 141, surfW := fld v 175 160, surfH := fld v 191 176,
    cropX := fld v 207 192, cropY := fld v 223 208, cropW := fld v 239 224, cropH := fld v 255 240,
    dstX := fld v 271 256, dstY := fld v 287 272, dstW := fld v 303 288, dstH := fld v 319 304, alpha := fld v 327 320,
    key := k }

/-- The formats of a layer (R205). -/
def layerFormats : List Nat := [0x04, 0x05, 0x06, 0x09, 0x13, 0x14]

/-- The bytes of a layer's surface. -/
def Layer.bytes (l : Layer) : Nat := levelBytes (formatBytes l.format) (l.surfW + 1) (l.surfH + 1)

/-- A scale from crop to rectangle of 1/2 to 8 (R206); both extents are minus 1. -/
def scaleOk (crop dst : Nat) : Bool := decide (crop + 1 ≤ 2 * (dst + 1)) && decide (dst + 1 ≤ 8 * (crop + 1))

/-- The offset in a layer descriptor of the first field that R206 refuses, the surface's range apart. -/
def Layer.bad (l : Layer) : Option Nat :=
  if l.addr % 4096 ≠ 0 then some 0x00
  else if !layerFormats.contains l.format then some 0x10
  else if l.blend = 3 then some 0x11
  else if l.surfW < l.cropX + l.cropW then some 0x18
  else if l.surfH < l.cropY + l.cropH then some 0x1A
  else if !scaleOk l.cropW l.dstW then some 0x24
  else if !scaleOk l.cropH l.dstH then some 0x26
  else none

/-- The offset in a layer descriptor of its surface, when the surface does not lie inside one range of the context with the R
right and target DRAM or RESERVOIR, or of its tile state table, when that is not in a range with the R right (R206; log
entry 145). The translations fill the pipe's range cache (R209, R316). -/
def State.surfaceBad (p : Nat) (k : CtxKey) (l : Layer) (s : State) : Option Nat × State :=
  match s.lookup (.pipe p) k l.addr with
  | (.error _, s) => (some 0x00, s)
  | (.ok e, s) =>
    if !e.r ∨ (e.tgt ≠ .dram ∧ e.tgt ≠ .reservoir) ∨ e.start + e.bytes < l.addr + l.bytes then (some 0x00, s)
    else if l.tst = 0 then (none, s)
    else
      match s.translate (.pipe p) k l.tst (tstBytes (l.surfW + 1) (l.surfH + 1)) needR with
      | (.error _, s) => (some 0x08, s)
      | (.ok _, s) => (none, s)

/-- The owner of a layer under a DSP_OWNER value (R204). -/
def layerOwner (owner : Word) (l : Nat) : Nat := fld owner.toNat (2 * l + 1) (2 * l)

/-- The layers of a mask, ascending. -/
def maskLayers (m : Nat) : List Nat := (List.range 8).filter fun l => bitOf m l

/-- Whether a function owns a layer under the applied DSP_OWNER. -/
def State.ownsLayer (s : State) (fn p l : Nat) : Bool :=
  match s.pipes[p]? with
  | some u => layerOwner u.applied.owner l == fn
  | none => false

/-- The layers of a DSP_LAYER_SET with their descriptors, in ascending layer order (R205). -/
def packetLayers (p : Pk) : List (Nat × Layer) :=
  (enumFrom 0 (maskLayers (p.f 0 15 8))).map fun kl =>
    (kl.2, parseLayer ((p.bytes.drop (0x10 + 48 * kl.1)).take 48) p.key)

/-- The checks of R206 over the layers of a packet, in order: the offset of the first field refused. -/
def checkLayers (pipe : Nat) (k : CtxKey) : List (Nat × Nat × Layer) → State → Option Nat × State
  | [], s => (none, s)
  | (i, _, l) :: rest, s =>
    match l.bad with
    | some o => (some (0x10 + 48 * i + o), s)
    | none =>
      match s.surfaceBad pipe k l with
      | (none, s) => checkLayers pipe k rest s
      | (some o, s) => (some (0x10 + 48 * i + o), s)

/-! ## Shadows, pending writes and the arm -/

/-- One write put into a pipe's shadow copies (R30). -/
def PipeCfg.put (c : PipeCfg) : PipeWrite → PipeCfg
  | .layers ls => { c with layers := runAll (fun (x : Nat × Layer) l => setNth x.1 x.2 l) ls c.layers }
  | .prot d => { c with prot := d }
  | .reg off v =>
    if off = 0x004 then { c with enable := bitOf v.toNat 0 }
    else if off = 0x008 then { c with timingH := v }
    else if off = 0x00C then { c with timingV := v }
    else if off = 0x010 then { c with sync := v }
    else if off = 0x014 then { c with pclk := v }
    else if off = 0x020 then { c with owner := v &&& 0x0000FFFF }
    else if off = 0x024 then { c with bg := v &&& 0x3FFFFFFF }
    else if off = 0x028 then { c with flatCfg := v &&& 0x000FFFFF }
    else c

/-- Whether a write carries a PROTECT_SET. -/
def PipeWrite.isProt : PipeWrite → Bool
  | .prot _ => true
  | _ => false

/-- A write to SHADOW fields: into the shadows, or held behind the arm (R29, R30). What does not fit into the 16 entries
of the pending-write buffer waits in the culvert and follows in the same order (R17; log entry 14). -/
def Pipe.write (w : PipeWrite) (u : Pipe) : Pipe :=
  if u.armed then { u with writes := u.writes ++ [w] }
  else { u with shadow := u.shadow.put w, protNew := u.protNew || w.isProt }

/-- The arm of a pipe and of its share of the compositor (R31); a second arm has no further effect (R37). -/
def Pipe.arm (waiter : Option Origin) (u : Pipe) : Pipe :=
  { u with armed := true, waiters := u.waiters ++ waiter.toList }

/-! ## The commit -/

/-- Whether a refresh rate is at most some Hz, to the kHz of PCLK_KHZ (R201). -/
def PipeCfg.rateOk (c : PipeCfg) (hz : Nat) : Bool :=
  decide (1000 * c.pclk.toNat < hz * (fld c.timingH.toNat 31 16 + 1) * (fld c.timingV.toNat 31 16 + 1) + 1000)

/-- The configuration check of the commit that enables a pipe (R229): active and blanking fit the totals, the mode is one
the pipe supports at a refresh rate that it supports, the link codes are assigned, and DSC fits R201 (log entry 15). -/
def Pipe.cfgOk (c : PipeCfg) (u : Pipe) : Bool :=
  let sync := c.sync.toNat
  let h := c.activeW + fld sync 11 0 + fld sync 21 12 + 1
  let v := c.activeH + fld sync 26 22 + 1 + fld sync 31 27 + 1
  let rate := fld u.link.toNat 2 0
  let bpc := if bitOf u.out.toNat 0 then 10 else 8
  let bpp := fld u.out.toNat 11 2
  decide (h ≤ fld c.timingH.toNat 31 16 + 1) && decide (v ≤ fld c.timingV.toNat 31 16 + 1) &&
    ((decide (c.activeW ≤ 5120) && decide (c.activeH ≤ 2880) && c.rateOk 60) ||
      (decide (c.activeW ≤ 3840) && decide (c.activeH ≤ 2160) && c.rateOk 120)) && decide (rate ≤ 4) && decide (fld u.link.toNat 4 3 ≤ 2) &&
    (!(bitOf u.out.toNat 1) ||
      (decide (128 ≤ bpp) && decide (bpp ≤ 48 * bpc) && decide (c.activeH % (fld u.out.toNat 25 14 + 1) = 0)))

/-- A disabled layer whose descriptor is zero (R204). -/
def zeroLayer : Layer := resetLayer

/-- The layers whose owner changes return to zero (R204). -/
def dropMoved (old new : Word) (ls : List Layer) : List Layer :=
  (enumFrom 0 ls).map fun x => if layerOwner old x.1 = layerOwner new x.1 then x.2 else zeroLayer

/-- The descriptor of a layer: all of it but the context that set it. -/
def Layer.desc (l : Layer) : Layer := { l with key := none }

/-- The layers that change at a commit: a field of the descriptor, the owner, or for layer 0 DSP_BG (R214). -/
def changedLayers (old new : PipeCfg) : List Bool :=
  (List.range 8).map fun l =>
    decide ((old.layers[l]?).map Layer.desc ≠ (new.layers[l]?).map Layer.desc) || decide (layerOwner old.owner l ≠ layerOwner new.owner l) ||
      (l == 0 && decide (old.bg ≠ new.bg))

/-- The commit of a pipe (R29, R31, R202, R204, R229); the pending writes then enter the shadows in arrival order (R30). -/
def Pipe.commit (u : Pipe) : Pipe :=
  let moved := dropMoved u.applied.owner u.shadow.owner
  let shadow := { u.shadow with layers := moved u.shadow.layers }
  let enabling := shadow.enable && !u.applied.enable
  let ok := u.cfgOk shadow
  let applied := if enabling && !ok then { shadow with enable := false } else shadow
  let u := { u with
    shadow := shadow
    applied := applied
    armed := false
    cfgBad := if enabling then !ok else u.cfgBad
    protState := if u.protNew then (if applied.prot.enable then .showing else .off) else u.protState
    protNew := false
    writes := [] }
  u

/-- The pending writes put into the shadows once the commit has applied. -/
def Pipe.drain (ws : List PipeWrite) (u : Pipe) : Pipe := runAll Pipe.write ws u

/-! ## Withdrawal -/

/-- A layer disabled. -/
def Layer.disable (l : Layer) : Layer := { l with enable := false }

/-- A layer of a pending write disabled when it is withdrawn. -/
def PipeWrite.withdraw (gone : Layer → Bool) : PipeWrite → PipeWrite
  | .layers ls => .layers (ls.map fun x => if gone x.2 then (x.1, x.2.disable) else x)
  | w => w

/-- The layers that name something withdrawn (R209): a shadow layer is disabled where it stands, an applied one at the
next vblank start. -/
def Pipe.withdrawLayers (gone : Layer → Bool) (u : Pipe) : Pipe :=
  let gone := fun l => gone l && l.enable
  let applied := (enumFrom 0 u.applied.layers).filterMap fun x => if gone x.2 then some x.1 else none
  { u with
    withdraw := applied ++ u.withdraw.filter fun l => !(applied.contains l)
    shadowGone := u.shadowGone || u.shadow.layers.any gone
    shadow := { u.shadow with layers := u.shadow.layers.map fun l => if gone l then l.disable else l }
    writes := u.writes.map fun w => w.withdraw gone }

/-- Whether a range of a context is named by a layer, through its surface or its tile state table. -/
def Layer.names (k : CtxKey) (rs : List RangeEntry) (l : Layer) : Bool :=
  decide (l.key = some k) && rs.any fun e =>
    spansMeet l.addr l.bytes e.start e.bytes ||
      (decide (l.tst ≠ 0) && spansMeet l.tst (tstBytes (l.surfW + 1) (l.surfH + 1)) e.start e.bytes)

/-- Step 1 of a vblank start: withdrawn layers are disabled and WITHDRAWN is set (R209). -/
def Pipe.finishWithdraw (u : Pipe) : Pipe :=
  if u.withdraw.isEmpty ∧ !u.shadowGone then u
  else
    { u with
      applied := { u.applied with
        layers := (enumFrom 0 u.applied.layers).map fun x => if u.withdraw.contains x.1 then x.2.disable else x.2 }
      withdraw := []
      gone := []
      shadowGone := false
      withdrawn := true }

/-! ## Flattening -/

/-- The granules that a pipe's flat layer needs (R212). -/
def PipeCfg.flatNeed (c : PipeCfg) : Nat := ceilDiv (levelBytes 4 c.activeW c.activeH) granuleBytes

/-- Whether flattening is off for want of room (R212). -/
def State.flatNoRoom (s : State) (c : PipeCfg) : Bool :=
  let base := fld c.flatCfg.toNat 7 0
  let n := fld c.flatCfg.toNat 15 8
  decide (n < c.flatNeed) || !((List.range n).all fun k => s.ownsGranule 0 (base + k))

/-- The run of layers that may be flattened (R213). -/
def flatRunOf (n : Nat) : List (Layer × Nat) → Nat
  | [] => 0
  | (l, age) :: rest => if !l.enable || (l.flatEn && decide (n ≤ age)) then 1 + flatRunOf n rest else 0

/-- The decision of R213 at a vblank start, after any commit; `changed` marks the layers changed at it (R214). -/
def Pipe.flatten (noRoom : Bool) (changed : List Bool) (u : Pipe) : Pipe :=
  let n := fld u.applied.flatCfg.toNat 19 16
  let ages := (List.zip u.ages changed).map fun x => if x.2 then 0 else min (x.1 + 1) 255
  let run := flatRunOf n (List.zip u.applied.layers ages)
  let run := if n = 0 ∨ noRoom ∨ countIf (fun l => l.enable) (u.applied.layers.take run) < 2 then 0 else run
  let u := if u.flatDone then { u with flatValid := true, flatRun := u.flatWrite.getD 0 } else u
  let valid := u.flatValid && u.flatRun == run
  { u with
    ages := ages
    noRoom := noRoom
    flatValid := valid
    flatRun := if valid then run else 0
    flatWrite := if valid ∨ run = 0 ∨ !u.applied.enable then none else some run
    flatDone := false }

/-! ## Layer reads that meet an uncorrectable error -/

/-- The lines of a frame that meet errors count in READ_UE, each once, and their words at the memory that holds them (R43,
R208). -/
def State.countReadUe (p : Nat) (s : State) : State :=
  match s.pipes[p]? with
  | none => s
  | some u =>
    if !u.applied.enable then s
    else
      let bad := s.badLines p u
      (runAll (fun (l : Target × Nat) s => s.countUes l.1 (128 * l.2) 128) bad s).modPipe p fun u =>
        { u with readUe := satAdd u.readUe bad.length }

/-! ## Vblank start -/

/-- The event of a pipe or a channel reaches Sluice (R178, R179). -/
def State.raiseEvent (src : EventSrc) (s : State) : State :=
  s.modSluice fun l => { l with events := l.events ++ [(src, s.now)] }

/-- A vblank start of pipe p at a time of the Sluice timer (R202, R209, R210, R213). It needs the pipe's island to run. -/
def State.vblank (p us : Nat) (s : State) : State :=
  match s.pipes[p]? with
  | none => s
  | some _ =>
    if !s.islandUp (0x68 + p) then s
    else
      let s := s.advance us
      match s.pipes[p]? with
      | none => s
      | some u0 =>
        let u1 := u0.finishWithdraw
        let u2 := if u1.armed then u1.commit else u1
        let u3 := { u2 with frames := u2.frames + 1, underrun := false }
        let noRoom := s.flatNoRoom u3.applied
        let u4 := if s.islandUp 0x6C then u3.flatten noRoom (changedLayers u0.applied u3.applied) else u3
        let u5 := if u1.armed then { u4.drain u1.writes with waiters := [] } else u4
        let s := { s with pipes := setNth p u5 s.pipes }
        let s := s.raiseEvent (.vblank p)
        let s := runAll (fun (o : Origin) s => s.replyBy o (0x68 + p) stOk u3.frames.toNat)
          (if u1.armed then u1.waiters else []) s
        s.countReadUe p

/-- VBLANK_START. -/
def execVblankStart (p us : Nat) (s : State) : Res := .next (s.vblank p us)

/-- FLAT_WRITE_DONE (R212, R213): the compositor has written the run of this frame into the region, before the next vblank
start; the tags of the flattening cache hold what it wrote (R62). -/
def execFlatWriteDone (p : Nat) (s : State) : Res :=
  match s.pipes[p]? with
  | none => .next s
  | some u =>
    match u.flatWrite with
    | none => .next s
    | some run =>
      if u.flatDone ∨ !s.islandUp 0x6C ∨ s.flatNoRoom u.applied then .next s
      else
        let (k, s) := s.fresh
        .next ((s.writeFlat p run u.applied k).modPipe p fun u => { u with flatDone := true, flatTags := true })

/-- PIXEL_UNDERRUN (R203): the frame counts as one with an underrun. -/
def execPixelUnderrun (p : Nat) (s : State) : Res :=
  .next (s.modPipe p fun u =>
    if u.applied.enable ∧ !u.underrun then { u with underrun := true, underruns := satInc u.underruns } else u)

/-! ## The protected layer -/

/-- A stored channel of n bits widened to 10 bits, rounded (R207). -/
def widen10 (bits v : Nat) : Nat :=
  let m := 2 ^ bits - 1
  (2 * v * 1023 + m) / (2 * m)

/-- A 10-bit channel reduced to 8 bits: the value it came from, or a free value (R207; log entry 13). -/
def narrow8 (v : Nat) : Nat :=
  match (List.range 256).find? fun x => widen10 8 x == v with
  | some x => x
  | none => Config.reduce8 v % 256

/-- The composed R, G and B of a protected pixel, 10 bits each (R207, R217). -/
def protPixel (format w : Nat) : List Nat :=
  let ch := fun k => if format = 0x09 then fld w (10 * k + 9) (10 * k) else fld w (8 * k + 7) (8 * k)
  let opaquePix := if format = 0x09 then decide (fld w 31 30 = 3) else decide (fld w 31 24 = 255)
  let order := if format = 0x06 then [2, 1, 0] else [0, 1, 2]
  order.map fun k =>
    if opaquePix then (if format = 0x09 then ch k else widen10 8 (ch k)) else Config.protBlend format w k % 1024

/-- The bytes that a composed pixel gives the CRC (R218). -/
def crcBytes (bpc10 : Bool) (px : List Nat) : List Byte :=
  px.flatMap fun v => if bpc10 then toLE 2 v else toLE 1 (narrow8 v)

/-- The image that a protected layer shows: its Reservoir address, none in FAILED (R219). -/
def ProtDesc.image (d : ProtDesc) : ProtState → Option Nat
  | .showing => some d.content
  | .fallback => some d.fallback
  | _ => none

/-- The word of a protected image's pixel: zeros for a line with an uncorrectable error (R208). -/
def State.imageWord (s : State) (base w x y : Nat) : Nat :=
  let a := base + blockOffset 4 w x y
  s.scan a (some (.reservoir, a, 4))

/-- The CRC-32 of the composed rectangle (R218). -/
def State.protCrc (s : State) (d : ProtDesc) (st : ProtState) (bpc10 : Bool) : Word :=
  let w := d.w + 1
  let fail := d.colour.toNat
  crc32 ((List.range (d.h + 1)).flatMap fun y => (List.range w).flatMap fun x =>
    crcBytes bpc10 (match d.image st with
      | some base => protPixel d.format (s.imageWord base w x y)
      | none => [fld fail 29 20, fld fail 19 10, fld fail 9 0]))

/-- The bytes of a protected image (R216). -/
def ProtDesc.bytes (d : ProtDesc) : Nat := levelBytes 4 (d.w + 1) (d.h + 1)

/-- The 128-byte lines of an image that hold a pixel of the rectangle: one for each micro-tile (R124). -/
def ProtDesc.lines (d : ProtDesc) (base : Nat) : List Nat :=
  (List.range (d.h / 4 + 1)).flatMap fun j => (List.range (d.w / 8 + 1)).map fun i => base + blockOffset 4 (d.w + 1) (8 * i) (4 * j)

/-- The lines of the image shown that hold an uncorrectable error (R208). -/
def State.protBad (s : State) (d : ProtDesc) (st : ProtState) : List Nat :=
  match d.image st with
  | some base => (d.lines base).filter fun a => s.poisoned .reservoir a 128
  | none => []

/-- The composed pixel of a frame: the protected rectangle over opaque black, or the layers (R207, R217). -/
def State.framePixel (s : State) (p : Nat) (u : Pipe) (x y : Nat) : List Nat :=
  let d := u.applied.prot
  if u.protects x y then
    match d.image u.protState with
    | some base => protPixel d.format (s.imageWord base (d.w + 1) (x - d.x) (y - d.y))
    | none => [fld d.colour.toNat 29 20, fld d.colour.toNat 19 10, fld d.colour.toNat 9 0]
  else s.composed p u x y

/-- The pixel that the pipe outputs: 8 bits per channel when the output is 8 bpc (R207). -/
def State.outPixel (s : State) (p : Nat) (u : Pipe) (x y : Nat) : List Nat :=
  if bitOf u.out.toNat 0 then s.framePixel p u x y else (s.framePixel p u x y).map narrow8

/-- PROTECT_CRC_CHECK (R218 to R220): the compositor has composed the rectangle's last line. -/
def execProtectCrcCheck (p : Nat) (s : State) : Res :=
  match s.pipes[p]? with
  | none => .next s
  | some u =>
    let d := u.applied.prot
    if !u.applied.enable ∨ u.protState = .off ∨ !s.islandUp 0x6C then .next s
    else
      let crc := s.protCrc d u.protState (bitOf u.out.toNat 0)
      let bad := s.protBad d u.protState
      let s := runAll (fun (a : Nat) s => s.countUes .reservoir a 128) bad s
      let s := s.modPipe p fun u => { u with lastCrc := crc }
      let want := if u.protState = .showing then d.crc else d.fbCrc
      if u.protState = .failed ∨ (bad.isEmpty ∧ crc = want) then .next s
      else
        let next := if u.protState = .showing then ProtState.fallback else ProtState.failed
        let s := s.modPipe p fun u => { u with protState := next, mismatches := satInc u.mismatches }
        let detail := p + at' (if next = .fallback then 2 else 3) 2
        match d.origin with
        | some { src := .queue fn q, seq, opcode, irq := _ } =>
          .next (s.event fn q seq opcode 0x6C stVerifyFail detail (BitVec.ofNat 64 u.frames.toNat))
        | _ => .next s

/-- A protected-layer descriptor read from its 64 bytes (R216). -/
def parseProt (bs : List Byte) (o : Origin) : ProtDesc :=
  let v := ofLE bs
  { enable := bitOf v 2, format := fld v 15 8, x := fld v 47 32, y := fld v 63 48, w := fld v 74 64, h := fld v 90 80,
    crc := BitVec.ofNat 32 (fld v 127 96), content := fld v 159 128, fallback := fld v 191 160,
    fbCrc := BitVec.ofNat 32 (fld v 223 192), colour := BitVec.ofNat 30 (fld v 253 224), origin := some o }

/-- The offset of the first field of a protected-layer descriptor that R215 refuses. -/
def ProtDesc.bad (d : ProtDesc) (c : PipeCfg) : Option Nat :=
  if !([0x04, 0x06, 0x09].contains d.format) then some 0x01
  else if c.activeW < d.x + d.w + 1 then some 0x04
  else if c.activeH < d.y + d.h + 1 then some 0x06
  else if d.content % 4096 ≠ 0 then some 0x10
  else if d.fallback % 4096 ≠ 0 then some 0x14
  else none

/-- Whether a span of the Reservoir lies inside the protected region (R215, R251). -/
def State.inProtected (s : State) (a n : Nat) : Bool :=
  decide (a + n ≤ s.rsvBytes) && (List.range (n / granuleBytes + 2)).all fun k =>
    let g := a / granuleBytes + k
    decide (a + n ≤ g * granuleBytes) || s.levee.protMask.toNat.testBit g

/-- The PROTECT_SET packet (R215, R278). -/
def protectSetSpec : OpSpec :=
  { opcode := 0x07, assigned := true, may := mayProtected, mailbox := false, job := false, lostOk := false,
    len := fun _ => 20,
    reserved := fun _ => [(0x00, 7, 3), (0x02, 15, 0), (0x08, 15, 11), (0x0A, 15, 11), (0x1C, 31, 30), (0x20, 255, 0)] }

/-- PROTECT_SET at its own checks: Levee writes the shadows and arms the pipe (R210, R215). While the Levee processor is
down it is refused (R373). -/
def protectSet (p : Pk) (s : State) : Verdict :=
  let pipe := p.f 0 1 0
  match s.pipes[pipe]? with
  | none => .reply stBadParam 0 s
  | some u =>
    if !s.procUp 3 then .reply stNoResource 0xFFFFFFFE s
    else
      let d := parseProt (p.bytes.take 64) p.origin
      match d.bad u.applied with
      | some o => .reply stBadParam o s
      | none =>
        if !s.inProtected d.content d.bytes then .reply stOutsideLevee 0x10 s
        else if !s.inProtected d.fallback d.bytes then .reply stOutsideLevee 0x14 s
        else if u.armed then .hold .commitArmed
        else .owed (s.modPipe pipe fun u => (u.write (.prot d)).arm (some p.origin))

def execProtectSet (src : Src) (p : Packet) (s : State) : Res := .next (s.takePacket protectSetSpec protectSet src p)

/-! ## Packets -/

/-- The reserved fields of the layer descriptors of a packet. -/
def layerReserved (n : Nat) : List (Nat × Nat × Nat) :=
  (List.range n).flatMap fun k =>
    let b := 0x10 + 48 * k
    [(b + 0x06, 15, 0), (b + 0x0E, 15, 0), (b + 0x11, 23, 6), (b + 0x29, 23, 0), (b + 0x2C, 31, 0)]

/-- The DSP_LAYER_SET packet (R206, R278). A mask that names no layer is refused (log entry 16). -/
def layerSetSpec : OpSpec :=
  { opcode := 0x50, assigned := true,
    may := fun p s => (maskLayers (p.f 0 15 8)).all fun l => s.ownsLayer p.fn (p.f 0 1 0) l,
    mailbox := false, job := false, lostOk := false,
    len := fun p => 8 + 12 * (maskLayers (p.f 0 15 8)).length,
    reserved := fun p =>
      [(0x00, 7, 2), (0x02, 15, 0), (0x04, 95, 0)] ++ layerReserved (maskLayers (p.f 0 15 8)).length }

/-- DSP_LAYER_SET at its own checks (R206): all layers are checked, then all are written. -/
def layerSet (p : Pk) (s : State) : Verdict :=
  let pipe := p.f 0 1 0
  let ls := packetLayers p
  match p.key with
  | none => .reply stNotPermitted 0 s
  | some k =>
    if ls.isEmpty then .reply stBadParam 1 s
    else
      match checkLayers pipe k (enumFrom 0 ls) s with
      | (some o, s) => .reply stBadParam o s
      | (none, s) => .reply stOk 0 (s.modPipe pipe (Pipe.write (.layers ls)))

def execDspLayerSet (src : Src) (p : Packet) (s : State) : Res := .next (s.takePacket layerSetSpec layerSet src p)

/-- The DSP_COMMIT packet (R210, R278). -/
def dspCommitSpec : OpSpec :=
  { opcode := 0x51, assigned := true, may := fun p s => (List.range 8).any fun l => s.ownsLayer p.fn (p.f 0 1 0) l,
    mailbox := false, job := false, lostOk := false, len := fun _ => 8,
    reserved := fun _ => [(0x00, 31, 2), (0x04, 95, 0)] }

/-- DSP_COMMIT at its own checks: it arms the pipe, or is held while the pipe is armed (R210, R275). -/
def dspCommit (p : Pk) (s : State) : Verdict :=
  let pipe := p.f 0 1 0
  match s.pipes[pipe]? with
  | none => .reply stBadParam 0 s
  | some u =>
    if u.armed then .hold .commitArmed else .owed (s.modPipe pipe (Pipe.arm (some p.origin)))

def execDspCommit (src : Src) (p : Packet) (s : State) : Res := .next (s.takePacket dspCommitSpec dspCommit src p)

/-! ## Registers and pins (R229) -/

/-- Whether a pipe transmits: enabled, its link trained and its sink present (R229; log entry 105). -/
def Pipe.active (u : Pipe) : Bool := u.applied.enable && u.trained && u.hpd

/-- DSP_STATUS (R229). -/
def Pipe.statusReg (u : Pipe) : Nat :=
  at' (b2n u.liveWrite) 31 + at' (b2n u.armed) 30 + at' (b2n (!u.writes.isEmpty)) 29 + at' (b2n u.active) 28 +
    at' (b2n u.cfgBad) 27 + at' (b2n u.flatValid) 26 + at' (b2n u.noRoom) 25 + at' (b2n u.withdrawn) 24 +
    at' u.flatRun 20 + at' u.underruns.toNat 8 + u.readUe.toNat

/-- The code of a protected layer's state (R229). -/
def protCode : ProtState → Nat
  | .off => 0
  | .showing => 1
  | .fallback => 2
  | .failed => 3

/-- A read of a DSP_ register; WO and reserved fields read as 0 (R229). -/
def Pipe.readReg (u : Pipe) (off : Nat) : Nat :=
  if off = 0x000 then u.statusReg
  else if off = 0x004 then b2n u.shadow.enable
  else if off = 0x008 then u.shadow.timingH.toNat
  else if off = 0x00C then u.shadow.timingV.toNat
  else if off = 0x010 then u.shadow.sync.toNat
  else if off = 0x014 then u.shadow.pclk.toNat
  else if off = 0x018 then u.out.toNat
  else if off = 0x01C then
    at' (b2n u.hpdIrq) 12 + at' (b2n u.hpd) 11 + at' (b2n u.trainFail) 10 + at' (b2n u.trained) 9 + fld u.link.toNat 4 0
  else if off = 0x020 then u.shadow.owner.toNat
  else if off = 0x024 then u.shadow.bg.toNat
  else if off = 0x028 then u.shadow.flatCfg.toNat
  else if off = 0x02C then u.frames.toNat
  else if off = 0x030 then at' u.mismatches.toNat 16 + protCode u.protState
  else if off = 0x034 then u.lastCrc.toNat
  else if off = 0x040 then at' u.auxResult.toNat 28 + at' (b2n u.auxBusy) 27 + fld u.auxCmd.toNat 25 0
  else if 0x044 ≤ off ∧ off ≤ 0x050 then (u.auxData.getD ((off - 0x044) / 4) 0).toNat
  else 0

/-- The AUX transaction started (R201, R229); none while one runs. -/
def Pipe.auxStart (u : Pipe) : Pipe := if u.auxBusy then u else { u with auxBusy := true }

/-- Training started at RATE and LANES (R229); at a reserved code there is no link to train, and the training has failed (log
entry 146). -/
def Pipe.trainStart (u : Pipe) : Pipe :=
  if fld u.link.toNat 2 0 ≤ 4 ∧ fld u.link.toNat 4 3 ≤ 2 then { u with training := true }
  else { u with training := false, trained := false, trainFail := true }

/-- A write of a DSP_ register (R29 to R32, R229). A write of DSP_CTRL puts ENABLE before it arms. -/
def Pipe.writeReg (off : Nat) (v : Word) (u : Pipe) : Pipe :=
  if off = 0x000 then
    { u with liveWrite := u.liveWrite && !(bitOf v.toNat 31), withdrawn := u.withdrawn && !(bitOf v.toNat 24) }
  else if off = 0x004 then
    let u := u.write (.reg off v)
    if bitOf v.toNat 1 then u.arm none else u
  else if off = 0x018 then
    if u.applied.enable then { u with liveWrite := true } else { u with out := v &&& 0x03FFFFFF }
  else if off = 0x01C then
    let u := { u with hpdIrq := u.hpdIrq && !(bitOf v.toNat 12) }
    let u := if u.applied.enable then { u with liveWrite := true } else { u with link := v &&& 0x1F }
    if bitOf v.toNat 8 then u.trainStart else u
  else if off = 0x040 then
    let u := { u with auxCmd := v &&& 0x03FFFFFF }
    if bitOf v.toNat 26 then u.auxStart else u
  else if 0x044 ≤ off ∧ off ≤ 0x050 then { u with auxData := setNth ((off - 0x044) / 4) v u.auxData }
  else if [0x008, 0x00C, 0x010, 0x014, 0x020, 0x024, 0x028].contains off then u.write (.reg off v)
  else u

/-- A register operation of a pipe whose island runs. -/
def State.onPipe (p : Nat) (f : Pipe → Pipe) (s : State) : State := if s.islandUp (0x68 + p) then s.modPipe p f else s

/-- The end of a training (R229, R402). -/
def execDpLinkTrainingDone (p : Nat) (ok : Bool) (s : State) : Res :=
  .next (s.onPipe p fun u => if u.training then { u with training := false, trained := ok, trainFail := !ok } else u)

/-- AUX_TRANSACTION_DONE (R201, R229): the result, and for a read that was acknowledged its bytes. -/
def execAuxTransactionDone (p : Nat) (result : BitVec 2) (data : List Byte) (s : State) : Res :=
  .next (s.onPipe p fun u =>
    if !u.auxBusy then u
    else
      let n := fld u.auxCmd.toNat 23 20 + 1
      let old := u.auxData.flatMap fun w => toLE 4 w.toNat
      let new := takePad 0 n data ++ old.drop n
      let take := bitOf u.auxCmd.toNat 24 && decide (result = 0)
      { u with
        auxBusy := false
        auxResult := result
        auxData := if take then (List.range 4).map fun i => BitVec.ofNat 32 (ofLE ((new.drop (4 * i)).take 4)) else u.auxData })

/-- HPD_EVENT (R201, R229). -/
def execHpdEvent (p : Nat) (kind : HpdKind) (s : State) : Res :=
  .next (s.onPipe p fun u => match kind with
    | .plug => { u with hpd := true }
    | .unplug => { u with hpd := false }
    | .irq => { u with hpdIrq := true })

/-- TRAINING_LOST (R229): transmission alone stops. -/
def execTrainingLost (p : Nat) (s : State) : Res := .next (s.onPipe p fun u => { u with trained := false })

end Sys2Proof.Machine
end

