-- ==== Sys2Proof/Machine/Jobs.lean ====
section
/-! DEFINITION. Work that is ready to be scheduled, and the life of NET_RUN jobs: arming, firing, groups, frame buffers and
the end of a run (R153, R160 to R163, R173, R226). -/

namespace Sys2Proof.Machine

/-- Work joins the units that Sluice may deal (R173). -/
def State.addReady (ws : List Work) (s : State) : State := s.modSluice fun l => { l with ready := l.ready ++ ws }

/-- The run of a NET_RUN job. -/
def Job.run? (j : Job) : Option NetRun :=
  match j.kind with
  | .net r => some r
  | _ => none

/-- The run of a job changed. -/
def State.modRun (id : Nat) (f : NetRun → NetRun) (s : State) : State :=
  s.modJob id fun j => match j.kind with
    | .net r => { j with kind := .net (f r) }
    | _ => j

/-- The next workgroup of a KERNEL layer that is not dealt yet: a layer's workgroups go to every cluster that runs a share of it
(R161, R173). -/
def NetRun.nextWg (r : NetRun) (l : Nat) : Nat := ((r.dealt.find? fun x => x.1 == l).map (·.2)).getD 0

/-- The workgroups of a KERNEL layer dealt up to a number. -/
def NetRun.dealt_ (l n : Nat) (r : NetRun) : NetRun := { r with dealt := (l, n) :: r.dealt.filter fun x => x.1 != l }

/-- A loaded network of a context. -/
def State.net? (s : State) (k : CtxKey) (handle : Nat) : Option Net :=
  match s.ctx? k with
  | some c => c.nets.find? fun n => n.handle == handle
  | none => none

/-- The layers of a group of a network, by index (R153). -/
def Net.groupLayers (n : Net) (g : Nat) : List Nat :=
  (enumFrom 0 n.layers).filterMap fun x => if x.2.group = g then some x.1 else none

/-- The groups of a network in order (R153). -/
def Net.groupIds (n : Net) : List Nat :=
  (n.layers.map fun l => l.group).foldr (fun g acc => if acc.head? = some g then acc else g :: acc) []

/-- Whether a layer runs on the clusters (R147). -/
def Net.isKernel (n : Net) (l : Nat) : Bool :=
  match n.layers[l]? with
  | some d => d.op == 0x10
  | none => false

/-- The work of one layer of a job. -/
def Net.layerWork (n : Net) (job l : Nat) : Work :=
  { job := job, kind := if n.isKernel l then .kernelLayer l else .layer l }

/-- Group number i, counted from 0, of a run starts: its layers become ready (R153, R161). -/
def State.startGroup (job : Nat) (n : Net) (i : Nat) (s : State) : State :=
  let ls := n.groupLayers (n.groupIds.getD i 0)
  (s.modRun job fun r => { r with group := i, left := ls, dealt := [] }).addReady (ls.map (n.layerWork job))

/-- Whether an earlier run of the same handle of the same context is running (R160). -/
def State.handleBusy (s : State) (k : CtxKey) (handle : Nat) : Bool :=
  s.jobs.any fun j => decide (j.key = k) && match j.run? with
    | some r => r.handle == handle && r.running
    | none => false

/-- A fired or queued run starts unless an earlier run of its handle still runs (R160, R161). -/
def State.tryRun (j : Job) (s : State) : State :=
  match s.job? j.id with
  | none => s
  | some j =>
    match j.run? with
    | none => s
    | some r =>
      if r.armed ∨ r.running ∨ j.outcome ≠ .running ∨ s.handleBusy j.key r.handle then s
      else
        match s.net? j.key r.handle with
        | none => s
        | some n =>
          let s := s.modRun j.id fun r => { r with running := true, executed := 0, sat := 0, attempt := 0 }
          s.startGroup j.id n 0

/-- Every run that waits is tried, oldest first. -/
def State.tryRuns (s : State) : State := runAll State.tryRun s.jobs s

/-- The armed runs of a channel, oldest first (R160). -/
def State.armedRuns (s : State) (port vc : Nat) : List Job :=
  s.jobs.filter fun j => decide (j.outcome = .running) && match j.run? with
    | some r => r.armed && r.port == port && r.vc == vc
    | none => false

/-- A frame end that may fire a run (R160, R226, R227): the oldest armed run takes it, with the frame's buffer when it
binds it; with no run armed the frame end counts as missed. -/
def State.fireRun (port vc : Nat) (buf : Option (CtxKey × Nat)) (s : State) : State :=
  match s.armedRuns port vc with
  | [] => { s with nsMissed := satInc s.nsMissed }
  | j :: _ =>
    let s := s.modRun j.id fun r =>
      let r := { r with armed := false }
      match buf with
      | some b => if r.bindFrame then { r with buffer := some b, binds := setNth 0 b.2 r.binds } else r
      | none => r
    let s := match j.run?, buf with
      | some r, some b => if r.bindFrame then s.modChan port vc fun c => { c with held := b :: c.held } else s
      | _, _ => s
    s.tryRun j

/-- A frame buffer that a run held is free again at the run's reply (R226). -/
def State.freeBuffer (j : Job) (s : State) : State :=
  match j.run? with
  | some r => match r.buffer with
    | some b => s.modChan r.port r.vc fun c => { c with held := dropFirst (fun x => decide (x = b)) c.held }
    | none => s
  | none => s

/-- A fault of a layer of a NET_RUN (R163, R289): its record says whether the job restarts. A KERNEL layer's fault is
recorded so too (log entry 43). -/
def State.netFault (job layer island : Nat) (kind : FaultKind) (write atomic : Bool) (va : Nat) (s : State) : State :=
  match s.job? job with
  | none => s
  | some j =>
    match j.run?.bind fun r => (s.net? j.key r.handle).map fun n => (r, n) with
    | none => s
    | some (r, n) =>
      let g := match n.layers[layer]? with
        | some l => l.group
        | none => 0
      (s.modRun job fun r => { r with faulted := true }).report
        { kind := kind, source := 1, write := write, atomic := atomic, island := island, address := va,
          loc := layer + at' g 16, lanes := 0, job := some job, origin := j.origin, key := j.key,
          restart := decide (r.attempt < n.retry), stamp := s.count island }

/-- Whether an access of a context's layers is in flight. -/
def State.layersInFlight (s : State) (k : CtxKey) : Bool :=
  s.flight.any fun (f : Access) => decide (f.key = k) && (match f.who with
    | .engine (.array _) => true
    | .engine (.cluster _) => true
    | _ => false)

/-- A new job (R3, R270, R273). -/
def newJob (id : Nat) (k : CtxKey) (o : Origin) (fence : Nat) (value : BitVec 64) (kind : JobKind) : Job :=
  { id := id, key := k, origin := o, fence := fence, value := value, kind := kind, outcome := .running, record := none,
    hasFault := false, island := 0x62, endStamp := 0, sinceReset := true }

/-- A job started by a packet: its fence and value come from the job block (R277). -/
def State.startJob (p : Pk) (k : CtxKey) (kind : JobKind) (s : State) : Nat × State :=
  let id := s.nextJob
  (id, { s with
    nextJob := id + 1
    jobs := s.jobs ++ [newJob id k p.origin p.fence (BitVec.ofNat 64 (p.f 8 63 0)) kind] })

end Sys2Proof.Machine
end

