-- ==== Sys2Proof/Machine/Camera.lean ====
section
/-! DEFINITION. Camera receivers and the camera front end (chapter 07, R221 to R228, R230). -/

namespace Sys2Proof.Machine

/-! ## Data types and layout -/

/-- Bits of a pixel by the data type; YUV422 carries two bytes per pixel (R221, R224). -/
def dtBits (dt : Nat) : Nat :=
  if dt = 0x2A then 8 else if dt = 0x2B then 10 else if dt = 0x2C then 12 else if dt = 0x2D then 14
  else if dt = 0x2E then 16 else if dt = 0x2F then 20 else if dt = 0x1E then 16 else 0

/-- The data types that a receiver supports (R221). -/
def dtOk (dt : Nat) : Bool := decide (dtBits dt ≠ 0)

/-- Bytes of an output pixel (R224). -/
def CamDesc.pixelBytes (d : CamDesc) : Nat := if d.dt = 0x1E then 2 else if d.out = 0 then 1 else if d.out = 3 then 4 else 2

/-- The decimation factor of a code (R224). -/
def decFactor (c : Nat) : Nat := if c = 0 then 1 else if c = 1 then 2 else 4

/-- Output pixels per row and output rows (R224). -/
def CamDesc.outW (d : CamDesc) : Nat := (d.cropW + 1) / decFactor d.decX
def CamDesc.outH (d : CamDesc) : Nat := (d.cropH + 1) / decFactor d.decY
def CamDesc.rowBytes (d : CamDesc) : Nat := d.outW * d.pixelBytes

/-- A channel descriptor read from its 32 bytes (R224); extents are kept minus 1. -/
def parseCam (bs : List Byte) : CamDesc :=
  let v := ofLE bs
  { dt := fld v 5 0, enable := bitOf v 6, dropBad := bitOf v 7, out := fld v 9 8, decX := fld v 11 10, decY := fld v 13 12,
    cropX := fld v 47 32, cropY := fld v 63 48, cropW := fld v 79 64, cropH := fld v 95 80, stride := fld v 127 96 }

/-- Whether the output width of a data type may be chosen (R224; log entry 17). -/
def outOk (dt out : Nat) : Bool :=
  if dt = 0x1E then out == 0
  else if dt = 0x2A then true
  else if dt = 0x2F then out == 3
  else decide (out ≠ 0)

/-- The offset in the descriptor of the first limit of R224 that it breaks. -/
def CamDesc.bad (d : CamDesc) : Option Nat :=
  let raw := decide (d.dt ≠ 0x1E)
  if !dtOk d.dt then some 0x00
  else if !outOk d.dt d.out then some 0x01
  else if d.decX = 3 ∨ d.decY = 3 then some 0x01
  else if raw ∧ d.cropX % 2 ≠ 0 then some 0x04
  else if raw ∧ d.cropY % 2 ≠ 0 then some 0x06
  else if (d.cropW + 1) % (2 * decFactor d.decX) ≠ 0 then some 0x08
  else if raw ∧ (d.cropH + 1) % (2 * decFactor d.decY) ≠ 0 then some 0x0A
  else if d.stride % 16 ≠ 0 ∨ d.stride < d.rowBytes then some 0x0C
  else none

/-! ## Shadows, bindings and withdrawal -/

/-- A camera channel. -/
def State.chan? (s : State) (port vc : Nat) : Option Channel :=
  match s.camera.ports[port]? with
  | some p => p.chans[vc]?
  | none => none

/-- The owner of a channel (R223, R230). -/
def Port.owner' (p : Port) (vc : Nat) : Nat := fld p.owner.toNat (2 * vc + 1) (2 * vc)

/-- Whether a function owns a channel (R223). -/
def State.ownsChannel (s : State) (fn port vc : Nat) : Bool :=
  match s.camera.ports[port]? with
  | some p => decide (vc < 16) && p.owner' vc == fn
  | none => false

/-- A write to a channel's shadows, or held behind its arm (R29, R30). -/
def Channel.write (w : Option CamDesc × Option CamBinding) (c : Channel) : Channel :=
  if c.armed then { c with writes := c.writes ++ [w] }
  else { c with shadow := w.1.getD c.shadow, shadowBind := if w.2.isSome then w.2 else c.shadowBind }

/-- Whether a binding names something withdrawn: one of its buffers or its record ring lies in a range. -/
def CamBinding.names (k : CtxKey) (rs : List RangeEntry) (b : CamBinding) : Bool :=
  decide (b.key = k) && rs.any fun e =>
    (b.bufs.take b.count).any (fun a => spansMeet a b.bytes e.start e.bytes) ||
      (decide (b.record ≠ 0) && spansMeet b.record 512 e.start e.bytes) ||
      (decide (b.fence ≠ 0) && spansMeet b.fence 16 e.start e.bytes)

/-- Whether the applied binding, or that of a frame that has not finished, is one of some. -/
def Channel.uses (c : Channel) (bound : CamBinding → Bool) : Bool :=
  (c.appliedBind.toList ++ (c.done ++ c.cur.toList).filterMap fun f => f.bind).any bound

/-- The withdrawn ranges go with the last frame that could use them. -/
def Channel.settle (c : Channel) : Channel := if c.removing ∨ !c.done.isEmpty then c else { c with gone := [] }

/-- A withdrawn binding (R225): a shadow one goes at once, an applied one at the channel's next frame start, or at once
if no frame is in progress. -/
def Channel.withdrawBinding (gone : CamBinding → Bool) (c : Channel) : Channel :=
  let hit := fun (b : Option CamBinding) => match b with
    | some b => gone b
    | none => false
  let c := { c with
    shadowBind := if hit c.shadowBind then none else c.shadowBind
    writes := c.writes.map fun w => if hit w.2 then (w.1, none) else w }
  if !hit c.appliedBind then c
  else if c.cur.isSome ∨ !c.done.isEmpty then { c with removing := true }
  else { c with appliedBind := none }

/-! ## Frames -/

/-- A frame of a channel with nothing in it, under the channel's applied descriptor; `b` is the binding that it is written
into. -/
def Channel.emptyFrame (stamp : BitVec 48) (b : Option CamBinding) (c : Channel) : Frame :=
  { buf := none, errHdr := false, errCrc := false, truncated := false, oversize := false, noBuffer := false, lines := 0,
    fsStamp := stamp, ended := false, bind := b, dropBad := c.applied.dropBad }

/-- The frame in progress ends, with TRUNCATED when its frame-end packet did not come (R227). -/
def Channel.endFrame (truncated : Bool) (c : Channel) : Channel :=
  match c.cur with
  | none => c
  | some f =>
    { c with cur := none, done := c.done ++ [{ f with truncated := f.truncated || truncated, ended := true }] }

/-- The commit of an armed channel at a frame start, the binding included (R31, R224); then the pending writes follow. -/
def Channel.commit (c : Channel) : Channel :=
  if !c.armed then c
  else
    runAll Channel.write c.writes
      { c with
        applied := c.shadow, appliedBind := c.shadowBind, armed := false, writes := [], waiters := []
        removing := false }

/-- The next buffer in ring order after the last one used, skipping held ones (R226). -/
def Channel.pickBuffer (c : Channel) (b : CamBinding) : Option Nat :=
  ((List.range b.count).map fun k => (c.nextBuf + k) % b.count).find? fun i => !(c.held.contains (b.key, b.bufs.getD i 0))

/-- The number of the frame that starts now (R228): the frame ends counted so far, and those still to come. -/
def Channel.nextFrame (c : Channel) : Nat := c.frameNo.toNat + c.done.length + 1

/-- A frame start on a channel (R224 to R227). `lost` says that the binding's context is LOST: no frame is written into
its buffers (R293). -/
def Channel.startFrame (stamp : BitVec 48) (lost : CtxKey → Bool) (c : Channel) : Channel :=
  let c := c.endFrame true
  let c := (if c.removing then { c with appliedBind := none, removing := false } else c).settle
  let c := c.commit
  if !c.applied.enable then c
  else
    match c.appliedBind with
    | none => { c with cur := some (c.emptyFrame stamp none) }
    | some b =>
      if lost b.key then { c with cur := some (c.emptyFrame stamp none) }
      else
        match c.pickBuffer b with
        | some i => { c with cur := some { c.emptyFrame stamp b with buf := some i }, nextBuf := (i + 1) % b.count }
        | none => { c with cur := some { c.emptyFrame stamp b with noBuffer := true } }

/-- FRAME_START: a frame-start packet on a virtual channel of a started receiver. -/
def execFrameStart (port vc : Nat) (s : State) : Res :=
  match s.camera.ports[port]?, s.chan? port vc with
  | some p, some c =>
    if !p.running ∨ !s.islandUp 0x70 then .next s
    else
      let lost := fun k => match s.ctx? k with
        | some x => decide (x.st = .lost)
        | none => true
      let c' := c.startFrame (s.count 0x70) lost
      let noBuf := match c'.cur with
        | some f => f.noBuffer
        | none => false
      let s := s.modChan port vc fun _ => c'
      let s := if noBuf then s.modPort port fun p => { p with noBuf := satInc p.noBuf } else s
      let n := (c.endFrame true).nextFrame
      .next (runAll (fun (o : Origin) s => s.replyBy o 0x70 stOk n) (if c.armed then c.waiters else []) s)
  | _, _ => .next s

/-- FRAME_END_PACKET (R227). -/
def execFrameEndPacket (port vc : Nat) (s : State) : Res :=
  match s.camera.ports[port]? with
  | some p =>
    if !p.running ∨ !s.islandUp 0x70 then .next s else .next (s.modChan port vc (Channel.endFrame false))
  | none => .next s

/-- The place of a position in the decimated output along one axis, when it is kept (R224): whole Bayer pairs, or pixel
pairs for YUV422 along x; along y YUV422 keeps single rows (log entry 17). -/
def decPlace (pairs : Bool) (factor i : Nat) : Option Nat :=
  if pairs then (if i / 2 % factor = 0 then some (i / 2 / factor * 2 + i % 2) else none)
  else if i % factor = 0 then some (i / factor) else none

/-- The bytes of one output pixel (R224). -/
def CamDesc.pixel (d : CamDesc) (v : Nat) : List Byte :=
  let bits := dtBits d.dt
  if d.out = 2 then toLE 2 (at' (v % 2 ^ bits) (16 - bits)) else toLE d.pixelBytes (v % 2 ^ bits)

/-- The output bytes of a received line: cropped, decimated and formatted (R224, R227). -/
def CamDesc.lineBytes (d : CamDesc) (pixels : List Nat) : List Byte :=
  ((enumFrom 0 ((pixels.drop d.cropX).take (d.cropW + 1))).filter fun x =>
      (decPlace true (decFactor d.decX) x.1).isSome).flatMap fun x => d.pixel x.2

/-- The output row that a received row becomes (R224, R227): none above or below the crop, or decimated away. -/
def CamDesc.outRow (d : CamDesc) (row : Nat) : Option Nat :=
  if row < d.cropY ∨ d.cropY + d.cropH < row then none
  else (decPlace (decide (d.dt ≠ 0x1E)) (decFactor d.decY) (row - d.cropY)).filter fun r => decide (r < d.outH)

/-- The frame in progress of a channel changed. -/
def State.modFrame (port vc : Nat) (f : Frame → Frame) (s : State) : State :=
  s.modChan port vc fun c => { c with cur := c.cur.map f }

/-- A fault of the camera front end, under the binding context (R225, SOURCE 5 of R289). -/
def State.camFault (_port _vc : Nat) (k : CtxKey) (kind : FaultKind) (va : Nat) (s : State) : State :=
  s.report { kind := kind, source := 5, write := true, atomic := false, island := 0x70, address := va, loc := 0, lanes := 0,
             job := none, origin := { src := .mailbox k.fn, seq := 0, opcode := 0, irq := false }, key := k,
             restart := false, stamp := s.count 0x70 }

/-- A write of the camera front end in the context of a frame's binding: a range that is being withdrawn still serves the frame
(R225, R312; log entry 147). -/
def State.camWrite (c : Channel) (k : CtxKey) (va : Nat) (bs : List Byte) (s : State) : Option (FaultKind × Nat) × State :=
  let held := fun (e : RangeCacheEntry) => c.gone.contains e
  let (f, s) := (s.setRangeCache .camera (c.gone ++ s.camera.cache)).putVa .camera k va bs
  (f, s.setRangeCache .camera (s.camera.cache.filter fun e => !held e))

/-- One line written into the frame's buffer (R225, R227). -/
def State.writeLine (port vc : Nat) (c : Channel) (line : CsiLine) (s : State) : State :=
  match c.cur, c.cur.bind fun f => f.bind with
  | some f, some b =>
    match f.buf, c.applied.outRow line.row with
    | some i, some r =>
      let bs := c.applied.lineBytes line.pixels
      let off := r * c.applied.stride
      if b.bytes < off + c.applied.rowBytes then s.modFrame port vc fun f => { f with oversize := true }
      else
        match s.camWrite c b.key (b.bufs.getD i 0 + off) bs with
        | (some (kind, va), s) => s.camFault port vc b.key kind va
        | (none, s) => s.modFrame port vc fun f => { f with lines := f.lines + 1 }
    | _, _ => s
  | _, _ => s

/-- CSI_PACKET: a long packet on a virtual channel (R222, R224). -/
def execCsiPacket (port vc : Nat) (line : CsiLine) (s : State) : Res :=
  match s.camera.ports[port]?, s.chan? port vc with
  | some p, some c =>
    if !p.running ∨ !s.islandUp 0x70 then .next s
    else if line.hdr = .uncorrectable then
      .next ((s.modPort port fun p => { p with hdrErr := satInc p.hdrErr }).modFrame port vc fun f => { f with errHdr := true })
    else if !dtOk line.dt.toNat ∨ line.dt.toNat ≠ c.applied.dt then
      .next (s.modPort port fun p => { p with badDt := satInc p.badDt })
    else
      let s := if line.crcBad then
          (s.modPort port fun p => { p with crcErr := satInc p.crcErr }).modFrame port vc fun f => { f with errCrc := true }
        else s
      .next (s.writeLine port vc c line)
  | _, _ => .next s

/-- The 32 bytes of a frame record (R228). -/
def frameRecord (n : Nat) (f : Frame) (discarded dropped : Bool) (buf stamp : Nat) : List Byte :=
  toLE 4 n ++
    toLE 4 (f.buf.getD 0 + at' (b2n f.errHdr) 3 + at' (b2n f.errCrc) 4 + at' (b2n f.truncated) 5 + at' (b2n f.oversize) 6 +
      at' (b2n f.noBuffer) 7 + at' (b2n discarded) 8 + at' (b2n dropped) 9 + at' (f.lines % 65536) 16) ++
    toLE 8 buf ++ toLE 8 f.fsStamp.toNat ++ toLE 8 stamp

/-- Whether a frame carries an error (R222, R227; log entry 18). -/
def Frame.bad (f : Frame) : Bool := f.errHdr || f.errCrc || f.truncated || f.oversize

/-- Whether the binding's fence already holds the frame's number or more, so that its signal will be dropped (R228). -/
def State.frameDropped (k : CtxKey) (fence n : Nat) (s : State) : Bool :=
  match (s.fenceAt k fence needWA).1 with
  | .ok (t, pa) => decide (n ≤ (s.fenceValue t pa).toNat)
  | .error _ => false

/-- The record, the fence and the event of a frame whose writes are accepted (R227, R228). -/
def State.finishFrame (port vc : Nat) (c : Channel) (f : Frame) (s : State) : State :=
  let n := c.frameNo.toNat + 1
  let s := s.modChan port vc fun c =>
    let c := { c with frameNo := BitVec.ofNat 32 n, done := c.done.drop 1 }
    (if c.removing ∧ c.cur.isNone ∧ c.done.isEmpty then { c with removing := false, appliedBind := none } else c).settle
  let discarded := f.bad && f.dropBad
  let s := match f.bind with
    | none => s
    | some b =>
      if f.buf.isNone ∧ !f.noBuffer then s
      else
        let used := (f.buf.map fun i => b.bufs.getD i 0).getD 0
        let lost := (s.ctx? b.key).elim true fun x => decide (x.st = CtxState.lost)
        let signals := decide (b.fence ≠ 0) && f.buf.isSome && !discarded && !lost
        let dropped := signals && s.frameDropped b.key b.fence n
        let s := if b.record = 0 then s
          else
            match s.camWrite c b.key (b.record + 32 * (n % 16))
                (frameRecord n f discarded dropped used (s.count 0x70).toNat) with
            | (some (kind, va), s) => s.camFault port vc b.key kind va
            | (none, s) => s
        if !signals then s
        else
          match s.signal b.key b.fence (BitVec.ofNat 64 n) with
          | (.failed kind, s) => s.camFault port vc b.key kind b.fence
          | (_, s) => s
  let s := s.raiseEvent (.frameEnd port vc)
  if discarded ∨ f.noBuffer then s
  else
    let buf := match f.buf, f.bind with
      | some i, some b => some (b.key, b.bufs.getD i 0)
      | _, _ => none
    s.fireRun port vc buf

/-- FRAME_END: every write of the oldest ended frame has been accepted (R227). -/
def execFrameEnd (port vc us : Nat) (s : State) : Res :=
  match s.chan? port vc with
  | none => .next s
  | some c =>
    match c.done with
    | [] => .next s
    | f :: _ => if !s.islandUp 0x70 then .next s else .next ((s.advance us).finishFrame port vc c f)

/-! ## Packets -/

/-- The CAM_CONFIG packet (R223, R224, R278). -/
def camConfigSpec : OpSpec :=
  { opcode := 0x52, assigned := true, may := fun p s => s.ownsChannel p.fn (p.f 0 2 0) (p.f 0 11 8), mailbox := false,
    job := false, lostOk := false, len := fun _ => 16,
    reserved := fun _ => [(0x00, 7, 3), (0x01, 23, 4), (0x04, 95, 0), (0x11, 23, 6), (0x20, 127, 0)] }

/-- CAM_CONFIG at its own checks: the shadows are written and the channel is armed (R224). -/
def camConfig (p : Pk) (s : State) : Verdict :=
  let port := p.f 0 2 0
  let vc := p.f 0 11 8
  let d := parseCam ((p.bytes.drop 0x10).take 32)
  match s.chan? port vc with
  | none => .reply stBadParam 0 s
  | some c =>
    match d.bad with
    | some o => .reply stBadParam (0x10 + o) s
    | none =>
      let small : Bool := match c.shadowBind with
        | some b => decide (b.bytes < d.outH * d.stride)
        | none => false
      if c.armed then .hold .commitArmed
      else if small then .reply stBadParam 0x1C s
      else .owed (s.modChan port vc fun c => { c.write (some d, none) with armed := true, waiters := [p.origin] })

def execCamConfig (src : Src) (p : Packet) (s : State) : Res := .next (s.takePacket camConfigSpec camConfig src p)

/-- A binding read from its 96 bytes (R225). -/
def parseBind (bs : List Byte) (k : CtxKey) : CamBinding :=
  let v := ofLE bs
  { key := k, count := fld v 3 0, bytes := fld v 63 32, record := fld v 111 64, fence := fld v 175 128,
    bufs := (List.range 8).map fun i => fld v (256 + 64 * i + 47) (256 + 64 * i) }

/-- Whether a span lies inside one range with the W right, of DRAM or RESERVOIR where that is asked (R225). -/
def State.bindSpan (k : CtxKey) (va n : Nat) (near : Bool) (s : State) : Bool × State :=
  match s.lookup .camera k va with
  | (.error _, s) => (false, s)
  | (.ok e, s) =>
    (e.w && decide (va + n ≤ e.start + e.bytes) && (!near || decide (e.tgt = .dram) || decide (e.tgt = .reservoir)), s)

/-- The first buffer of a binding that R225 refuses, by its offset. -/
def bindBuffers (b : CamBinding) : List (Nat × Nat) → State → Option Nat × State
  | [], s => (none, s)
  | (i, a) :: rest, s =>
    if a % 128 ≠ 0 then (some (0x20 + 8 * i), s)
    else
      match s.bindSpan b.key a b.bytes true with
      | (true, s) => bindBuffers b rest s
      | (false, s) => (some (0x20 + 8 * i), s)

/-- The CAM_BIND packet (R225, R278). -/
def camBindSpec : OpSpec :=
  { opcode := 0x53, assigned := true, may := fun p s => s.ownsChannel p.fn (p.f 0 2 0) (p.f 0 11 8), mailbox := false,
    job := false, lostOk := false, len := fun _ => 32,
    reserved := fun _ =>
      [(0x00, 7, 3), (0x01, 23, 4), (0x04, 95, 0), (0x10, 31, 4), (0x1E, 15, 0), (0x26, 15, 0), (0x28, 63, 0)] ++
        (List.range 8).map fun i => (0x36 + 8 * i, 15, 0) }

/-- CAM_BIND at its own checks: the binding shadow is written, without arming (R224, R225). -/
def camBind (p : Pk) (s : State) : Verdict :=
  let port := p.f 0 2 0
  let vc := p.f 0 11 8
  match p.key, s.chan? port vc with
  | some k, some _ =>
    let b := parseBind ((p.bytes.drop 0x10).take 96) k
    if b.count = 0 ∨ 8 < b.count then .reply stBadParam 0x10 s
    else if b.bytes % 128 ≠ 0 ∨ b.bytes < 128 then .reply stBadParam 0x14 s
    else if b.record % 512 ≠ 0 then .reply stBadParam 0x18 s
    else
      let (ok, s) := if b.record = 0 then (true, s) else s.bindSpan k b.record 512 false
      if !ok then .reply stBadParam 0x18 s
      else if b.fence % 16 ≠ 0 then .reply stBadParam 0x20 s
      else
        match bindBuffers b (enumFrom 0 (b.bufs.take b.count)) s with
        | (some o, s) => .reply stBadParam (0x10 + o) s
        | (none, s) => .reply stOk 0 (s.modChan port vc (Channel.write (none, some b)))
  | _, _ => .reply stBadParam 0 s

def execCamBind (src : Src) (p : Packet) (s : State) : Res := .next (s.takePacket camBindSpec camBind src p)

/-! ## Registers (R230) -/

/-- A receiver started with its CAM_PORT_CFG, or stopped: a frame in progress then ends TRUNCATED (R230). -/
def Port.start (p : Port) : Port := { p with running := true }
def Port.stop (p : Port) : Port :=
  if p.running then { p with running := false, chans := p.chans.map (Channel.endFrame true) } else p

/-- A register operation of the camera block while its island runs. -/
def State.onPort (port : Nat) (f : Port → Port) (s : State) : State := if s.islandUp 0x70 then s.modPort port f else s

/-- DESKEW_BURST (R221, R402): the sensor's deskew burst has run; the receiver keeps its result. -/
def execDeskewBurst (port : Nat) (result : Word) (s : State) : Res :=
  .next (s.onPort port fun p => if p.running then { p with deskew := result } else p)

/-- CAM_STATUS (R230). -/
def Camera.statusReg (c : Camera) : Nat :=
  at' (b2n c.liveWrite) 31 + at' (b2n (c.ports.any fun p => p.chans.any fun x => x.armed)) 30 +
    at' (b2n (c.ports.any fun p => p.chans.any fun x => !x.writes.isEmpty)) 29 +
    sumN ((enumFrom 0 c.ports).map fun x => at' (b2n x.2.running) x.1)

/-- A read of a CAM_ register (R230). -/
def Camera.readReg (c : Camera) (off : Nat) : Nat :=
  if off = 0x400 then c.statusReg
  else
    match c.ports[off / 0x40]? with
    | none => 0
    | some p =>
      let o := off % 0x40
      if o = 0x04 then p.cfg.toNat
      else if o = 0x08 then p.owner.toNat
      else if o = 0x0C then
        at' p.hdrErr.toNat 24 + at' p.crcErr.toNat 16 + at' p.badDt.toNat 8 + p.noBuf.toNat
      else 0

/-- A write of a CAM_ register (R32, R230). START and STOP in one write: the receiver stops. -/
def State.writeCam (off : Nat) (v : Word) (s : State) : State :=
  if off = 0x400 then
    { s with camera := { s.camera with liveWrite := s.camera.liveWrite && !(bitOf v.toNat 31) } }
  else
    let i := off / 0x40
    match s.camera.ports[i]? with
    | none => s
    | some p =>
      let o := off % 0x40
      if o = 0x00 then
        let s := if bitOf v.toNat 0 then s.modPort i Port.start else s
        if bitOf v.toNat 1 then s.modPort i Port.stop else s
      else if o = 0x04 ∨ o = 0x08 then
        if p.running then { s with camera := { s.camera with liveWrite := true } }
        else s.modPort i fun p => if o = 0x04 then { p with cfg := v &&& 0x0001FFFF } else { p with owner := v }
      else s

end Sys2Proof.Machine
end

