-- ==== Sys2Proof/Machine/Ranges.lean ====
section
/-! DEFINITION. The range table of a context and its device copy (chapter 11): RANGE_MAP, RANGE_UNMAP, RANGE_CHECK and the
walk; and the flush reads of R302 and R312. -/

namespace Sys2Proof.Machine

/-! ## The context that a packet names (R274, R288) -/

/-- The context that a packet's CTX_ID parameter names, or the refusal. -/
def State.named (s : State) (p : Pk) (id off : Nat) (lostOk : Bool) : Except (Nat × Nat) Ctx :=
  match s.ctx? { fn := p.fn, id := id } with
  | none => .error (stBadParam, off)
  | some c =>
    if c.st = .destroying then .error (stNotPermitted, 0)
    else if c.st = .lost ∧ !lostOk then .error (stContextLost, id)
    else .ok c

/-! ## The device copy -/

/-- Bytes written into the range table area of a context, in halves of 64 KiB, each of which lies in one window (R279,
R307). -/
def State.wrRt (k : CtxKey) (rt : BitVec 64) (o : Nat) (bs : List Byte) (s : State) : State :=
  let n := 65536 - min o 65536
  let s := if o < 65536 then s.wrFn k.fn rt o (bs.take n) else s
  if 65536 < o + bs.length then s.wrFn k.fn rt (max o 65536) (bs.drop (min n bs.length)) else s

/-- The whole device copy (R314). -/
def State.rdRt (s : State) (c : Ctx) : List Byte := s.rdFn c.key.fn c.rt 0 65536 ++ s.rdFn c.key.fn c.rt 65536 65536

/-- The first slot in which two tables differ. -/
def firstDiff : List RangeEntry → List RangeEntry → Nat
  | a :: as, b :: bs => if a = b then 1 + firstDiff as bs else 0
  | _, _ => 0

/-- A context's ranges replaced, and the slots that change rewritten (R307, R310, R312 step 2). -/
def State.setRanges (c : Ctx) (rs : List RangeEntry) (s : State) : State :=
  let k := firstDiff c.ranges rs
  let m := max c.ranges.length rs.length
  (s.wrRt c.key c.rt (32 * k) (slotBytes rs k m)).modCtx c.key fun c => { c with ranges := rs }

/-- The two halves of a context's range table area, where they lie (R307, R308). -/
def State.rtPieces (s : State) (fn : Nat) (rt : BitVec 64) : List (Target × Nat) :=
  [s.fnAddr fn rt 0, s.fnAddr fn rt 65536].filterMap id

/-- Whether a physical span touches a range table area of a function (R308). -/
def State.touchesRt (s : State) (fn : Nat) (t : Target) (a n : Nat) : Bool :=
  s.ctxs.any fun c => c.key.fn == fn && (s.rtPieces fn c.rt).any fun p => decide (p.1 = t) && spansMeet a n p.2 65536

/-! ## RANGE_MAP (R309, R310) -/

/-- The range entries of a RANGE_MAP. -/
def mapEntries (p : Pk) : List RangeEntry :=
  (List.range (p.f 0 22 16)).map fun i => parseEntry ((p.bytes.drop (0x10 + 32 * i)).take 32)

/-- The byte offset in the parameters of the first bad field of entry i (R305, R309). -/
def badEntry (p : Pk) (i : Nat) : Option Nat :=
  let b := 0x10 + 32 * i
  let e := parseEntry ((p.bytes.drop b).take 32)
  if e.start % 65536 ≠ 0 then some b
  else if p.f (b + 6) 15 0 ≠ 0 then some (b + 6)
  else if 2 ^ 48 < e.start + e.bytes then some (b + 8)
  else if e.cacheable ∧ e.tgt = .peer then some (b + 12)
  else if p.f (b + 8) 63 39 ≠ 0 then some (b + 12)
  else if e.base % 65536 ≠ 0 ∨ 2 ^ 64 < e.base + e.bytes then some (b + 16)
  else if p.f (b + 28) 31 0 ≠ 0 then some (b + 28)
  else none

/-- Whether two ranges overlap. -/
def RangeEntry.meets (a b : RangeEntry) : Bool := spansMeet a.start a.bytes b.start b.bytes

/-- The index of the first entry that overlaps an earlier one of the packet or a range of the context. -/
def firstOverlap : Nat → List RangeEntry → List RangeEntry → Option Nat
  | _, _, [] => none
  | i, seen, e :: es => if seen.any e.meets then some i else firstOverlap (i + 1) (e :: seen) es

/-- Whether an entry respects the tenant's windows, the protected region and the range table areas (R250, R251, R308,
R309). -/
def State.entryInLevee (s : State) (c : Ctx) (e : RangeEntry) : Bool :=
  let fn := c.key.fn
  match e.tgt with
  | .dram => s.ownsDram fn e.base e.bytes && (!(e.w || e.a) || !(s.touchesRt fn .dram e.base e.bytes))
  | .reservoir =>
    s.ownsRsv fn e.base e.bytes && (!(e.w || e.a) || !(s.touchesRt fn .reservoir e.base e.bytes)) &&
      (!(s.touchesProtected e.base e.bytes) || (fn == 0 && (!(e.w || e.a) || c.prot)))
  | _ => true

/-- Ranges inserted in ascending START. -/
def insertRanges (es rs : List RangeEntry) : List RangeEntry := es.foldl (fun acc e => insertBy (fun x => x.start) e acc) rs

/-- The RANGE_MAP packet (R278, R282, R309). -/
def rangeMapSpec : OpSpec :=
  { opcode := 0x20, assigned := true, may := mayAny, mailbox := true, job := false, lostOk := false,
    len := fun p => 8 + 8 * p.f 0 22 16, reserved := fun _ => [(0x00, 15, 10), (0x00, 31, 23), (0x04, 95, 0)] }

/-- RANGE_MAP at its own checks. COUNT is 1 to 127 (R282). -/
def rangeMap (p : Pk) (s : State) : Verdict :=
  match s.named p (p.f 0 9 0) 0x00 false with
  | .error (st, d) => .reply st d s
  | .ok c =>
    let es := mapEntries p
    if es.isEmpty then .reply stBadParam 2 s
    else
      match (List.range es.length).findSome? (badEntry p) with
      | some o => .reply stBadParam o s
      | none =>
        match firstOverlap 0 c.ranges es with
        | some i => .reply stBadParam (0x10 + 32 * i) s
        | none =>
          if c.unmaps.any fun u => u.ranges.any fun r => es.any r.meets then .hold .other
          else
            match (enumFrom 0 es).find? fun x => !(s.entryInLevee c x.2) with
            | some x => .reply stOutsideLevee x.1 s
            | none =>
              if 4096 < c.ranges.length + es.length then .reply stNoResource 4 s
              else .reply stOk 0 (s.setRanges c (insertRanges es c.ranges))

def execRangeMap (src : Src) (p : Packet) (s : State) : Res := .next (s.takePacket rangeMapSpec rangeMap src p)

/-! ## Epochs and withdrawal (R311 to R313) -/

/-- Whether an engine's four epoch counts are in use, so that its epoch may not advance before the oldest has drained (R311,
R312 step 3). -/
def State.epochFull (s : State) (w : Requester) : Bool :=
  s.flight.any fun a => decide (a.who = w) && decide (3 ≤ (s.epochOf w - a.epoch).toNat)

/-- Engines drop the entries of a context that meet the withdrawn ranges, advance their epochs and report the old values (R312
step 3). -/
def State.dropRanges (k : CtxKey) (rs : List RangeEntry) (who : List Requester) (s : State) : List (Requester × BitVec 8) × State :=
  let old := who.map fun w => (w, s.epochOf w)
  (old, runAll (fun w (s : State) =>
    (s.setRangeCache w ((s.rangeCache w).filter fun e => !(decide (e.key = k) && rs.any e.entry.meets))).bumpEpoch w) who s)

/-- Step 3 of R312 on the engines that a withdrawal still waits for, as far as their epochs may advance. -/
def State.unmapStep (k : CtxKey) (u : Unmap) (s : State) : Unmap × State :=
  let (old, s') := s.dropRanges k u.ranges (u.waiting.filter fun w => !(s.epochFull w))
  ({ u with waiting := u.waiting.filter s.epochFull, epochs := u.epochs ++ old }, s')

/-- Whether no access remains in flight under an epoch at or below the value that its engine reported (R312 step 4). -/
def State.drained (s : State) (old : List (Requester × BitVec 8)) : Bool :=
  s.flight.all fun a => old.all fun o => decide (o.1 ≠ a.who) || decide (128 ≤ (o.2 - a.epoch).toNat)

/-- How many requests of a function are outstanding on the link. -/
def State.issuedBy (s : State) (fn : Nat) : Nat := countIf (fun (r : NpReq) => r.issued && r.fn == fn) s.pcie.reqs

/-- A request of a function goes out while fewer of its requests are outstanding than may be (R231), with the function's requester
ID (R232). -/
def State.sendRead (r : NpReq) (s : State) : State :=
  if r.issued ∨ (s.funs[r.fn]?).elim 0 Fun.tagLimit ≤ s.issuedBy r.fn then s
  else
    (s.modPcie fun p => { p with reqs := p.reqs.map fun x => if x.tag = r.tag then { x with issued := true } else x }).say
      (if r.len = 0 then .flushRead r.fn r.tag else .read r.fn r.tag (r.addr % 2 ^ 64) r.len)

/-- Requests leave the list, and those that wait go out in their order. -/
def State.dropReqs (p : NpReq → Bool) (s : State) : State :=
  let s := s.modPcie fun u => { u with reqs := u.reqs.filter fun r => !(p r) }
  runAll State.sendRead s.pcie.reqs s

/-- A read of the device: of data, or of no bytes to order posted writes (R302 step 6, R312 step 5, R413). Answers its tag. -/
def State.issueRead (fn : Nat) (owner : ReqOwner) (addr len : Nat) (s : State) : Nat × State :=
  let tag := s.pcie.nextTag
  let r : NpReq := { tag := tag, fn := fn, owner := owner, addr := addr, len := len, issued := false, orphan := none }
  let s := s.modPcie fun p => { p with reqs := p.reqs ++ [r], nextTag := tag + 1 }
  (tag, s.sendRead r)

/-- Whether a display layer or a camera binding still names a context's ranges (R209, R225). -/
def State.stillShown (s : State) (gone : Layer → Bool) (bound : CamBinding → Bool) : Bool :=
  s.pipes.any (fun u => u.applied.layers.any fun l => l.enable && gone l) ||
    s.camera.ports.any fun p => p.chans.any fun c => c.uses bound

/-- Withdrawn ranges stay with the pipes and channels whose applied layers and frames name them, until those are gone (R209,
R225, R312 step 3; log entry 147). -/
def State.holdRanges (k : CtxKey) (rs : List RangeEntry) (s : State) : State :=
  let es := rs.map fun e => ({ key := k, entry := e } : RangeCacheEntry)
  let pipe := fun (u : Pipe) =>
    if u.applied.layers.any fun l => l.enable && l.names k rs then { u with gone := es ++ u.gone } else u
  let chan := fun (c : Channel) => if c.uses (CamBinding.names k rs) then { c with gone := es ++ c.gone } else c
  { s with
    pipes := s.pipes.map pipe
    camera := { s.camera with ports := s.camera.ports.map fun p => { p with chans := p.chans.map chan } } }

/-- Layers and bindings are withdrawn from every pipe and channel (R209, R225). -/
def State.withdrawAll (gone : Layer → Bool) (bound : CamBinding → Bool) (s : State) : State :=
  { s with
    pipes := s.pipes.map (Pipe.withdrawLayers gone)
    camera := { s.camera with
      ports := s.camera.ports.map fun p => { p with chans := p.chans.map fun c => (c.withdrawBinding bound).settle } } }

/-! ## RANGE_UNMAP -/

/-- The index of the first START that names no range, or stands twice in the packet (R311). -/
def firstBadStart (rs : List RangeEntry) : Nat → List Nat → List Nat → Option Nat
  | _, _, [] => none
  | i, seen, a :: as =>
    if seen.contains a ∨ !(rs.any fun e => e.start == a) then some i else firstBadStart rs (i + 1) (a :: seen) as

/-- The RANGE_UNMAP packet (R278, R282, R311): its block is padded with zeros. -/
def rangeUnmapSpec : OpSpec :=
  { opcode := 0x21, assigned := true, may := mayAny, mailbox := false, job := false, lostOk := true,
    len := fun p => 8 + 4 * ceilDiv (p.f 0 24 16) 2,
    reserved := fun p =>
      let n := p.f 0 24 16
      [(0x00, 15, 10), (0x00, 31, 25), (0x04, 95, 0)] ++ (List.range n).map (fun i => (0x16 + 8 * i, 15, 0)) ++
        (if n % 2 = 1 then [(0x10 + 8 * n, 63, 0)] else []) }

/-- RANGE_UNMAP at its own checks: steps 1 to 3 of R312. COUNT is 1 to 510 (R282). -/
def rangeUnmap (p : Pk) (s : State) : Verdict :=
  match s.named p (p.f 0 9 0) 0x00 true with
  | .error (st, d) => .reply st d s
  | .ok c =>
    let n := p.f 0 24 16
    let starts := (List.range n).map fun i => p.f (0x10 + 8 * i) 47 0
    if n = 0 ∨ 510 < n then .reply stBadParam 2 s
    else
      match firstBadStart c.ranges 0 [] starts with
      | some i => .reply stBadParam (0x10 + 8 * i) s
      | none =>
        let out := c.ranges.filter fun e => starts.contains e.start
        let s := s.setRanges c (c.ranges.filter fun e => !(starts.contains e.start))
        let u : Unmap :=
          { origin := p.origin, ranges := out, waiting := s.walkers, epochs := [],
            needsFlush := out.any fun e => decide (e.tgt = .host) || decide (e.tgt = .peer),
            drained := false, flushTag := none }
        let (u, s) := (s.holdRanges c.key out).unmapStep c.key u
        let s := s.withdrawAll (Layer.names c.key out) (CamBinding.names c.key out)
        .owed (s.modCtx c.key fun c => { c with unmaps := c.unmaps ++ [u] })

def execRangeUnmap (src : Src) (p : Packet) (s : State) : Res := .next (s.takePacket rangeUnmapSpec rangeUnmap src p)

/-- A RANGE_UNMAP replies and is gone (R312 step 6). -/
def State.finishUnmap (k : CtxKey) (u : Unmap) (s : State) : State :=
  (s.modCtx k fun c => { c with unmaps := dropFirst (fun x => decide (x = u)) c.unmaps }).replyHg u.origin stOk 0

/-- UNMAP_DRAINED: for the oldest RANGE_UNMAP of the context that has not drained, step 3 of R312 goes on where an engine's
epochs were all in use; and with step 4 over, step 5 follows where a withdrawn range had target HOST or PEER. -/
def execUnmapDrained (fn ctx : Nat) (s : State) : Res :=
  let k : CtxKey := { fn := fn, id := ctx }
  match s.ctx? k with
  | none => .next s
  | some c =>
    match c.unmaps.find? fun u => !u.drained with
    | none => .next s
    | some old =>
      let (u, s) := s.unmapStep k old
      let s := s.modCtx k fun c => { c with unmaps := modFirst (fun x => decide (x = old)) (fun _ => u) c.unmaps }
      if !u.waiting.isEmpty ∨ !s.drained u.epochs ∨ s.stillShown (Layer.names k u.ranges) (CamBinding.names k u.ranges) ∨ !s.procUp 0 then .next s
      else if u.needsFlush ∧ s.pcie.linkUp then
        let (tag, s) := s.issueRead fn (.unmap k) 0 0
        .next (s.modCtx k fun c =>
          { c with unmaps := modFirst (fun x => decide (x = u)) (fun x => { x with drained := true, flushTag := some tag }) c.unmaps })
      else .next (s.finishUnmap k u)

/-! ## RANGE_CHECK (R314) -/

/-- The RANGE_CHECK packet. -/
def rangeCheckSpec : OpSpec :=
  { opcode := 0x22, assigned := true, may := mayAny, mailbox := false, job := false, lostOk := true, len := fun _ => 8,
    reserved := fun _ => [(0x00, 31, 10), (0x04, 31, 0), (0x0E, 15, 0)] }

/-- The offset within the device copy of its first 64-bit word with an uncorrectable error, counted when it is read. -/
def State.rtUe (c : Ctx) (s : State) : Option Nat × State :=
  match s.fnUe c.key.fn c.rt 0 65536 with
  | some (t, w) => (some (w - (match s.fnAddr c.key.fn c.rt 0 with
      | some (_, a) => a
      | none => 0)), s.ueFound t w)
  | none =>
    match s.fnUe c.key.fn c.rt 65536 65536 with
    | some (t, w) => (some (65536 + (w - (match s.fnAddr c.key.fn c.rt 65536 with
        | some (_, a) => a
        | none => 0))), s.ueFound t w)
    | none => (none, s)

/-- RANGE_CHECK at its own checks. -/
def rangeCheck (p : Pk) (s : State) : Verdict :=
  match s.named p (p.f 0 9 0) 0x00 true, p.key with
  | .error (st, d), _ => .reply st d s
  | .ok _, none => .reply stNotPermitted 0 s
  | .ok c, some k =>
    match s.translate .headgate k (p.f 8 47 0) 32 needW with
    | (.error _, s) => .reply stBadParam 0x08 s
    | (.ok ps, s) =>
      match s.rtUe c with
      | (some o, s) => .reply stVerifyFail o s
      | (none, s) =>
        let d := sha256 (s.rdRt c)
        .reply stOk (ofLE (d.take 4)) (putPieces k.fn ps d s).2

def execRangeCheck (src : Src) (p : Packet) (s : State) : Res := .next (s.takePacket rangeCheckSpec rangeCheck src p)

/-! ## The walk as a command (R315, R316) -/

/-- RANGE_WALK: a requester looks an address up; what it finds enters its range cache. -/
def execRangeWalk (who : Requester) (fn ctx : Nat) (va : BitVec 64) (s : State) : Res :=
  .next (s.lookup who { fn := fn, id := ctx } va.toNat).2

end Sys2Proof.Machine
end

