-- ==== Sys2Proof/Machine/L1.lean ====
section
/-! DEFINITION. The L1 of a cluster: lines with a dirty mask per byte, filled and written back (Memory model of chapter 03,
R85, R89). -/

namespace Sys2Proof.Machine

/-! ## Write-back -/

/-- One 64-bit word of a line written back: whole when every byte is dirty, else its dirty bytes. Answers the word's
address when the Reservoir refuses it (R44). -/
def wbWord (t : Target) (a : Nat) (bs : List (Byte × Bool)) (s : State) : Option Nat × State :=
  if bs.all fun x => x.2 then s.wr t a (bs.map fun x => x.1)
  else if t = .reservoir ∧ s.mem.rsvUe.contains a then (some a, s.rsvError a true false)
  else (none, runAll (fun (x : Nat × Byte × Bool) (s : State) => if x.2.2 then s.wr' t (a + x.1) [x.2.1] else s) (enumFrom 0 bs) s)

/-- The dirty bytes of a line written back; the virtual address of the first word refused. -/
def L1Line.writeBack (l : L1Line) (s : State) : Option Nat × State :=
  let r := (List.range 16).foldl (fun acc i =>
    let bs := (List.zip l.data l.dirty).drop (8 * i) |>.take 8
    if bs.any fun x => x.2 then
      match wbWord l.tgt (128 * l.line + 8 * i) bs acc.2 with
      | (some w, s) => (some (acc.1.getD (l.va + (w - 128 * l.line))), s)
      | (none, s) => (acc.1, s)
    else acc) ((none : Option Nat), s)
  (r.1, if l.dirty.any id then r.2.spanWritten l.tgt (128 * l.line) 128 else r.2)

/-- A line with nothing dirty. -/
def L1Line.clean (l : L1Line) : L1Line := { l with dirty := List.replicate 128 false }

/-- A write-back that the Reservoir refused is a fault of the job that the cluster runs (R44): no group is at fault. -/
def State.writeBackFault (c : Nat) (va : Nat) (s : State) : State :=
  match s.clusters[c]? with
  | none => s
  | some cl =>
    match cl.run.bind fun r => s.job? r.work.job with
    | none => s
    | some j =>
      s.report
        { kind := .poison, source := 0, write := true, atomic := false, island := engineIsland (.cluster c), address := va,
          loc := 0, lanes := 0, job := some j.id, origin := j.origin, key := j.key, restart := false,
          stamp := s.count (engineIsland (.cluster c)) }

/-- Some lines written back in turn, faults reported. -/
def State.writeBackLines (c : Nat) (ls : List L1Line) (s : State) : State :=
  runAll (fun (l : L1Line) (s : State) => match l.writeBack s with
    | (some va, s) => s.writeBackFault c va
    | (none, s) => s) ls s

/-- Every dirty byte of a cluster written back; the lines stay, clean (R89). -/
def State.flushL1 (c : Nat) (s : State) : State :=
  match s.clusters[c]? with
  | none => s
  | some cl => (s.writeBackLines c cl.l1).modCluster c fun cl => { cl with l1 := cl.l1.map L1Line.clean }

/-- The whole L1 written back and invalidated (R91). -/
def State.emptyL1 (c : Nat) (s : State) : State := (s.flushL1 c).modCluster c fun cl => { cl with l1 := [] }

/-! ## Lines -/

/-- Whether a line holds the line of an address. -/
def L1Line.holds (t : Target) (pa : Nat) (l : L1Line) : Bool := decide (l.tgt = t) && decide (l.line = pa / 128)

/-- The line that holds an address. -/
def Cluster.line? (cl : Cluster) (t : Target) (pa : Nat) : Option L1Line := cl.l1.find? (L1Line.holds t pa)

/-- The line of a cluster that holds an address. -/
def State.line? (s : State) (c : Nat) (t : Target) (pa : Nat) : Option L1Line := s.clusters[c]?.bind fun cl => cl.line? t pa

/-- Room for one more line: a full L1 of 512 lines gives one up, written back; which one is free (log entry 23). -/
def State.l1Room (c : Nat) (s : State) : State :=
  match s.clusters[c]? with
  | none => s
  | some cl =>
    if cl.l1.length < 512 then s
    else
      let (v, s) := s.fresh
      let i := Config.l1Victim v % cl.l1.length
      (s.writeBackLines c (cl.l1.drop i |>.take 1)).modCluster c fun cl => { cl with l1 := cl.l1.eraseIdx i }

/-- A line read whole from memory: its clean bytes take memory's; a line that holds an uncorrectable error is not kept
(log entry 28). -/
def State.fillLine (c : Nat) (t : Target) (pa va : Nat) (s : State) : State :=
  let a := pa / 128 * 128
  if s.poisoned t a 128 then s
  else
    let bs := s.rd t a 128
    match s.line? c t pa with
    | some l =>
      let merged := (List.zip bs (List.zip l.data l.dirty)).map fun x => if x.2.2 then x.2.1 else x.1
      s.modCluster c fun cl => { cl with l1 := modFirst (L1Line.holds t pa) (fun l => { l with data := merged, full := true }) cl.l1 }
    | none =>
      let l : L1Line := { tgt := t, line := pa / 128, va := va - pa % 128, data := bs, dirty := List.replicate 128 false, full := true }
      (s.l1Room c).modCluster c fun cl => { cl with l1 := l :: cl.l1 }

/-- A part of a list replaced from a place on. -/
def putAt {α : Type} (o : Nat) (xs old : List α) : List α := old.take o ++ xs ++ old.drop (o + xs.length)

/-- Bytes stored into the L1: the line is allocated without a read, and the bytes are dirty (R89). -/
def State.storeLine (c : Nat) (t : Target) (pa va : Nat) (bs : List Byte) (s : State) : State :=
  let o := pa % 128
  let put := fun (l : L1Line) =>
    { l with data := putAt o bs l.data, dirty := putAt o (List.replicate bs.length true) l.dirty }
  match s.line? c t pa with
  | some _ => s.modCluster c fun cl => { cl with l1 := modFirst (L1Line.holds t pa) put cl.l1 }
  | none =>
    let l : L1Line :=
      { tgt := t, line := pa / 128, va := va - pa % 128, data := List.replicate 128 0, dirty := List.replicate 128 false, full := false }
    (s.l1Room c).modCluster c fun cl => { cl with l1 := put l :: cl.l1 }

/-- A copy that the L1 holds takes the bytes of a store that went past it, and they are clean (log entry 29). -/
def State.patchLine (c : Nat) (t : Target) (pa : Nat) (bs : List Byte) (s : State) : State :=
  let o := pa % 128
  s.modCluster c fun cl => { cl with l1 := modFirst (L1Line.holds t pa) (fun l =>
    { l with data := putAt o bs l.data, dirty := putAt o (List.replicate bs.length false) l.dirty }) cl.l1 }

/-- The line of an address written back and invalidated (R85). -/
def State.dropLine (c : Nat) (t : Target) (pa : Nat) (s : State) : State :=
  match s.line? c t pa with
  | none => s
  | some l => (s.writeBackLines c [l]).modCluster c fun cl => { cl with l1 := dropFirst (L1Line.holds t pa) cl.l1 }

/-- Whether the L1 gives every byte of an access: its line is full and is looked up, or the bytes are dirty. -/
def lineCovers (l : L1Line) (lookup : Bool) (pa n : Nat) : Bool :=
  (lookup && l.full) || (l.dirty.drop (pa % 128) |>.take n).all id

/-- The bytes of an access: the L1's where they are dirty or looked up in a full line, else memory's (R92). -/
def State.l1Bytes (s : State) (c : Nat) (lookup cached : Bool) (t : Target) (pa n : Nat) : List Byte :=
  let bs := s.rd t pa n
  match (if cached then s.line? c t pa else none) with
  | none => bs
  | some l =>
    let o := pa % 128
    (List.zip bs (List.zip (l.data.drop o |>.take n) (l.dirty.drop o |>.take n))).map fun x =>
      if x.2.2 ∨ (lookup ∧ l.full) then x.2.1 else x.1

end Sys2Proof.Machine
end

