-- ==== Sys2Proof/Machine/Sluice.lean ====
section
/-! DEFINITION. Sluice (chapter 06): the table, rounds and slots; the choice of a unit's holder and switches; residency;
waits on remote fences. -/

namespace Sys2Proof.Machine

/-! ## Units and claims -/

/-- The kinds of engine that Sluice schedules (R172). -/
inductive UnitKind where
  | cluster | array | copy | front
deriving DecidableEq, Repr

/-- The kind of an engine. -/
def unitKind : Engine → UnitKind
  | .cluster _ => .cluster
  | .array _ => .array
  | .copy _ => .copy
  | .front _ => .front

/-- The kind of engine that runs a work (R173). -/
def WorkKind.unit : WorkKind → UnitKind
  | .kernel => .cluster
  | .geomBatch _ _ _ _ _ => .cluster
  | .tileBatch _ => .cluster
  | .pixelBatch _ => .cluster
  | .kernelLayer _ => .cluster
  | .layer _ => .array
  | .tileNet _ => .array
  | .copyJob => .copy
  | .pass => .front

/-- Whether a slot names a unit (R176): no slot names a front end. -/
def Slot.names (t : Slot) : Engine → Bool
  | .cluster i => t.clMask.toNat.testBit i
  | .array i => t.nsMask.toNat.testBit i
  | .copy i => t.ceMask.toNat.testBit i
  | .front _ => false

/-- Whether a context is an owner of a slot (R176). -/
def Slot.owns (t : Slot) (k : CtxKey) : Bool := t.tenant == k.fn && (t.ctx == 0xFFFF || t.ctx == k.id)

/-- The open slots with their indices, in table order, with whether they still have an owner (R185). -/
def Sluice.openSlots (l : Sluice) : List (Nat × Slot × Bool) :=
  (enumFrom 0 (List.zip l.active.slots l.runs)).filterMap fun x =>
    if x.2.2.isOpen then some (x.1, x.2.1, x.2.2.owned) else none

/-- The context that a job works for. -/
def State.jobKey (s : State) (id : Nat) : Option CtxKey := (s.job? id).map (·.key)

/-- Whether some unit runs a job, or has begun it (R95 step 4). -/
def State.begun (s : State) (j : Job) : Bool :=
  (s.clusters.any fun c => match c.run with
    | some r => r.work.job == j.id
    | none => false) || s.fronts.any (fun f => decide (f.job = some j.id)) || s.copies.any (fun c => decide (c.job = some j.id)) ||
  match j.kind with
  | .copy _ next _ => decide (0 < next)
  | .pass _ r => r.isSome
  | _ => false

/-- Whether a job of a context runs: its context is ACTIVE, or it is FAULTED by another job and this one had begun (R95
step 4; log entry 78). -/
def State.jobRuns (s : State) (k : CtxKey) (id : Nat) : Bool :=
  match s.ctx? k, s.job? id with
  | some c, some j => decide (c.st = .active) || (decide (c.st = .faulted) && !j.hasFault && s.begun j)
  | _, _ => false

/-- Whether a work of a context may run. No further layer of a network goes out while its context is FAULTED; one that a
unit runs goes on to its end (R95 step 4; log entry 78). -/
def State.mayRun (s : State) (k : CtxKey) (w : Work) : Bool :=
  let on : Bool := match s.ctx? k, w.kind with
    | some c, .layer _ => decide (c.st = .active) || s.arrays.any fun a => decide (a.layer = some w)
    | some c, .kernelLayer _ => decide (c.st = .active) || s.clusters.any fun x => decide (x.run.map (·.work) = some w)
    | _, _ => true
  match s.ctx? k, s.job? w.job with
  | some c, some j =>
    decide (c.st = .active) ||
      (decide (c.st = .faulted) && !j.hasFault && on && (match w.kind with
        | .layer _ => true
        | .kernelLayer _ => true
        | _ => s.begun j))
  | _, _ => false

/-- Whether a work may go to an engine: a tile network only to the array that holds its tile's grant, when one holds it
(R23, R24). -/
def State.tileFree (s : State) (e : Engine) (w : Work) : Bool :=
  match w.kind with
  | .tileNet t => s.clusters.all fun c => c.tiles.all fun x =>
      x.tile != t || x.job != w.job || (match x.grant with
        | some a => decide (e = .array a)
        | none => true)
  | _ => true

/-- The works of a context that are ready for a kind of unit and may run, in order. -/
def State.readyFor (s : State) (k : CtxKey) (u : UnitKind) : List Work :=
  s.sluice.ready.filter fun w => decide (w.kind.unit = u) && decide (s.jobKey w.job = some k) && s.mayRun k w

/-- The works of a context that are ready for an engine, in order. -/
def State.readyOn (s : State) (k : CtxKey) (e : Engine) : List Work := (s.readyFor k (unitKind e)).filter (s.tileFree e)

/-- Whether an engine's ring holds the WAIT entry of a queue. -/
def EngineCore.holdsWait (c : EngineCore) (fn q : Nat) : Bool := c.ring.any (RingEntry.waitOf fn q)

/-- Whether a remote wait stands in some ring (R196). -/
def State.placed (s : State) (u : Queue) : Bool :=
  s.engines.any fun e => match s.engine? e with
    | some c => c.holdsWait u.fn u.q
    | none => false

/-- The run descriptor's TRIGGER and HANDLE that a NET_RUN packet at some bytes names, when they can be read (R196). -/
def State.peekRun (s : State) (k : CtxKey) (packet : List Byte) : Option (Nat × Nat) :=
  match (s.readVa .sluice k (ofLE ((packet.drop 0x20).take 6)) 160).1 with
  | .ok bs => some (fld (ofLE (bs.drop 4 |>.take 4)) 1 0, ofLE (bs.take 4))
  | .error _ => none

/-- The kind of engine that the packet after a FENCE_WAIT uses first (R196). -/
def State.waitKind (s : State) (u : Queue) : UnitKind :=
  let k : CtxKey := { fn := u.fn, id := u.ctx }
  let pos := (u.read + 2) % 2 ^ u.ringLog2
  if pos = u.write then .copy
  else
    match (s.readVa .headgate k (u.ringAddr + 16 * pos) 48).1 with
    | .error _ => .copy
    | .ok bs =>
      let op := fld (ofLE (bs.take 1)) 7 0
      if op = 0x40 ∨ op = 0x41 then .cluster
      else if op = 0x43 then
        match s.peekRun k bs with
        | some (0, h) => match s.net? k h with
          | some n => if n.isKernel ((n.groupLayers (n.groupIds.getD 0 0)).headD 0) then .cluster else .array
          | none => .copy
        | _ => .copy
      else .copy

/-- The queues of a context whose remote wait is not in a ring and belongs on a kind of engine (R196). A wait that was
placed once keeps its kind. -/
def State.looseWaits (s : State) (k : CtxKey) (u : UnitKind) : List Queue :=
  (s.queuesOf k).filter fun q => match q.wait with
    | some w => w.remote && !(s.placed q) && decide ((match w.engine with
        | some e => (unitKind e)
        | none => s.waitKind q) = u)
    | none => false

/-- Contexts whose work may run: resident, and ACTIVE or FAULTED (R95, R180, R188, R193). -/
def State.runsCtx (s : State) (k : CtxKey) : Bool :=
  match s.ctx? k with
  | some c => c.resident && (decide (c.st = .active) || decide (c.st = .faulted))
  | none => false

/-- How many clusters a context holds, or is about to. -/
def State.clustersHeld (s : State) (k : CtxKey) : Nat :=
  countIf (fun c => decide (c.core.holder = some k) || (match c.core.sw with
    | some w => decide (w.into = some k)
    | none => false)) s.clusters

/-- Whether a context may take one more cluster (R191). -/
def State.clusterRoom (s : State) (k : CtxKey) : Bool :=
  match s.ctx? k with
  | some c => decide (s.clustersHeld k < c.maxClusters)
  | none => false

/-- What an engine already holds of its holder's work: the rest of a COPY or a PASS (R173). -/
def State.hasRest (s : State) (k : CtxKey) (e : Engine) : Bool :=
  match s.engine? e with
  | some c => c.ring.any fun r => match r with
    | .work w x => decide (x = k) && s.mayRun k w
    | _ => false
  | none => false

/-- Whether a context has a remote wait to hold on a kind of unit, or a saved share to go on with. -/
def State.waitsOn (s : State) (k : CtxKey) (u : UnitKind) : Bool :=
  !(s.looseWaits k u).isEmpty || (decide (u = .cluster) && match s.ctx? k with
    | some c => decide (c.st = .active) && !c.saved.isEmpty
    | none => false)

/-- Whether a context has something to do on a kind of unit. -/
def State.wants (s : State) (k : CtxKey) (u : UnitKind) : Bool := !(s.readyFor k u).isEmpty || s.waitsOn k u

/-- Whether a group is parked, before its own faulting instruction or by a stop (R95). -/
def Group.stopped (g : Group) : Bool :=
  g.parked || match g.st with
    | .faulted _ => true
    | _ => false

/-- Whether a cluster holds the parked groups of a FAULTED context: the context is not runnable there until CTX_REPLAY
(R188). -/
def State.parkedOn (s : State) (k : CtxKey) (e : Engine) : Bool :=
  match e with
  | .cluster i => match s.clusters[i]?, s.ctx? k with
    | some cl, some c =>
      decide (c.st = .faulted) && decide (cl.core.holder = some k) && !cl.groups.isEmpty && cl.groups.all Group.stopped
    | _, _ => false
  | _ => false

/-- Whether a context is runnable on a unit (R180, R188, R191). -/
def State.runnable (s : State) (k : CtxKey) (e : Engine) : Bool :=
  s.runsCtx k && !(s.parkedOn k e) &&
    (((!(s.readyOn k e).isEmpty || s.waitsOn k (unitKind e)) && (decide ((unitKind e) ≠ .cluster) || decide (s.holder e = some k) || s.clusterRoom k)) ||
      (decide (s.holder e = some k) && s.hasRest k e))

/-- The contexts runnable on a unit. -/
def State.runnables (s : State) (e : Engine) : List Ctx := s.ctxs.filter fun c => s.runnable c.key e

/-! ## Time held (R187) -/

/-- The microseconds that an engine's present holder has held it in this round. -/
def State.heldNow (s : State) (c : EngineCore) : Nat := s.now - max c.heldSince s.sluice.boundary

/-- Cores of a kind of unit: clusters, or arrays. -/
def State.coresOf (s : State) (arr : Bool) : List EngineCore :=
  if arr then s.arrays.map (·.core) else s.clusters.map (·.core)

/-- The unit time that a tenant's contexts have held so far in the round. -/
def State.heldBy (s : State) (fn : Nat) (arr : Bool) : Nat :=
  sumN ((s.sluice.heldUs.filter fun x => x.1 == fn && x.2.1 == arr).map fun x => x.2.2) +
    sumN ((s.coresOf arr).map fun c => match c.holder with
      | some k => if k.fn = fn then s.heldNow c else 0
      | none => 0)

/-- The enabled units of a kind. -/
def State.unitsOf (s : State) (arr : Bool) : List Engine :=
  if arr then s.arraysOn.map .array else s.clustersOn.map .cluster

/-- The shortfall of a tenant in 1/256 µs, 0 when it has none (R187). -/
def State.shortfall (s : State) (fn : Nat) (arr : Bool) : Nat :=
  let total := (s.now - s.sluice.boundary) * (s.unitsOf arr).length
  s.sluice.active.shares.getD fn 0 * total - 256 * s.heldBy fn arr

/-- Whether a tenant has a context runnable on a unit of a kind. -/
def State.tenantRunnable (s : State) (fn : Nat) (arr : Bool) : Bool :=
  (s.unitsOf arr).any fun e => (s.runnables e).any fun c => c.key.fn == fn

/-- The tenants below their share for the kind of a unit, largest shortfall first, then the lower number (R188). -/
def State.belowShare (s : State) (e : Engine) : List Nat :=
  match (unitKind e) with
  | .cluster => sortBy (fun fn => 2 ^ 64 - s.shortfall fn false)
      ((List.range 4).filter fun fn => decide (0 < s.shortfall fn false) && s.tenantRunnable fn false)
  | .array => sortBy (fun fn => 2 ^ 64 - s.shortfall fn true)
      ((List.range 4).filter fun fn => decide (0 < s.shortfall fn true) && s.tenantRunnable fn true)
  | _ => []

/-- Time held is charged to the tenant, for the round and for telemetry (R187, R389). -/
def State.chargeHeld (e : Engine) (c : EngineCore) (s : State) : State :=
  match c.holder with
  | none => s
  | some k =>
    let all := s.now - c.heldSince
    let s := match (unitKind e) with
      | .cluster => s.modSluice fun l => { l with heldUs := (k.fn, false, s.heldNow c) :: l.heldUs }
      | .array => s.modSluice fun l => { l with heldUs := (k.fn, true, s.heldNow c) :: l.heldUs }
      | _ => s
    s.modFun k.fn fun f => match (unitKind e) with
      | .cluster => { f with clusterUs := f.clusterUs + all }
      | .array => { f with arrayUs := f.arrayUs + all }
      | .copy => { f with copyUs := f.copyUs + all }
      | .front => f

/-- The grant of an array released; the tile goes to a phase. -/
def State.releaseGrant (a : Nat) (phase : TilePhase) (s : State) : State :=
  match s.arrays[a]?.bind (·.grant) with
  | none => s
  | some g =>
    let free (t : TileSlot) : TileSlot :=
      if t.tile = g.tile ∧ t.grant = some a then { t with grant := none, phase := phase } else t
    let s := s.modCluster g.cluster fun cl => { cl with tiles := cl.tiles.map free }
    s.modArray a fun x => { x with grant := none, layer := none, step := 0, buf := [] }

/-- What a unit holds of the context that leaves it is gone for the next: a cluster's L1, registers, local memory and tile
memory, an array's grant, buffers and kept weights (R22, R24, R166, R192). -/
def State.clearUnit (e : Engine) (s : State) : State :=
  match e with
  | .cluster i => s.modCluster i Cluster.empty
  | .array i => (s.releaseGrant i .retired).modArray i fun a => { a with kept := none, layer := none, step := 0, buf := [] }
  | _ => s

/-- A unit's holder changed (R200: SLC_SWITCH_COUNT); nothing of the context that held it stays (R22). -/
def State.setHolder (e : Engine) (k : Option CtxKey) (s : State) : State :=
  match s.engine? e with
  | none => s
  | some c =>
    if c.holder = k then s
    else
      let s := s.chargeHeld e c
      let s := (s.clearUnit e).modEngine e fun c => { c with holder := k, heldSince := s.now }
      if k.isSome then s.modSluice fun l => { l with switches := l.switches + 1 } else s

/-! ## Rank (R186, R188) -/

/-- Whether an open RESERVED slot names a unit, with an owner or without (R182, R185). -/
def Sluice.reservedOn (l : Sluice) (e : Engine) : Bool := l.openSlots.any fun x => x.2.1.cls == 0 && x.2.1.names e

/-- The rank of a context's pass among the passes (R186, R189): 10 for the owner of an open RESERVED slot, 9 for a tenant below
its share of the clusters, 8 for the owner of an open SHARED slot, else its priority (log entry 124). -/
def State.passRank (s : State) (c : Ctx) : Nat :=
  let owner := fun (cls : Nat) => s.sluice.openSlots.any fun x => x.2.1.cls == cls && x.2.2 && x.2.1.owns c.key
  if owner 0 then 10
  else if 0 < s.shortfall c.key.fn false ∧ s.tenantRunnable c.key.fn false then 9
  else if owner 1 then 8
  else c.prio

/-- The rank of a context on a unit: 8 for the owner of an open SHARED slot that names it (R182), else its priority; on a front
end the rank of its pass. -/
def State.rankOn (s : State) (e : Engine) (c : Ctx) : Nat :=
  if unitKind e = .front then s.passRank c
  else if !(s.sluice.reservedOn e) ∧ (s.sluice.openSlots.any fun x => x.2.1.cls == 1 && x.2.2 && x.2.1.names e && x.2.1.owns c.key)
  then 8 else c.prio

/-- Whether the first of two contexts prevails: by rank, then the one that ran longest ago, then by tenant and ID. -/
def beats (ra rb : Nat) (a b : Ctx) : Bool :=
  if ra ≠ rb then decide (rb < ra)
  else
    match a.lastRun, b.lastRun with
    | none, some _ => true
    | some _, none => false
    | some x, some y => if x ≠ y then decide (x < y) else decide (a.key.fn * 1024 + a.key.id < b.key.fn * 1024 + b.key.id)
    | none, none => decide (a.key.fn * 1024 + a.key.id < b.key.fn * 1024 + b.key.id)

/-- The best of some contexts on a unit. -/
def State.bestOf (s : State) (e : Engine) (cs : List Ctx) : Option CtxKey :=
  (cs.foldl (fun (acc : Option Ctx) c => match acc with
    | none => some c
    | some b => if beats (s.rankOn e c) (s.rankOn e b) c b then some c else acc) none).map (·.key)

/-! ## Giving a unit its next entry -/

/-- Whether a work starts with its entry: the rest of a COPY or a PASS has started before (R31, R173). -/
def State.starts (s : State) (w : Work) : Bool :=
  match (s.job? w.job).map Job.kind with
  | some (.copy _ next _) => next == 0
  | some (.pass _ r) => decide (w.kind ≠ .pass) || r.isNone
  | _ => true

/-- An entry put into an engine's empty ring; work that starts arms the commit of the engine's block (R31). -/
def State.pushRing (e : Engine) (r : RingEntry) (s : State) : State :=
  let arms : Bool := match r with
    | .work w _ => s.starts w
    | _ => false
  s.modEngine e fun c => { c with ring := r :: c.ring, busy := true, armed := c.armed || arms }

/-- Whether a work spreads over several clusters (R161, R173): a KERNEL_SUBMIT kernel and a KERNEL layer. -/
def WorkKind.spreads : WorkKind → Bool
  | .kernel => true
  | .kernelLayer _ => true
  | _ => false

/-- A work taken off the ready units; a kernel that spreads stays while workgroups of it are left to deal (R161, R173). -/
def State.takeReady (w : Work) (s : State) : State :=
  if w.kind.spreads then s
  else s.modSluice fun l => { l with ready := dropFirst (fun x => decide (x = w)) l.ready }

/-- The parts of a slot of a save area that hold a cluster's live state: offset and bytes (R191; log entry 120). -/
def SavedCluster.extents (v : SavedCluster) : List (Nat × Nat) :=
  [(0, sumN (v.groups.map fun g => 128 * g.v.length)), (0x40000, sumN (v.wgs.map fun w => w.bytes)),
   (0x60000, sumN (v.tiles.map fun t => t.bytes)), (0xA0000, 512 * v.groups.length), (0xA8000, 512 * v.wgs.length)]

/-- The device writes a part of a save area through the context's ranges; its content is the device's own (R191, R304). -/
def State.saveTo (k : CtxKey) (va n : Nat) (s : State) : Acc :=
  let (v, s) := s.fresh
  match s.putVa .sluice k va ((List.range n).map (Config.saveByte v)) with
  | (some f, s) => (some (f.1, true, f.2), s)
  | (none, s) => (none, s)

/-- The device reads a part of a save area back. -/
def State.loadFrom (k : CtxKey) (va n : Nat) (s : State) : Acc :=
  match s.readVa .sluice k va n with
  | (.error f, s) => (some (f.1, false, f.2), s)
  | (.ok _, s) => (none, s)

/-- A fault in a save area: it is recorded with SOURCE 8, as a fault of the job whose state it was, and the context becomes LOST
(R191; log entry 102). -/
def State.saveFault (k : CtxKey) (island : Nat) (j : Option Job) (f : FaultKind × Bool × Nat) (s : State) : State :=
  let o := j.elim { src := .mailbox k.fn, seq := 0, opcode := 0, irq := false } fun j => j.origin
  ((s.recordFault (s.readerFault f.1 8 f.2.1 false island f.2.2 (j.map (·.id)) o k)).2).lose k

/-- The job whose share of a cluster was saved. -/
def State.savedJob (s : State) (v : SavedCluster) : Option Job := v.run.bind fun r => s.job? r.work.job

/-- A saved share of a cluster restored (R190, R191). -/
def Cluster.restore (v : SavedCluster) (c : Cluster) : Cluster :=
  { c with run := v.run, wgs := v.wgs, groups := v.groups, tiles := v.tiles, tileMem := v.tileMem,
           core := { c.core with busy := true } }

/-- The holder's next entry on a unit: a remote wait first (R196), then a saved share, then the first ready work. An array that
holds a grant goes on with its tile network (R24). -/
def State.assign (e : Engine) (k : CtxKey) (s : State) : State :=
  match s.engine? e with
  | none => s
  | some c =>
    if !c.ring.isEmpty then s
    else
      let started : Bool := match e with
        | .array i => (s.arrays[i]?.bind (·.grant)).isSome && !(s.readyOn k e).isEmpty
        | _ => false
      match (if started then [] else s.looseWaits k (unitKind e)) with
      | q :: _ =>
        (s.pushRing e (.wait q.fn q.q k)).modQueue q.fn q.q fun u =>
          { u with wait := u.wait.map fun w => { w with engine := some e } }
      | [] =>
        match e, s.ctx? k with
        | .cluster i, some x =>
          match (if x.st = .active then x.saved else []) with
          | v :: rest =>
            match inTurn (fun (p : Nat × Nat) => State.loadFrom k (x.save + 0xB0000 * v.slot + p.1) p.2) v.extents s with
            | (some f, s) => s.saveFault k (engineIsland e) (s.savedJob v) f
            | (none, s) => (s.modCluster i (Cluster.restore v)).modCtx k fun x => { x with saved := rest }
          | [] =>
            match s.readyOn k e with
            | w :: _ => (s.takeReady w).pushRing e (.work w k)
            | [] => s
        | _, _ =>
          match s.readyOn k e with
          | w :: _ => (s.takeReady w).pushRing e (.work w k)
          | [] => s

/-! ## The choice (R188) -/

/-- Whether a unit's scheduled unit has ended: a cluster with only parked groups of a FAULTED context counts so. -/
def State.unitEnded (s : State) (e : Engine) : Bool :=
  match e, s.engine? e with
  | .cluster i, some c =>
    !c.busy || (match s.clusters[i]?, c.holder with
      | some cl, some k => (match s.ctx? k with
        | some x => decide (x.st = .faulted)
        | none => true) && !cl.groups.isEmpty && cl.groups.all Group.stopped
      | _, _ => false)
  | _, some c => !c.busy
  | _, none => true

/-- What the choice gives. -/
inductive Choice where
  | keep
  | idle
  | claim (k : CtxKey) (atOnce : Bool) (slot : Option Nat)
deriving DecidableEq, Repr

/-- The owner's context that a slot's claim goes to on a unit (R180). -/
def State.slotBest (s : State) (t : Slot) (e : Engine) : Option CtxKey :=
  s.bestOf e ((s.runnables e).filter fun c => t.owns c.key)

/-- Level 2: the first open RESERVED slot that names the unit, when it has an owner that is runnable there (R182, R188). A slot
without an owner still keeps later ones off the unit (R182, R185). -/
def State.level2 (s : State) (e : Engine) : List (Nat × Slot × Bool) → Bool → Option (Nat × Slot × CtxKey)
  | [], _ => none
  | (i, t, owned) :: rest, earlier =>
    if t.cls ≠ 0 ∨ !(t.names e) then s.level2 e rest earlier
    else if earlier ∨ !owned then s.level2 e rest true
    else
      match s.slotBest t e with
      | some k => some (i, t, k)
      | none =>
        match s.holder e with
        | some h => if t.owns h ∧ !(s.unitEnded e) then some (i, t, h) else s.level2 e rest true
        | none => s.level2 e rest true

/-- Levels 3 to 5 of the choice (R188); a front end is taken from a running pass only as R189 gives. -/
def State.levels345 (s : State) (e : Engine) : Choice :=
  let cs := s.runnables e
  match (s.belowShare e).findSome? fun fn => s.bestOf e (cs.filter fun c => c.key.fn == fn) with
  | some k => .claim k false none
  | none =>
    match s.bestOf e (cs.filter fun c => decide (1 ≤ s.rankOn e c)) with
    | some k => .claim k false none
    | none =>
      match s.bestOf e (cs.filter fun c => decide (s.rankOn e c = 0)) with
      | some k => .claim k false none
      | none => .idle

/-- pick(u, t) of R188. -/
def State.pick (s : State) (e : Engine) : Choice :=
  match s.level2 e s.sluice.openSlots false with
  | some (i, t, k) =>
    match s.holder e with
    | some h => if t.owns h then .keep else .claim k true (some i)
    | none => .claim k true (some i)
  | none =>
    match s.holder e, s.engine? e with
    | some h, some c =>
      if !(s.unitEnded e) then .keep
      else if s.runnable h e ∧ s.now - c.heldSince < s.sluice.active.quantum then .keep
      else s.levels345 e
    | _, _ => s.levels345 e

/-- Whether a free unit of the same kind that the claim allows stands before this one in Weir's rank (R174, R328). -/
def State.coolerFree (s : State) (e : Engine) (slot : Option Nat) : Bool :=
  let rank := match (unitKind e) with
    | .cluster => s.sluice.rankCl.map Engine.cluster
    | .array => s.sluice.rankNs.map Engine.array
    | _ => ([] : List Engine)
  let before := rank.takeWhile fun x => decide (x ≠ e)
  rank.contains e && before.any fun x =>
    (s.holder x).isNone && s.enabled x && s.islandThere (engineIsland x) && (match slot.bind fun i => s.sluice.active.slots[i]? with
      | some t => t.names x
      | none => true)

/-- A front end is given up only when all four are busy, for a pass of a higher level of R186, at the lowest-ranked one
(R189). -/
def State.frontMaySwitch (s : State) (e : Engine) (h k : CtxKey) : Bool :=
  match e with
  | .front _ =>
    let rank := fun (x : Option CtxKey) => (x.bind s.ctx?).elim 0 s.passRank
    s.fronts.all (fun f => f.core.holder.isSome) && decide (rank (some h) < rank (some k)) &&
      s.fronts.all fun f => decide (rank (some h) ≤ rank f.core.holder)
  | _ => true

/-- A claim carried out (R188, R190): a free unit is taken, the holder's own next entry follows, another holder is
switched out. -/
def State.claim (e : Engine) (k : CtxKey) (slot : Option Nat) (s : State) : State :=
  match s.holder e with
  | none => if s.coolerFree e slot then s else (s.setHolder e (some k)).assign e k
  | some h =>
    if h = k then s.assign e k
    else if !(s.frontMaySwitch e h k) then (if s.runnable h e then s.assign e h else s)
    else s.modEngine e fun c => { c with sw := some { out := some h, into := some k }, ring := c.ring ++ [.switch (some h) (some k)] }

/-! ## Yields (R198, R199) -/

/-- The element of a list that comes first in an order. -/
def firstBy {α : Type} (before : α → α → Bool) : List α → Option α
  | [] => none
  | a :: as => match firstBy before as with
    | none => some a
    | some b => if before a b then some a else some b

/-- The jobs that want a kind of unit, of the contexts that a test picks, in the order of their ready works. -/
def State.wantingJobs (s : State) (u : UnitKind) (sel : CtxKey → Bool) : List Job :=
  s.sluice.ready.filterMap fun w =>
    match s.job? w.job with
    | some j => if w.kind.unit = u ∧ sel j.key ∧ s.mayRun j.key w then some j else none
    | none => none

/-- The oldest of some jobs. -/
def oldestJob (js : List Job) : Option Job := firstBy (fun a b => decide (a.id < b.id)) js

/-- An ST_SCHED_YIELD event to the queue of a job. -/
def State.yieldEvent (j : Job) (winner reason level : Nat) (s : State) : State :=
  match j.origin.src with
  | .mailbox _ => s
  | .queue fn q =>
    let before := (s.funs[fn]?.map (·.evDropped)).getD 0
    let s := s.event fn q j.origin.seq j.origin.opcode 0x63 stSchedYield (winner + at' reason 16 + at' level 20)
      (BitVec.ofNat 64 (s.sluice.rounds.toNat + 1) &&& 0xFFFFFFFF)
    let after := (s.funs[fn]?.map (·.evDropped)).getD 0
    if before = after ∧ (s.queue? fn q).isSome then
      (s.modSluice fun l => { l with yields := satInc l.yields }).modFun fn fun f => { f with cumYields := f.cumYields + 1 }
    else s

/-- Denials of a unit that goes to a context: each later open RESERVED slot whose owner is runnable there and does not get it,
once a round (R182, R198). -/
def State.denials (e : Engine) (got : Option CtxKey) : List (Nat × Slot × Bool) → Option Nat → State → State
  | [], _, s => s
  | (i, t, owned) :: rest, first, s =>
    if t.cls ≠ 0 ∨ !(t.names e) then s.denials e got rest first
    else
      match first with
      | none => s.denials e got rest (some i)
      | some w =>
        let past := (s.sluice.runs[i]?.map (·.denied)).getD true || !owned || got.elim false t.owns
        match if past then none else s.slotBest t e with
        | none => s.denials e got rest first
        | some k =>
          let s := s.modSluice fun l => { l with runs := modNth (fun r => { r with denied := true }) i l.runs }
          let s := match (s.wantingJobs (unitKind e) fun x => decide (x = k)).head? with
            | some j => s.yieldEvent j w 1 2
            | none => s
          s.denials e got rest first

/-- A RESERVED slot of another tenant holds a unit on which tenants are runnable: noted for the round's end (R198). -/
def State.noteContended (e : Engine) (slot : Nat) (winner : CtxKey) (s : State) : State :=
  match (unitKind e) with
  | .cluster | .array =>
    let arr := decide ((unitKind e) = .array)
    let fns := (List.range 4).filter fun fn => decide (fn ≠ winner.fn) && (s.runnables e).any fun c => c.key.fn == fn
    s.modSluice fun l =>
      { l with contended := runAll (fun fn acc => if acc.contains (fn, arr, slot) then acc else (fn, arr, slot) :: acc) fns l.contended }
  | _ => s

/-! ## Switches (R190 to R192) -/

/-- The work that a cluster runs a share of: its state is saved, not given back (R190). -/
def State.runningWork (s : State) : Engine → Option Work
  | .cluster i => (s.clusters[i]?.bind fun c => c.run).map fun r => r.work
  | _ => none

/-- The unstarted entries of a ring given back: works become ready again, WAIT entries hold no state (R192, R196). A commit that
was armed for one of them stays armed (R29). -/
def State.giveBack (e : Engine) (k : CtxKey) (s : State) : State :=
  match s.engine? e with
  | none => s
  | some c =>
    let ws := c.ring.filterMap fun r => match r with
      | .work w x => if x = k ∧ !w.kind.spreads ∧ s.runningWork e ≠ some w then some w else none
      | _ => none
    let s := s.modEngine e fun c => { c with ring := [] }
    s.modSluice fun l => { l with ready := ws ++ l.ready }

/-- The layers of the tile network of a grant. -/
def State.grantLayers (s : State) (g : Grant) : Nat :=
  match (s.job? g.job).map Job.kind with
  | some (.pass _ (some r)) => ((s.net? g.key r.desc.tileNet).map fun n => n.layers.length).getD 0
  | _ => 0

/-- Whether an array has written the outputs of a tile and only the release of its grant is left (R166). -/
def State.outputsDone (s : State) (a : Array) : Bool :=
  match a.grant with
  | some g => decide (0 < a.step) && a.step == s.grantLayers g
  | none => false

/-- Whether everything that the outgoing context issued on a unit has completed (R190, R192). -/
def State.unitDrained (s : State) (e : Engine) (k : CtxKey) : Bool :=
  s.flight.all (fun a => decide (a.who ≠ .engine e) || decide (a.key ≠ k)) &&
    match e with
    | .cluster i => match s.clusters[i]? with
      | some c => c.tiles.all (fun t => t.grant.isNone) && c.groups.all fun g => match g.st with
        | .bus _ => false
        | .flush _ => false
        | .tracing _ => false
        | _ => true
      | none => true
    | .array i => match s.arrays[i]? with
      | some a => a.layer.isNone && !(s.outputsDone a)
      | none => true
    | .copy i => match s.copies[i]? with
      | some x => x.chunk.isNone
      | none => true
    | .front i => match s.fronts[i]? with
      | some f => !f.core.busy
      | none => true

/-- A cluster's live state of a context, to be saved in a slot (R190, R191). -/
def Cluster.saved (slot : Nat) (c : Cluster) : Option SavedCluster :=
  if c.run.isNone ∧ c.groups.isEmpty ∧ c.tiles.isEmpty then none
  else some { slot := slot, run := c.run, wgs := c.wgs, groups := c.groups, tiles := c.tiles, tileMem := c.tileMem }

/-- The first slot of its save area that a context does not use. -/
def Ctx.freeSlot (x : Ctx) : Nat := ((List.range 64).find? fun i => !(x.saved.any fun v => v.slot == i)).getD 0

/-- A cluster's state saved into its context, or lost when the save area faults (R191). -/
def State.saveCluster (i : Nat) (k : CtxKey) (s : State) : State :=
  match s.clusters[i]?, s.ctx? k with
  | some c, some x =>
    match c.saved x.freeSlot with
    | none => s
    | some v =>
      let s := s.modCluster i Cluster.empty
      match inTurn (fun (p : Nat × Nat) => State.saveTo k (x.save + 0xB0000 * v.slot + p.1) p.2) v.extents s with
      | (none, s) => s.modCtx k fun x => { x with saved := x.saved ++ [v] }
      | (some f, s) => s.saveFault k (engineIsland (.cluster i)) (s.savedJob v) f
  | _, _ => s

/-- The state of a pass saved by its front end, at most 4 KiB, in the free part of the first 64 KiB of its parameter buffer
(R113, R189; log entry 121). -/
def State.savePass (i : Nat) (k : CtxKey) (s : State) : State :=
  match s.fronts[i]?.bind fun f => f.job.bind s.job? with
  | none => s
  | some j =>
    match j.kind with
    | .pass va (some r) =>
      let (v, s) := s.fresh
      let n := 1 + Config.passBytes v % 4096
      let off := 0x300 + Config.passPlace v % (0xFD00 - n)
      match s.putVa (.engine (.front i)) k (r.desc.pbAddr + off) ((List.range n).map (Config.saveByte v)) with
      | (some f, s) => s.report (s.readerFault f.1 4 true false (engineIsland (.front i)) f.2 (some j.id) j.origin k)
      | (none, s) => s.modJob j.id fun j => { j with kind := .pass va (some { r with saved := some (off, n) }) }
    | _ => s

/-- The outgoing context leaves a unit. -/
def State.switchOut (e : Engine) (k : CtxKey) (s : State) : State :=
  let s := s.giveBack e k
  match e with
  | .cluster i =>
    let s := s.flushL1 i
    (s.saveCluster i k).modCluster i Cluster.empty
  | .array _ => s.clearUnit e
  | .copy i => s.modCopy i fun c => { c with job := none }
  | .front i => (s.savePass i k).modFront i fun f => { f with job := none }

/-! ## Residency (R193 to R195) -/

/-- Whether a unit holds a context. -/
def State.holdsUnit (s : State) (k : CtxKey) : Bool := s.engines.any fun e => decide (s.holder e = some k)

/-- Whether a context is runnable on any unit, its residency aside. -/
def State.hasWork (s : State) (k : CtxKey) : Bool :=
  s.wants k .cluster || s.wants k .array || s.wants k .copy || s.wants k .front

/-- Whether a queue leaves its context blocked: empty, or waiting on a fence, or holding only armed runs (R193). -/
def State.queueIdle (s : State) (u : Queue) : Bool :=
  u.wait.isSome || (u.read == u.write && (s.startedJobs (.queue u.fn u.q)).all Job.armed)

/-- A blocked context (R193). -/
def State.blocked (s : State) (c : Ctx) : Bool :=
  (decide (c.st = .faulted) && !(s.holdsUnit c.key) && !c.saved.isEmpty) ||
    (!(s.holdsUnit c.key) && (s.queuesOf c.key).all s.queueIdle && !(decide (c.st = .active) && s.hasWork c.key))

/-- Whether a context owns an open RESERVED slot (R194). -/
def State.inReserved (s : State) (k : CtxKey) : Bool :=
  s.sluice.openSlots.any fun x => x.2.1.cls == 0 && x.2.2 && x.2.1.owns k

/-- The resident contexts of a tenant, counted. -/
def State.residentOf (s : State) (fn : Nat) : Nat := countIf (fun c => c.resident && c.key.fn == fn) s.ctxs

/-- The contexts that could be evicted for one of a tenant (R194). -/
def State.evictPool (s : State) (fn : Nat) : List Ctx :=
  let pool := s.ctxs.filter fun r => r.resident && !(s.inReserved r.key)
  let big := pool.filter fun r => decide (32 < s.residentOf r.key.fn)
  if !big.isEmpty ∧ s.residentOf fn < 32 then big else pool

/-- Whether a context ran longer ago than another, with the ties of R188. -/
def ranBefore (a b : Ctx) : Bool := beats 0 0 a b

/-- Where Sluice's state of a context lies in its save area (R191). -/
def Ctx.sluiceArea (x : Ctx) : Nat := x.save + 0xB0000 * x.maxClusters

/-- Sluice's state of a context written to its save area, or read back from it (R191, R194); a fault there loses the
context. -/
def State.storeCtx (write : Bool) (k : CtxKey) (s : State) : State :=
  match s.ctx? k with
  | none => s
  | some x =>
    match (if write then s.saveTo k x.sluiceArea 65536 else s.loadFrom k x.sluiceArea 65536) with
    | (none, s) => s.modCtx k fun x => { x with stored := write }
    | (some f, s) => (s.saveFault k 0x63 none f).modCtx k fun x => { x with stored := false }

/-- A context evicted: off every unit, its Sluice state in its save area, out of every range cache (R194, R316). -/
def State.evict (k : CtxKey) (s : State) : State :=
  let s := runAll (fun e (s : State) =>
    if s.holder e = some k then
      let s := s.switchOut e k
      (s.modEngine e fun c => { c with sw := none, busy := false, ring := [] }).setHolder e none
    else s) s.engines s
  let s := s.storeCtx true k
  let s := runAll (fun w (s : State) => s.setRangeCache w ((s.rangeCache w).filter fun x => decide (x.key ≠ k))) s.walkers s
  (s.modCtx k fun c => { c with resident := false }).modSluice fun l => { l with evictions := satInc l.evictions }

/-- make_resident(c) of R194: whether the context now is resident. -/
def State.makeResident (k : CtxKey) (s : State) : Bool × State :=
  match s.ctx? k with
  | none => (false, s)
  | some c =>
    if c.resident then (true, s)
    else
      let load := fun (s : State) => (if c.stored then s.storeCtx false k else s).modCtx k fun c => { c with resident := true }
      let swap := fun (r : Ctx) (s : State) =>
        load ((s.evict r.key).modFun r.key.fn fun f => { f with cumEvict := f.cumEvict + 1 })
      if countIf (fun r => r.resident) s.ctxs < 128 then (true, load s)
      else
        let pool := s.evictPool k.fn
        match firstBy ranBefore (pool.filter s.blocked) with
        | some r => (true, swap r s)
        | none =>
          if s.inReserved k then
            match firstBy (fun a b => beats b.prio a.prio b a) pool with
            | some r => (true, swap r s)
            | none => (false, s)
          else (false, s)

/-- Deferred contexts retried in the order in which they were deferred (R194). -/
def State.retryDeferred (s : State) : State :=
  let (left, s) := s.sluice.deferred.foldl (fun (acc : List CtxKey × State) k =>
    match acc.2.ctx? k with
    | none => acc
    | some _ =>
      match acc.2.makeResident k with
      | (true, s) => (acc.1, s)
      | (false, s) => (acc.1 ++ [k], s)) ([], s)
  s.modSluice fun l => { l with deferred := left }

/-- Whether something makes a context runnable: a doorbell, ready work, a saved share (R194, R195). -/
def State.wakes (s : State) (c : Ctx) : Bool :=
  decide (c.st ≠ .destroying) &&
    ((s.queuesOf c.key).any (fun u => u.read != u.write && u.wait.isNone) || (decide (c.st = .active) && s.hasWork c.key))

/-- MAKE_RESIDENT (R194): contexts that were deferred before come first. -/
def execMakeResident (fn ctx : Nat) (s : State) : Res :=
  let k : CtxKey := { fn := fn, id := ctx }
  match s.ctx? k with
  | none => .next s
  | some c =>
    if c.resident ∨ !(s.wakes c) ∨ !(s.procUp 1) then .next s
    else
      match s.retryDeferred.makeResident k with
      | (true, s) => .next (s.modSluice fun l => { l with deferred := l.deferred.filter fun x => decide (x ≠ k) })
      | (false, s) => .next (s.modSluice fun l => { l with deferred := if l.deferred.contains k then l.deferred else l.deferred ++ [k] })

/-! ## SCHEDULE_PICK and SWITCH_DRAINED -/

/-- SCHEDULE_PICK: Sluice chooses the holder of a unit (R188). It deals nothing while its processor is down (R373), and
an engine whose island is off or in reset takes nothing. -/
def execSchedulePick (e : Engine) (us : Nat) (s : State) : Res :=
  let s := s.advance us
  match s.engine? e with
  | none => .next s
  | some c =>
    if !(s.procUp 1) ∨ !(s.enabled e) ∨ !(s.islandThere (engineIsland e)) ∨ s.aon.mode ≠ .a ∨ c.sw.isSome then .next s
    else
      let lvl2 := s.level2 e s.sluice.openSlots false
      let d := s.pick e
      let s := match lvl2 with
        | some (i, _, k) => s.noteContended e i k
        | none => s
      let got := match d with
        | .idle => none
        | .keep => s.holder e
        | .claim k _ _ => some k
      let s := s.denials e got s.sluice.openSlots none
      match d with
      | .idle => .next (if c.ring.isEmpty ∧ s.unitEnded e ∧ !c.busy then (s.setHolder e none).retryDeferred else s)
      | .keep =>
        match s.holder e with
        | some h => .next (if !c.busy ∧ s.runnable h e then s.assign e h else s)
        | none => .next s
      | .claim k _ slot => .next (s.claim e k slot)

/-- SWITCH_DRAINED: the drain and the save of a switch end, and the unit goes to the incoming context (R190, R192). -/
def execSwitchDrained (e : Engine) (s : State) : Res :=
  match s.engine? e with
  | none => .next s
  | some c =>
    match c.sw with
    | none => .next s
    | some w =>
      let ready := match w.out with
        | some k => s.unitDrained e k
        | none => true
      if !ready then .next s
      else
        let s := match w.out with
          | some k => s.switchOut e k
          | none => s
        let s := s.modEngine e fun c => { c with sw := none, busy := false, ring := [] }
        match w.into with
        | none => .next (s.setHolder e none).retryDeferred
        | some k =>
          .next (if s.runnable k e then (s.setHolder e (some k)).assign e k else s.setHolder e none).retryDeferred

/-! ## Rounds and slots (R178, R179, R183) -/

/-- Slots that did not open in the round are counted (R179). -/
def Sluice.lapseRest (l : Sluice) : Sluice :=
  { l with lapsed := satAdd l.lapsed (countIf (fun r => !r.opened && !r.lapsed) l.runs) }

/-- The source of a locking event of a table (R178). -/
def Table.lockSrc (t : Table) : Option EventSrc :=
  if t.lock = 1 then some (.vblank t.pipe) else if t.lock = 2 then some (.frameEnd t.port t.vc) else none

/-- The source of a slot's trigger (R179). -/
def Slot.triggerSrc (t : Slot) : Option EventSrc :=
  if t.trigger = 1 then some (.vblank t.pipe) else if t.trigger = 2 then some (.frameEnd t.port t.vc) else none

/-- Whether a slot of a newly loaded table has an owner (R177, R185). -/
def State.slotOwned (s : State) (t : Slot) : Bool :=
  if t.cls = 2 then false
  else if t.ctx = 0xFFFF then true
  else
    match s.ctx? { fn := t.tenant, id := t.ctx } with
    | some c => decide (c.st ≠ .lost) && decide (c.st ≠ .destroying)
    | none => false

/-- The ST_SCHED_YIELD events of a round's end (R198, third case). -/
def State.shareYields (s : State) : State :=
  let cases := (List.range 4).flatMap fun fn => [(fn, false), (fn, true)]
  runAll (fun (x : Nat × Bool) (s : State) =>
    let slots := (s.sluice.contended.filter fun y => y.1 == x.1 && y.2.1 == x.2).map fun y => y.2.2
    if slots.isEmpty ∨ s.shortfall x.1 x.2 = 0 ∨ !(s.tenantRunnable x.1 x.2) then s
    else
      match oldestJob (s.wantingJobs (if x.2 then .array else .cluster) fun k => k.fn == x.1) with
      | some j => s.yieldEvent j (if slots.length = 1 then slots.headD 0 else 0xFFFF) (if x.2 then 4 else 3) 2
      | none => s) cases s

/-- What an open RESERVED slot came short of its RSV_SHARE to in the round, if to anything: WINNER and LEVEL (R181, R198). -/
def State.shortBy (s : State) (i v : Nat) : Option (Nat × Nat) :=
  let earlier := (enumFrom 0 (List.zip s.sluice.active.slots s.sluice.runs)).filterMap fun x =>
    if x.1 < i ∧ x.2.1.cls ≠ 2 ∧ x.2.1.rsvShare ≠ 0 ∧ x.2.2.opened ∧ x.2.2.owned then some x.1 else none
  let n := Config.shareShort v i
  if n = 1 ∧ s.pipes.any (fun p => p.applied.prot.enable) then some (0xFFFE, 1)
  else if 2 ≤ n then
    match earlier with
    | [] => none
    | [j] => some (j, 2)
    | js => some (js.getD (n - 2) 0xFFFF, 2)
  else none

/-- The ST_SCHED_YIELD events of a round's end for the bandwidth of the RESERVED slots (R198, second case). -/
def State.bandwidthYields (s : State) : State :=
  runAll (fun (x : Nat × Slot × SlotRun) (s : State) =>
    if x.2.1.cls ≠ 0 ∨ x.2.1.rsvShare = 0 ∨ !x.2.2.opened ∨ !x.2.2.owned then s
    else
      let (v, s) := s.fresh
      match s.shortBy x.1 v, oldestJob (s.jobs.filter fun j => x.2.1.owns j.key && decide (j.outcome = .running) && !j.armed) with
      | some (w, level), some j => s.yieldEvent j w 2 level
      | _, _ => s) (enumFrom 0 (List.zip s.sluice.active.slots s.sluice.runs)) s

/-- An armed table commits at a round boundary, with its reply (R183). Its slots have the owners that they had at SLUICE_LOAD and
have not lost since (R185). -/
def State.commitTable (s : State) : State :=
  match s.sluice.armed with
  | none => s
  | some o =>
    let t := s.sluice.shadow
    let runs := s.sluice.owners.map fun b => { resetSlotRun with owned := b }
    let s := s.modSluice fun l =>
      { l with
        active := t, armed := none, runs := runs, owners := [], lockLost := false,
        isDefault := decide (t = defaultTable s.part.clEnable s.part.nsEnable) }
    s.replyBy o 0x63 stOk (s.sluice.rounds.toNat + 1)

/-- A round ends and the next begins at a time (R178, R179, R183, R198). -/
def State.newRound (at_ : Nat) (s : State) : State :=
  let s := s.bandwidthYields.shareYields
  let s := s.modSluice fun l =>
    let l := l.lapseRest
    { l with
      rounds := l.rounds + 1
      lastUs := BitVec.ofNat 24 (at_ - l.boundary)
      boundary := at_
      heldUs := []
      contended := []
      runs := l.runs.map fun r => { resetSlotRun with owned := r.owned }
      events := l.events.filter fun e => decide (at_ ≤ e.2) }
  (s.commitTable).retryDeferred

/-- Whether the Sluice island runs its table: out of reset and powered (R184). -/
def State.tableRuns (s : State) : Bool := s.islandThere 0x63

/-- ROUND_BOUNDARY: a locking event, which has occurred, starts a round at its own time (R178). -/
def execRoundBoundary (s : State) : Res :=
  let l := s.sluice
  match l.active.lockSrc with
  | none => .next s
  | some src =>
    match l.events.find? fun e => decide (e.1 = src) && (decide (l.boundary < e.2) || l.lockLost) &&
        (l.lockLost || decide (l.active.period ≤ 2 * (e.2 - l.boundary))) with
    | none => .next s
    | some e =>
      if s.tableRuns then .next ((s.newRound e.2).modSluice fun l => { l with lockLost := false }) else .next s

/-- ROUND_TIMER: the time comes at which PERIOD_US has passed, in TIMER lock or after the lock was lost (R178). -/
def execRoundTimer (s : State) : Res :=
  let l := s.sluice
  let due := l.boundary + l.active.period
  if (l.active.lock = 0 ∨ l.lockLost) ∧ s.tableRuns then .next ((s.advance due).newRound due) else .next s

/-- LOCK_LOST: the time comes at which no locking event has occurred for 2 × PERIOD_US; the timer starts a round (R178). -/
def execLockLost (s : State) : Res :=
  let l := s.sluice
  match l.active.lockSrc with
  | none => .next s
  | some src =>
    let due := l.boundary + 2 * l.active.period
    let seen := l.events.any fun e => decide (e.1 = src) && decide (l.boundary < e.2) && decide (e.2 ≤ due) &&
      decide (l.active.period ≤ 2 * (e.2 - l.boundary))
    if l.lockLost ∨ seen ∨ !s.tableRuns then .next s
    else
      let lost := l.armed.isNone
      .next (((s.advance due).newRound due).modSluice fun l => { l with lockLost := lost })

/-- The time at which a slot opens in this round, if it does: START_US, or the first event of its source in its window
(R179). -/
def Sluice.opensAt (l : Sluice) (t : Slot) : Option Nat :=
  match t.triggerSrc with
  | none => some (l.boundary + t.start)
  | some src =>
    (l.events.find? fun e => decide (e.1 = src) && decide (l.boundary + t.start ≤ e.2) &&
      decide (e.2 ≤ l.boundary + t.start + t.limit)).map (·.2)

/-- SLOT_OPEN (R179). -/
def execSlotOpen (i us : Nat) (s : State) : Res :=
  let s := s.advance us
  let l := s.sluice
  match l.active.slots[i]?, l.runs[i]? with
  | some t, some r =>
    match l.opensAt t with
    | none => .next s
    | some a =>
      if !s.tableRuns ∨ r.opened ∨ r.lapsed ∨ s.now < a then .next s
      else .next (s.modSluice fun l => { l with runs := modNth (fun r => { r with opened := true, isOpen := true, openedAt := a }) i l.runs })
  | _, _ => .next s

/-- SLOT_CLOSE (R179): the deferred contexts are retried (R194). -/
def execSlotClose (i us : Nat) (s : State) : Res :=
  let s := s.advance us
  match s.sluice.active.slots[i]?, s.sluice.runs[i]? with
  | some t, some r =>
    if !s.tableRuns ∨ !r.isOpen ∨ s.now < r.openedAt + t.length then .next s
    else
      .next (s.modSluice fun l => { l with runs := modNth (fun r => { r with isOpen := false }) i l.runs }).retryDeferred
  | _, _ => .next s

/-- SLOT_LAPSE: a triggered slot's latest opening time passed (R179). -/
def execSlotLapse (i us : Nat) (s : State) : Res :=
  let s := s.advance us
  let l := s.sluice
  match l.active.slots[i]?, l.runs[i]? with
  | some t, some r =>
    if !s.tableRuns ∨ r.opened ∨ r.lapsed ∨ t.trigger = 0 ∨ (l.opensAt t).isSome ∨ s.now ≤ l.boundary + t.start + t.limit then .next s
    else
      .next (s.modSluice fun l =>
        { l with runs := modNth (fun r => { r with lapsed := true }) i l.runs, lapsed := satInc l.lapsed })
  | _, _ => .next s

/-! ## SLUICE_LOAD (R175 to R177, R183) -/

/-- A slot read from its 32 bytes (R176). -/
def parseSlot (bs : List Byte) : Slot :=
  let v := ofLE bs
  { start := fld v 23 0, length := fld v 55 32, cls := fld v 57 56, trigger := fld v 59 58,
    clMask := BitVec.ofNat 48 (fld v 111 64), nsMask := BitVec.ofNat 9 (fld v 136 128),
    ceMask := BitVec.ofNat 4 (fld v 140 137), rsvShare := fld v 151 144, ctx := fld v 175 160, tenant := fld v 177 176,
    pipe := fld v 179 178, port := fld v 182 180, vc := fld v 186 183, limit := fld v 215 192 }

/-- The reserved bits of a slot are 0 (R176). -/
def slotReservedOk (bs : List Byte) : Bool :=
  let v := ofLE bs
  decide (fld v 31 24 = 0) && decide (fld v 63 60 = 0) && decide (fld v 127 112 = 0) && decide (fld v 143 141 = 0) &&
    decide (fld v 159 152 = 0) && decide (fld v 191 187 = 0) && decide (fld v 223 216 = 0) && decide (fld v 255 224 = 0)

/-- A table read from its header and its slots (R175). -/
def parseTable (hd : List Byte) (slots : List (List Byte)) : Table :=
  let v := ofLE hd
  let q := fld v 111 96
  let p := fld v 119 112
  { lock := fld v 11 10, pipe := fld v 13 12, port := fld v 16 14, vc := fld v 20 17, period := fld v 55 32,
    shares := (List.range 4).map fun k => fld v (71 + 8 * k) (64 + 8 * k), quantum := if q = 0 then 100 else q,
    poll := if p = 0 then 2 else p, slots := slots.map parseSlot }

/-- Check 1 of R177. -/
def headerOk (hd : List Byte) (t : Table) : Bool :=
  let v := ofLE hd
  let n := fld v 9 0
  decide (1 ≤ n) && decide (n ≤ 512) && decide (t.lock ≠ 3) && decide (t.port ≤ 5) && decide (100 ≤ t.period) &&
    decide (t.period ≤ 1000000) && decide (sumN t.shares ≤ 256) && decide (fld v 31 21 = 0) && decide (fld v 63 56 = 0) &&
    decide (fld v 127 120 = 0) && decide (ofLE (hd.drop 16) = 0)

/-- Check 2 of R177 for one slot. -/
def slotOk (bs : List Byte) (t : Slot) : Bool :=
  slotReservedOk bs && decide (t.cls ≠ 3) && decide (t.trigger ≠ 3) && decide (1 ≤ t.length) && decide (t.port ≤ 5) &&
    (decide (t.cls ≠ 2) || decide (t.rsvShare = 0)) && (decide (t.trigger ≠ 0) || decide (t.limit = 0))

/-- Check 4 of R177 for one slot. -/
def State.slotUnitsOk (s : State) (t : Slot) : Bool :=
  decide (t.clMask &&& ~~~s.part.clEnable = 0) && decide (t.nsMask &&& ~~~s.part.nsEnable = 0) &&
    (decide (t.cls = 2) || decide (t.clMask ≠ 0) || decide (t.nsMask ≠ 0) || decide (t.ceMask ≠ 0))

/-- Check 5 of R177 for one slot. -/
def State.slotCtxOk (s : State) (t : Slot) : Bool :=
  decide (t.cls = 2) || decide (t.ctx = 0xFFFF) || (s.ctx? { fn := t.tenant, id := t.ctx }).isSome

/-- Whether two slots share a unit. -/
def Slot.shares (a b : Slot) : Bool :=
  decide (a.clMask &&& b.clMask ≠ 0) || decide (a.nsMask &&& b.nsMask ≠ 0) || decide (a.ceMask &&& b.ceMask ≠ 0)

/-- A RESERVED slot with TRIGGER TIME. -/
def Slot.fixedReserved (t : Slot) : Bool := t.cls == 0 && t.trigger == 0

/-- Check 6 of R177: the first slot that meets an earlier one. -/
def firstClash : Nat → List Slot → List Slot → Option Nat
  | _, _, [] => none
  | i, seen, t :: rest =>
    if t.fixedReserved ∧ (seen.any fun u => u.fixedReserved && t.shares u && spansMeet t.start t.length u.start u.length) then some i
    else firstClash (i + 1) (t :: seen) rest

/-- Check 7 of R177: the highest slot that opens at the earliest instant at which the shares exceed 256. -/
def shareExcess (ts : List Slot) : Option Nat :=
  let fixed := fun (t : Slot) => decide (t.cls ≠ 2) && decide (t.trigger = 0)
  let sum := fun (x : Nat) => sumN (ts.map fun t => if fixed t ∧ t.start ≤ x ∧ x < t.start + t.length then t.rsvShare else 0)
  let bad := (ts.filter fun t => fixed t && decide (256 < sum t.start)).map fun t => t.start
  match firstBy (fun a b => decide (a < b)) bad with
  | none => none
  | some x => ((enumFrom 0 ts).filter fun y => fixed y.2 && decide (y.2.start = x)).getLast?.map (·.1)

/-- The index of the first element that fails a test. -/
def firstBad {α : Type} (ok : α → Bool) (l : List α) : Option Nat := ((enumFrom 0 l).find? fun x => !(ok x.2)).map (·.1)

/-- The checks of R177 in order: the detail of the first that fails. -/
def State.tableBad (s : State) (hd : List Byte) (raw : List (List Byte)) (t : Table) : Option Nat :=
  if !(headerOk hd t) then some 0xFFFFFFFF
  else
    match firstBad (fun (x : List Byte × Slot) => slotOk x.1 x.2) (List.zip raw t.slots) with
    | some i => some i
    | none =>
      match firstBad (fun (x : Slot) => decide (x.start + x.limit + x.length ≤ t.period)) t.slots with
      | some i => some i
      | none =>
        match firstBad s.slotUnitsOk t.slots with
        | some i => some i
        | none =>
          match firstBad s.slotCtxOk t.slots with
          | some i => some i
          | none =>
            match firstClash 0 [] t.slots with
            | some i => some i
            | none => shareExcess t.slots

/-- The SLUICE_LOAD packet (R278, R282). -/
def sluiceLoadSpec : OpSpec :=
  { opcode := 0x02, assigned := true, may := mayPf0, mailbox := false, job := false, lostOk := false, len := fun _ => 8,
    reserved := fun _ => [(0x06, 15, 0), (0x08, 63, 0)] }

/-- Bytes that Headgate reads for a packet in its context, or the fault that the read meets; the packet carries how its accesses
across the link end (R412). -/
def State.readFor (p : Pk) (k : CtxKey) (va n : Nat) (s : State) : Except (FaultKind × Nat) (List Byte) × State :=
  match s.translate .headgate k va n needR with
  | (.error f, s) => (.error f, s)
  | (.ok ps, s) =>
    if linkFailed p.named ∧ overLink ps then (.error (.linkError, va), s.logEnd p.fn p.named) else readPieces k.fn ps s

/-- A structure read that a packet names by address (R414): aligned, readable in the issuing context, without poison. -/
def State.readNamed (p : Pk) (va n align : Nat) (s : State) : Option (List Byte) × State :=
  match p.key with
  | none => (none, s)
  | some k =>
    if va % align ≠ 0 then (none, s)
    else
      match s.readFor p k va n with
      | (.ok bs, s) => (some bs, s)
      | (.error _, s) => (none, s)

/-- SLUICE_LOAD at its own checks. It waits while a table is armed (R183) and while the Sluice processor is down (R373). -/
def sluiceLoad (p : Pk) (s : State) : Verdict :=
  match p.key with
  | none => .reply stNotPermitted 0 s
  | some _ =>
    if s.sluice.armed.isSome then .hold .commitArmed
    else if !(s.procUp 1) then .hold .other
    else
      let va := p.f 0 47 0
      match s.readNamed p va 64 64 with
      | (none, s) => .reply stBadParam 0 s
      | (some hd, s) =>
        let n := fld (ofLE (hd.take 2)) 9 0
        match s.readNamed p va (64 + 32 * n) 64 with
        | (none, s) => .reply stBadParam 0 s
        | (some bs, s) =>
          let raw := (List.range n).map fun i => (bs.drop (64 + 32 * i)).take 32
          let t := parseTable hd raw
          match s.tableBad hd raw t with
          | some d => .reply stBadParam d s
          | none => .owed (s.modSluice fun l => { l with shadow := t, armed := some p.origin, owners := t.slots.map s.slotOwned })

def execSluiceLoad (src : Src) (p : Packet) (s : State) : Res := .next (s.takePacket sluiceLoadSpec sluiceLoad src p)

/-! ## Waits (R195, R196, R300) -/

/-- A poll of a registered remote wait: the fence is read, unless the read ended in LINK_ERROR. -/
def State.pollWait (fn q : Nat) (how : AccessEnd) (island : Nat) (s : State) : State :=
  if how = .ok then s.resolveWait fn q island
  else
    match s.queue? fn q with
    | none => s
    | some u =>
      match u.wait with
      | none => s
      | some w =>
        let kind := if linkFailed how then FaultKind.linkError else FaultKind.poison
        (s.logEnd fn how).failWait fn q w { fn := fn, id := u.ctx } kind island

/-- A WAIT entry left the ring of an engine: its unit has ended and the entry retires (R173, R376). -/
def State.endWaitUnit (e : Engine) (k : CtxKey) (s : State) : State :=
  (s.modEngine e fun c =>
    { c with busy := false, retired := c.retired + 1, retiredBy := modNth (fun n => n + 1) k.fn c.retiredBy }).modCtx k fun c =>
      { c with lastRun := some s.now }

/-- REMOTE_WAIT_POLL: the engine whose ring head is a WAIT entry reads the fence (R196). -/
def execRemoteWaitPoll (e : Engine) (how : AccessEnd) (s : State) : Res :=
  match s.engine? e with
  | none => .next s
  | some c =>
    match c.ring with
    | .wait fn q k :: _ =>
      if c.sw.isSome ∨ s.aon.mode ≠ .a ∨ !(s.islandUp (engineIsland e)) ∨ s.neverEnds fn how then .next s
      else
        let s := s.pollWait fn q how (engineIsland e)
        let gone := match s.engine? e with
          | some c => !(c.holdsWait fn q)
          | none => true
        .next (if gone then s.endWaitUnit e k else s)
    | _ => .next s

/-- EVICTED_FENCE_POLL: Sluice polls the remote fences of a context that is not resident (R195). -/
def execEvictedFencePoll (fn ctx : Nat) (how : AccessEnd) (s : State) : Res :=
  let k : CtxKey := { fn := fn, id := ctx }
  match s.ctx? k with
  | none => .next s
  | some c =>
    if c.resident ∨ s.aon.mode ≠ .a ∨ !(s.procUp 1) ∨ s.neverEnds fn how then .next s
    else
      .next (runAll (fun (u : Queue) (s : State) => match u.wait with
        | some w => if w.remote then s.pollWait u.fn u.q how 0x63 else s
        | none => s) (s.queuesOf k) s)

/-- FENCE_REREAD: every DRAM or RESERVOIR fence with a registered wait is read again (R300). -/
def execFenceReread (s : State) : Res :=
  if !(s.procUp 1) ∨ s.aon.mode ≠ .a then .next s
  else
    .next (runAll (fun (u : Queue) (s : State) => match u.wait with
      | some w => if w.remote then s else s.resolveWait u.fn u.q 0x63
      | none => s) s.queues s)

/-- The sensor of a unit (R327). -/
def unitSensor : Engine → Nat
  | .cluster i => i / 2
  | .array i => 24 + i
  | .front i => 33 + i
  | .copy _ => 60

/-- Units ranked by the temperature of their sensors, ties to the lower number (R328). -/
def State.rankBy (s : State) (mk : Nat → Engine) (us : List Nat) : List Nat :=
  sortBy (fun i => (s.weir.temps.getD (unitSensor (mk i)) 0 + 1000).toNat) us

/-- THERMAL_RANK (R328). -/
def execThermalRank (s : State) : Res :=
  if !(s.procUp 2) then .next s
  else
    .next (s.modSluice fun l =>
      { l with rankCl := s.rankBy .cluster s.clustersOn, rankNs := s.rankBy .array s.arraysOn })

/-! ## FENCE_WAIT (R297, R300) -/

/-- The fence packets (R278, R282). -/
def fenceSpec (op : BitVec 8) : OpSpec :=
  { opcode := op, assigned := true, may := mayAny, mailbox := false, job := false, lostOk := false, len := fun _ => 8,
    reserved := fun _ => [(0x06, 15, 0)] }

/-- A fence address that a packet names: aligned, and reachable with the rights (R297). -/
def State.fenceOk (k : CtxKey) (va : Nat) (need : Need) (s : State) : Option Target × State :=
  if va % 16 ≠ 0 then (none, s)
  else
    match s.translate1 .headgate k va need with
    | (.error _, s) => (none, s)
    | (.ok (e, _), s) => if need.w ∧ e.tgt = .peer then (none, s) else (some e.tgt, s)

/-- FENCE_WAIT at its own checks. A wait on a DRAM or RESERVOIR fence is evaluated at once unless the Sluice processor is
down (R373); a remote wait is placed on an engine (R196). -/
def fenceWait (p : Pk) (s : State) : Verdict :=
  match p.key with
  | none => .reply stNotPermitted 0 s
  | some k =>
    let va := p.f 0 47 0
    match s.fenceOk k va needR with
    | (none, s) => .reply stBadParam 0 s
    | (some t, s) =>
      let remote := decide (t = .host) || decide (t = .peer)
      let w : Wait :=
        { origin := p.origin, addr := va, value := BitVec.ofNat 64 (p.f 8 63 0), remote := remote, engine := none,
          lastValue := 0, lastError := 0 }
      if remote ∨ !(s.procUp 1) then .waiting w s
      else
        match s.fenceAt k va needR with
        | (.error f, s) =>
          let (idx, s) := s.fenceFault k va f false 0x63 none p.origin
          .reply stFaulted idx s
        | (.ok (t, pa), s) =>
          let v := s.fenceValue t pa
          let e := s.fenceError t pa
          if w.value.toNat ≤ v.toNat then .replyBy 0x62 stOk 0 v s
          else if e ≠ 0 then .replyBy 0x62 stFenceError e.toNat v s
          else .waiting { w with lastValue := v, lastError := e } s

/-- FENCE_WAIT; a wait that is registered may leave its context blocked, and the deferred ones are retried (R194). -/
def execFenceWait (src : Src) (p : Packet) (s : State) : Res :=
  .next (s.takePacket (fenceSpec 0x32) fenceWait src p).retryDeferred

/-! ## Registers (R200) -/

/-- A read of an SLC_ register. -/
def State.readSlc (s : State) (off : Nat) : Nat :=
  let l := s.sluice
  if off = 0x000 then
    at' (b2n l.armed.isSome) 30 + at' (b2n l.lockLost) 28 + at' (b2n (!(s.procUp 1))) 27 + at' (b2n l.isDefault) 26 +
      at' l.active.lock 24 + l.active.slots.length
  else if off = 0x004 then l.rounds.toNat
  else if off = 0x008 then l.lastUs.toNat
  else if off = 0x00C then
    at' (countIf (fun c => c.resident && s.blocked c) s.ctxs) 8 + countIf (fun c => c.resident) s.ctxs
  else if off = 0x010 then l.evictions.toNat
  else if off = 0x014 then l.switches.toNat
  else if off = 0x018 then at' l.yields.toNat 16 + l.lapsed.toNat
  else 0

end Sys2Proof.Machine
end

