-- ==== Sys2Proof/Machine/Contexts.lean ====
section
/-! DEFINITION. Contexts, queues, fences and the end of jobs as commands (chapters 09 and 10). -/

namespace Sys2Proof.Machine

/-! ## CTX_CREATE (R279, R308) -/

/-- Whether a function address has a defined space code, zero reserved bits and an alignment (R279). -/
def fnAddrOk (fa align : Nat) : Bool := decide (fld fa 63 62 ≤ 1) && decide (fld fa 61 48 = 0) && decide (fld fa 47 0 % align = 0)

/-- Whether a range table area meets R308: it touches no live range table area of the function and no mapped byte of a
range with the W or A right of a live context of the function. -/
def State.rtFree (s : State) (fn : Nat) (rt : BitVec 64) : Bool :=
  (s.rtPieces fn rt).all fun p =>
    !(s.touchesRt fn p.1 p.2 65536) &&
      s.ctxs.all fun c => decide (c.key.fn ≠ fn) || c.ranges.all fun e =>
        !(e.w || e.a) || decide (e.tgt ≠ p.1) || !(spansMeet e.base e.bytes p.2 65536)

/-- A context right after CTX_CREATE. -/
def newCtx (k : CtxKey) (p : Pk) : Ctx :=
  { key := k, prio := p.f 0 18 16, replayable := bitOf (p.f 0 19 19) 0, prot := bitOf (p.f 0 20 20) 0,
    maxClusters := p.f 4 5 0, save := p.f 8 47 0, rt := BitVec.ofNat 64 (p.f 0x10 63 0),
    ring := BitVec.ofNat 64 (p.f 0x18 63 0), ranges := [], st := .active, fseq := 0, lastFseq := 0, episode := none,
    resident := false, lastRun := none, nets := [], nextHandle := 1, saved := [], stored := false, unmaps := [], teardown := none }

/-- The CTX_CREATE packet (R278, R279). -/
def ctxCreateSpec : OpSpec :=
  { opcode := 0x10, assigned := true, may := mayAny, mailbox := true, job := false, lostOk := false, len := fun _ => 12,
    reserved := fun _ => [(0x00, 15, 10), (0x00, 31, 21), (0x04, 31, 6), (0x0E, 15, 0)] }

/-- CTX_CREATE at its own checks, in the order of R279; the range table area is filled with 0xFF (R307). -/
def ctxCreate (p : Pk) (s : State) : Verdict :=
  let k : CtxKey := { fn := p.fn, id := p.f 0 9 0 }
  let rt := p.f 0x10 63 0
  let ring := p.f 0x18 63 0
  let c := newCtx k p
  if (s.ctx? k).isSome then .reply stBadParam 0x00 s
  else if c.prot ∧ p.fn ≠ 0 then .reply stNotPermitted 0 s
  else if c.maxClusters = 0 ∨ 44 < c.maxClusters then .reply stBadParam 0x04 s
  else if c.save % 65536 ≠ 0 then .reply stBadParam 0x08 s
  else if !(fnAddrOk rt 65536) then .reply stBadParam 0x10 s
  else if !(fnAddrOk ring 4096) then .reply stBadParam 0x18 s
  else if !(s.fnAreaOk p.fn c.rt 131072) then .reply stOutsideLevee 0x10 s
  else if !(s.fnAreaOk p.fn c.ring 4096) then .reply stOutsideLevee 0x18 s
  else if !(s.rtFree p.fn c.rt) then .reply stOutsideLevee 0x10 s
  else if 1024 ≤ countIf (fun c => c.key.fn == p.fn) s.ctxs then .reply stNoResource 1 s
  else if 4096 ≤ s.ctxs.length then .reply stNoResource 2 s
  else .reply stOk 0 ({ s with ctxs := s.ctxs ++ [c] }.wrRt k c.rt 0 (List.replicate 131072 0xFF))

def execCtxCreate (src : Src) (p : Packet) (s : State) : Res := .next (s.takePacket ctxCreateSpec ctxCreate src p)

/-! ## Jobs that end (R273) -/

/-- The end of a job's work is written, its frame buffer is freed and waiting runs are tried (R160, R226, R273). -/
def State.finishJob (j : Job) (s : State) : State := ((s.freeBuffer j).endJob j).tryRuns

/-- A queue that is being destroyed and has no started job left is gone, and its QUEUE_DESTROY replies (R280). -/
def State.finishQueue (fn q : Nat) (s : State) : State :=
  match s.queue? fn q with
  | none => s
  | some u =>
    match u.destroying with
    | none => s
    | some o =>
      if (s.startedJobs (.queue fn q)).isEmpty then
        (s.dropQueues fun x => x.fn == fn && x.q == q).replyHg o stOk 0
      else s

/-- The status that a run's record carries for the outcome of its job (R162): what its reply will carry. -/
def State.runStatus (s : State) (j : Job) : Nat :=
  match j.outcome with
  | .complete =>
    if j.fence = 0 then stOk
    else
      match (s.fenceAt j.key j.fence needWA).1 with
      | .ok (t, pa) => if j.value.toNat ≤ (s.fenceValue t pa).toNat then stFenceOrder else stOk
      | .error _ => stFaulted
  | _ => j.lossReply.2.1

/-- The run record of a NET_RUN (R162), written with the job's end. A write that faults is a fault of the context (R156, log
entry 144). -/
def State.writeRunRecord (j : Job) (s : State) : State :=
  match j.run? with
  | none => s
  | some r =>
    if r.result = 0 then s
    else
      let bs := toLE 4 (s.runStatus j + at' (r.attempt % 8) 16) ++ toLE 4 r.executed ++ toLE 4 r.sat ++ toLE 4 0 ++
        toLE 8 r.startStamp.toNat ++ toLE 8 r.endStamp.toNat
      match s.putVa .sluice j.key r.result bs with
      | (some f, s) => s.report (s.readerFault f.1 1 true false 0x63 f.2 none j.origin j.key)
      | (none, s) => s

/-- The end of a job whose work is over: the run record, the fence, the reply, and the QUEUE_DESTROY that waited for it. -/
def State.writeEnd (j : Job) (s : State) : State :=
  let s := (s.writeRunRecord j).finishJob j
  match j.origin.src with
  | .queue fn q => s.finishQueue fn q
  | .mailbox _ => s

/-- JOB_END: Headgate writes the end of a job whose work is over (R273); while it is down the end waits (R373), and while a
reset that ended the job goes on (R379). With the job its context may be blocked, and the deferred ones are retried (R194). -/
def execJobEnd (job : Nat) (s : State) : Res :=
  match s.job? job with
  | none => .next s
  | some j =>
    if j.outcome = .running ∨ !(s.jobIdle job) ∨ !(s.procUp 0) ∨ s.fatal ∨ s.inReset j.key then .next s
    else .next (s.writeEnd j).retryDeferred

/-! ## Queues (R258, R279, R280) -/

/-- Whether a ring of some bytes lies as R258 gives: 4 KiB aligned, inside one range with the right, not cacheable in
HOST. -/
def State.ringOk (k : CtxKey) (va n : Nat) (write : Bool) (s : State) : Bool × State :=
  if va % 4096 ≠ 0 then (false, s)
  else
    match s.lookup .headgate k va with
    | (.error _, s) => (false, s)
    | (.ok e, s) =>
      ((if write then e.w else e.r) && decide (va + n ≤ e.start + e.bytes) && !(decide (e.tgt = .host) && e.cacheable), s)

/-- A queue right after QUEUE_CREATE: indices 0, PHASE 1 (R267, R279). -/
def newQueue (fn : Nat) (p : Pk) : Queue :=
  { fn := fn, q := p.f 0 13 0, ctx := p.f 0 25 16, ringLog2 := p.f 4 4 0, statusLog2 := p.f 4 12 8, vector := p.f 4 23 13,
    irqAll := bitOf (p.f 4 24 24) 0, ringAddr := p.f 8 47 0, statusAddr := p.f 0x10 47 0, write := 0, statusRead := 0,
    read := 0, sw := 0, phase := true, unread := 0, halted := false, destroying := none, held := none, owed := 0,
    deferred := 0, turn := 0, wait := none }

/-- The QUEUE_CREATE packet (R278, R279). -/
def queueCreateSpec : OpSpec :=
  { opcode := 0x12, assigned := true, may := mayAny, mailbox := true, job := false, lostOk := false, len := fun _ => 12,
    reserved := fun _ =>
      [(0x00, 15, 14), (0x00, 31, 26), (0x04, 7, 5), (0x04, 31, 25), (0x0E, 15, 0), (0x16, 15, 0), (0x18, 63, 0)] }

/-- QUEUE_CREATE at its own checks, in the order of R279. -/
def queueCreate (p : Pk) (s : State) : Verdict :=
  let u := newQueue p.fn p
  match s.named p u.ctx 0x02 false with
  | .error (st, d) => .reply st d s
  | .ok c =>
    if (s.queue? p.fn u.q).isSome then .reply stBadParam 0x00 s
    else if u.ringLog2 < 8 ∨ 20 < u.ringLog2 ∨ u.statusLog2 < 6 ∨ 16 < u.statusLog2 then .reply stBadParam 0x04 s
    else
      match s.ringOk c.key u.ringAddr (16 * 2 ^ u.ringLog2) false with
      | (false, s) => .reply stBadParam 0x08 s
      | (true, s) =>
        match s.ringOk c.key u.statusAddr (32 * 2 ^ u.statusLog2) true with
        | (false, s) => .reply stBadParam 0x10 s
        | (true, s) =>
          if 16 ≤ (s.queuesOf c.key).length then .reply stNoResource 3 s
          else .reply stOk 0 { s with queues := s.queues ++ [u] }

def execQueueCreate (src : Src) (p : Packet) (s : State) : Res := .next (s.takePacket queueCreateSpec queueCreate src p)

/-- The armed runs of a queue are disarmed: each fence takes CAUSE 5, without a reply (R280, R296). -/
def State.disarmQueue (fn q : Nat) (s : State) : State :=
  runAll (fun (j : Job) (s : State) =>
    if j.armed then
      let s := s.setError j.key j.fence 5 (some j.id) j.origin
      { s with jobs := s.jobs.filter fun x => x.id != j.id }
    else s) (s.startedJobs (.queue fn q)) s

/-- The QUEUE_DESTROY packet (R278, R280). -/
def queueDestroySpec : OpSpec :=
  { opcode := 0x13, assigned := true, may := mayAny, mailbox := true, job := false, lostOk := true, len := fun _ => 8,
    reserved := fun _ => [(0x00, 31, 14), (0x04, 95, 0)] }

/-- Whether a packet comes from a queue. -/
def Pk.fromQueue (p : Pk) (q : Nat) : Bool := decide (p.src = .queue p.fn q)

/-- QUEUE_DESTROY at its own checks: the doorbell, the untaken packets and a held packet are dropped, armed runs are
disarmed; the reply follows the last started job (R280). -/
def queueDestroy (p : Pk) (s : State) : Verdict :=
  let q := p.f 0 13 0
  match s.queue? p.fn q with
  | none => .reply stBadParam 0x00 s
  | some u =>
    let dying : Bool := match s.ctx? { fn := p.fn, id := u.ctx } with
      | some c => decide (c.st = .destroying)
      | none => false
    if p.fromQueue q then .reply stBadParam 0x00 s
    else if u.destroying.isSome ∨ dying then .reply stNotPermitted 0 s
    else
      let s := (s.unlist p.fn q).dropWaitEntries p.fn q
      let s := s.modQueue p.fn q fun u =>
        { u with destroying := some p.origin, write := u.read, held := none, wait := none }
      .owed ((s.disarmQueue p.fn q).finishQueue p.fn q)

def execQueueDestroy (src : Src) (p : Packet) (s : State) : Res := .next (s.takePacket queueDestroySpec queueDestroy src p)

/-! ## CTX_DESTROY and its teardown (R302, R303) -/

/-- The fence of a job packet held at the head of a queue (R277). -/
def Held.fence (h : Held) : Option Nat :=
  if [0x40, 0x41, 0x43, 0x45].contains h.opcode.toNat then some (ofLE ((packetBytes h.pkt).take 6)) else none

/-- The fences to which CAUSE 6 is owed: those of held job packets and of the jobs that end without a reply (R302, steps
1 and 2). -/
def State.destroyFences (s : State) (k : CtxKey) : List (Nat × Nat) :=
  ((s.queuesOf k).filterMap fun u => u.held.bind Held.fence).map (fun f => (f, 6)) ++
    (s.jobs.filter fun j => decide (j.key = k) && decide (j.outcome = .running)).map fun j => (j.fence, 6)

/-- Whether the accesses of a context have completed (R302 step 3). -/
def State.ctxQuiet (s : State) (k : CtxKey) : Bool :=
  s.flight.all (fun a => decide (a.key ≠ k)) && !(s.sluice.reports.any fun r => decide (r.key = k)) &&
    s.copies.all (fun e => e.chunk.isNone || decide (e.core.holder ≠ some k)) &&
    s.pcie.reqs.all fun r => match r.owner with
      | .group c _ => match s.clusters[c]? with
        | some x => decide (x.core.holder ≠ some k)
        | none => true
      | _ => true

/-- Step 4 of R302 begins: the layers and bindings of the context are withdrawn. -/
def State.withdrawCtx (k : CtxKey) (s : State) : State :=
  (s.withdrawAll (fun l => decide (l.key = some k)) (fun b => decide (b.key = k))).modCtx k fun c =>
    { c with teardown := c.teardown.map fun t => { t with withdrawn := true } }

/-- Whether step 3 of R302 is over: no access of the context is outstanding, and no RANGE_UNMAP of it waits (R303). -/
def State.stepThreeOver (s : State) (k : CtxKey) : Bool :=
  s.ctxQuiet k && (s.ctx? k).elim true fun c => c.unmaps.isEmpty

/-- Steps 1 and 2 of R302: the context is DESTROYING, its packets and jobs are gone. Jobs whose work was already over end as
they are (R273). With nothing outstanding step 4 begins at once. -/
def State.beginTeardown (k : CtxKey) (o : Origin) (s : State) : State :=
  let fences := s.destroyFences k
  let s := runAll (fun (j : Job) (s : State) => if j.key = k ∧ j.outcome ≠ .running then (s.writeRunRecord j).finishJob j else s) s.jobs s
  let s := runAll (fun (u : Queue) (s : State) =>
    ((s.unlist u.fn u.q).dropWaitEntries u.fn u.q).modQueue u.fn u.q fun u =>
      { u with write := u.read, held := none, wait := none }) (s.queuesOf k) s
  let gone := s.jobs.filter fun j => decide (j.key = k)
  let s := runAll State.freeBuffer gone s
  let s := s.endWork k
  let s := { s with jobs := s.jobs.filter fun j => decide (j.key ≠ k) }
  let s := s.modCtx k fun c =>
    { c with
      st := .destroying
      episode := c.episode.map fun e => { e with waiting := false }
      teardown := some
        { origin := o, fences := fences, epochs := [], withdrawn := false, drained := false, flushTag := none, escalated := none } }
  if s.stepThreeOver k then s.withdrawCtx k else s

/-- The CTX_DESTROY packet (R278, R282). -/
def ctxDestroySpec : OpSpec :=
  { opcode := 0x11, assigned := true, may := mayAny, mailbox := true, job := false, lostOk := true, len := fun _ => 8,
    reserved := fun _ => [(0x00, 31, 10), (0x04, 95, 0)] }

/-- CTX_DESTROY at its own checks (R280, R288, R302). -/
def ctxDestroy (p : Pk) (s : State) : Verdict :=
  let id := p.f 0 9 0
  match s.named p id 0x00 true with
  | .error (st, d) => .reply st d s
  | .ok c => if p.key = some c.key then .reply stBadParam 0x00 s else .owed (s.beginTeardown c.key p.origin)

def execCtxDestroy (src : Src) (p : Packet) (s : State) : Res := .next (s.takePacket ctxDestroySpec ctxDestroy src p)

/-- Steps 7 and 8 of R302: the context, its queues and its slots are gone, and CTX_DESTROY replies. -/
def State.endTeardown (k : CtxKey) (t : Teardown) (s : State) : State :=
  let s := (s.endEpisode k).disown k
  let s := runAll (fun w (s : State) => s.setRangeCache w ((s.rangeCache w).filter fun x => decide (x.key ≠ k))) s.walkers s
  let s := { s with
    copies := s.copies.map fun (e : CopyEngine) => { e with core := e.core.leave k }
    ctxs := s.ctxs.filter fun c => decide (c.key ≠ k) }
  let s := s.dropQueues fun u => u.fn == k.fn && u.ctx == k.id
  let s := s.retryDeferred
  match t.escalated with
  | none => s.replyHg t.origin stOk 0
  | some d => s.replyHg t.origin stResetEscalated d

/-- TEARDOWN_DRAINED: with step 3 over step 4 begins; with nothing shown any more the fence errors are written (step 5) and the
flush read is issued (step 6). With the link down the read has nothing to wait for. -/
def execTeardownDrained (fn ctx : Nat) (s : State) : Res :=
  let k : CtxKey := { fn := fn, id := ctx }
  match s.ctx? k with
  | none => .next s
  | some c =>
    match c.teardown with
    | none => .next s
    | some t =>
      if t.drained ∨ !(s.procUp 0) ∨ !(s.stepThreeOver k) then .next s
      else
        let s := if t.withdrawn then s else s.withdrawCtx k
        if s.stillShown (fun l => decide (l.key = some k)) (fun b => decide (b.key = k)) then .next s
        else
          let s := runAll (fun (f : Nat × Nat) (s : State) => s.setError k f.1 f.2 none t.origin) t.fences s
          if !s.pcie.linkUp then .next (s.endTeardown k t)
          else
            let (tag, s) := s.issueRead fn (.teardown k) 0 0
            .next (s.modCtx k fun c =>
              { c with teardown := c.teardown.map fun t => { t with drained := true, flushTag := some tag } })

/-- A group that waited for a flush read runs on. -/
def Group.unflush (g : Group) : Group :=
  match g.st with
  | .flush _ => { g with st := .running }
  | _ => g

/-- A group's ORDER.SYSTEM is over: its flush read has completed (R91, R413). -/
def State.groupFlushed (c g : Nat) (s : State) : State :=
  s.modCluster c fun cl => { cl with groups := cl.groups.map fun x => if x.slot = g then x.unflush else x }

/-- A flush read has completed (R302 step 6, R312 step 5, R413). -/
def State.flushed (r : NpReq) (s : State) : State :=
  let s := s.dropReqs fun x => x.tag == r.tag
  match r.owner with
  | .teardown k => match (s.ctx? k).bind (·.teardown) with
    | some t => s.endTeardown k t
    | none => s
  | .unmap k => match (s.ctx? k).bind fun c => c.unmaps.find? fun u => decide (u.flushTag = some r.tag) with
    | some u => s.finishUnmap k u
    | none => s
  | .order c g => s.groupFlushed c g
  | _ => s

/-- Whether a request is a flush read. -/
def ReqOwner.isFlush : ReqOwner → Bool
  | .teardown _ => true
  | .unmap _ => true
  | .order _ _ => true
  | _ => false

/-- FLUSH_READ_COMPLETE (R413). -/
def execFlushReadComplete (tag : Nat) (s : State) : Res :=
  match s.pcie.reqs.find? fun r => r.tag == tag && r.owner.isFlush && r.issued with
  | none => .next s
  | some r => .next (s.flushed r)

/-! ## Fences (R297 to R299) -/

/-- FENCE_INIT at its own checks. -/
def fenceInitOp (p : Pk) (s : State) : Verdict :=
  match p.key with
  | none => .reply stNotPermitted 0 s
  | some k =>
    let va := p.f 0 47 0
    match s.fenceOk k va needWA with
    | (none, s) => .reply stBadParam 0 s
    | (some _, s) =>
      match s.fenceInit k va (BitVec.ofNat 64 (p.f 8 63 0)) with
      | (.failed f, s) =>
        let (idx, s) := s.fenceFault k va f true 0x62 none p.origin
        .reply stFaulted idx s
      | (_, s) => .reply stOk 0 s

def execFenceInit (src : Src) (p : Packet) (s : State) : Res := .next (s.takePacket (fenceSpec 0x30) fenceInitOp src p)

/-- FENCE_SIGNAL at its own checks; its reply carries the value given (R267, R299). -/
def fenceSignalOp (p : Pk) (s : State) : Verdict :=
  match p.key with
  | none => .reply stNotPermitted 0 s
  | some k =>
    let va := p.f 0 47 0
    let v := BitVec.ofNat 64 (p.f 8 63 0)
    match s.fenceOk k va needWA with
    | (none, s) => .replyBy 0x62 stBadParam 0 v s
    | (some _, s) =>
      match s.signal k va v with
      | (.done, s) => .replyBy 0x62 stOk 0 v s
      | (.order cur, s) => .replyBy 0x62 stFenceOrder (cur.toNat % 2 ^ 32) v s
      | (.failed f, s) =>
        let (idx, s) := s.fenceFault k va f true 0x62 none p.origin
        .replyBy 0x62 stFaulted idx v s

def execFenceSignal (src : Src) (p : Packet) (s : State) : Res :=
  .next (s.takePacket (fenceSpec 0x31) fenceSignalOp src p)

/-! ## NOP and unassigned opcodes (R266, R278) -/

/-- The NOP packet: any length, any parameters. -/
def nopSpec : OpSpec :=
  { opcode := 0x7F, assigned := true, may := mayAny, mailbox := true, job := false, lostOk := true,
    len := fun p => p.bytes.length / 4 + 4, reserved := fun _ => [] }

def execNop (src : Src) (p : Packet) (s : State) : Res := .next (s.takePacket nopSpec (fun _ s => okReply s) src p)

/-- The assigned opcodes (R278). -/
def assignedOpcodes : List Nat :=
  [0x01, 0x02, 0x03, 0x04, 0x05, 0x06, 0x07, 0x10, 0x11, 0x12, 0x13, 0x14, 0x20, 0x21, 0x22, 0x30, 0x31, 0x32, 0x40, 0x41,
   0x42, 0x43, 0x44, 0x45, 0x50, 0x51, 0x52, 0x53, 0x60, 0x61, 0x62, 0x63, 0x70, 0x71, 0x72, 0x7F]

/-- A packet of an unassigned opcode (R266 step 5). -/
def unassignedSpec (op : BitVec 8) : OpSpec :=
  { opcode := op, assigned := false, may := mayAny, mailbox := true, job := false, lostOk := true,
    len := fun p => p.bytes.length / 4 + 4, reserved := fun _ => [] }

/-- UNASSIGNED_OPCODE; an opcode that the table assigns is another command. -/
def execUnassignedOpcode (src : Src) (op : BitVec 8) (p : Packet) (s : State) : Res :=
  if assignedOpcodes.contains op.toNat then .next s
  else .next (s.takePacket (unassignedSpec op) (fun _ s => okReply s) src p)

end Sys2Proof.Machine
end

