-- ==== Sys2Proof/Machine/Copy.lean ====
section
/-! DEFINITION. The copy engines and the submission of jobs (R277, R281, R318 to R321). -/

namespace Sys2Proof.Machine

/-! ## Submitting a job -/

/-- A job's FENCE_ADDR: 0, or a fence that the context may signal (R277, R297). -/
def State.jobFenceOk (k : CtxKey) (p : Pk) (s : State) : Bool × State :=
  if p.fence = 0 then (true, s)
  else
    match s.fenceOk k p.fence needWA with
    | (none, s) => (false, s)
    | (some _, s) => (true, s)

/-! ## The copy descriptor (R318, R319) -/

/-- A copy descriptor read from its 64 bytes. -/
def parseCopy (bs : List Byte) : CopyDesc :=
  let v := ofLE bs
  { src := fld v 47 0, dst := fld v 111 64, kind := fld v 130 128, elemLog2 := fld v 134 132, xBytes := fld v 191 160,
    yRows := fld v 223 192, zSlices := fld v 239 224, srcPitch := fld v 287 256, dstPitch := fld v 319 288,
    srcSlice := fld v 367 320, dstSlice := fld v 431 384, fill := BitVec.ofNat 32 (fld v 479 448) }

/-- Whether a copy's kind has a block side (R318). -/
def CopyDesc.block (d : CopyDesc) : Bool := d.kind == 2 || d.kind == 3

/-- The bytes of an element on the block side. -/
def CopyDesc.elem (d : CopyDesc) : Nat := 2 ^ d.elemLog2

/-- The region's origin on the block side. -/
def CopyDesc.x0 (d : CopyDesc) : Nat := fld d.fill.toNat 15 0
def CopyDesc.y0 (d : CopyDesc) : Nat := fld d.fill.toNat 31 16

/-- The offset in the descriptor of the first field that breaks the rules of R318 and R319, in ascending offset. -/
def copyBad (bs : List Byte) (d : CopyDesc) : Option Nat :=
  let v := ofLE bs
  let inLevel := fun (pitch : Nat) => decide (d.x0 + d.xBytes / d.elem ≤ pitch)
  if d.kind = 3 ∧ d.src % 4096 ≠ 0 then some 0x00
  else if fld v 63 48 ≠ 0 then some 0x06
  else if (d.kind = 2 ∧ d.dst % 4096 ≠ 0) ∨ (d.kind = 4 ∧ d.dst % 4 ≠ 0) then some 0x08
  else if fld v 127 112 ≠ 0 then some 0x0E
  else if 4 < d.kind then some 0x10
  else if fld v 131 131 ≠ 0 ∨ fld v 159 135 ≠ 0 then some 0x10
  else if (if d.block then decide (4 < d.elemLog2) else decide (d.elemLog2 ≠ 0)) then some 0x10
  else if d.xBytes = 0 ∨ (d.kind = 4 ∧ d.xBytes % 4 ≠ 0) ∨ (d.block ∧ d.xBytes % d.elem ≠ 0) then some 0x14
  else if d.yRows = 0 then some 0x18
  else if d.zSlices = 0 then some 0x1C
  else if fld v 255 240 ≠ 0 then some 0x1E
  else if (d.kind = 0 ∧ d.srcPitch ≠ 0) ∨ (d.kind = 3 ∧ !(inLevel d.srcPitch)) then some 0x20
  else if (d.kind = 0 ∧ d.dstPitch ≠ 0) ∨ (d.kind = 2 ∧ !(inLevel d.dstPitch)) ∨ (d.kind = 4 ∧ d.dstPitch % 4 ≠ 0) then some 0x24
  else if (d.kind = 0 ∧ d.srcSlice ≠ 0) ∨ (d.kind = 3 ∧ d.srcSlice % 4096 ≠ 0) then some 0x28
  else if fld v 383 368 ≠ 0 then some 0x2E
  else if (d.kind = 0 ∧ d.dstSlice ≠ 0) ∨ (d.kind = 2 ∧ d.dstSlice % 4096 ≠ 0) then some 0x30
  else if fld v 447 432 ≠ 0 then some 0x36
  else if fld v 511 480 ≠ 0 then some 0x3C
  else none

/-- The bytes that a copy writes. -/
def CopyDesc.bytes (d : CopyDesc) : Nat := d.xBytes * d.yRows * d.zSlices

/-- The chunks of a copy (R320). -/
def CopyDesc.chunks (d : CopyDesc) : Nat := ceilDiv d.bytes 65536

/-- The address of byte x of row r of slice z on a row-major side. -/
def rowAddr (base slice pitch z r x : Nat) : Nat := base + z * slice + r * pitch + x

/-- The address of byte x of row r of slice z on the block side (R319). -/
def CopyDesc.blockAddr (d : CopyDesc) (base slice pitch z r x : Nat) : Nat :=
  base + z * slice + blockOffset d.elem pitch (d.x0 + x / d.elem) (d.y0 + r) + x % d.elem

/-- Source and destination addresses of destination byte i of the copy. -/
def CopyDesc.place (d : CopyDesc) (i : Nat) : Nat × Nat :=
  if d.kind = 0 then (d.src + i, d.dst + i)
  else
    let z := i / (d.xBytes * d.yRows)
    let r := i / d.xBytes % d.yRows
    let x := i % d.xBytes
    let srcRow := rowAddr d.src d.srcSlice d.srcPitch z r x
    let dstRow := rowAddr d.dst d.dstSlice d.dstPitch z r x
    if d.kind = 2 then (srcRow, d.blockAddr d.dst d.dstSlice d.dstPitch z r x)
    else if d.kind = 3 then (d.blockAddr d.src d.srcSlice d.srcPitch z r x, dstRow)
    else (srcRow, dstRow)

/-- How many bytes from byte i on lie together on both sides. -/
def CopyDesc.together (d : CopyDesc) (i : Nat) : Nat :=
  if d.kind = 0 then d.bytes - i
  else if d.block then d.elem - i % d.xBytes % d.elem
  else d.xBytes - i % d.xBytes

/-- A piece of a chunk: source address, destination address, length, and the place of its first byte in the copy. -/
structure Segment where
  src : Nat
  dst : Nat
  len : Nat
  pos : Nat
deriving DecidableEq, Repr

/-- The segments from byte i to byte e of a copy; the fuel bounds their number. -/
def CopyDesc.segmentsFrom (d : CopyDesc) : Nat → Nat → Nat → List Segment
  | 0, _, _ => []
  | fuel + 1, i, e =>
    if e ≤ i then []
    else
      let n := max 1 (min (d.together i) (e - i))
      let (a, b) := d.place i
      { src := a, dst := b, len := n, pos := i } :: d.segmentsFrom fuel (i + n) e

/-- The segments of chunk k (R320). -/
def CopyDesc.segments (d : CopyDesc) (k : Nat) : List Segment :=
  let e := min d.bytes (65536 * (k + 1))
  d.segmentsFrom (e - 65536 * k) (65536 * k) e

/-- The lowest start of some spans. -/
def minStart : List (Nat × Nat) → Nat
  | [] => 0
  | [x] => x.1
  | x :: y :: rest => min x.1 (minStart (y :: rest))

/-- Whether source and destination of a copy overlap: the result is then not defined (R318). Row-major sides are compared
row by row, a block side slice by slice. -/
def CopyDesc.overlaps (d : CopyDesc) : Bool :=
  if d.kind = 4 then false
  else if d.kind = 0 then spansMeet d.src d.bytes d.dst d.bytes
  else
    let rows := fun (base slice pitch : Nat) => (List.range d.zSlices).flatMap fun z =>
      (List.range d.yRows).map fun r => (rowAddr base slice pitch z r 0, d.xBytes)
    let blocks := fun (base slice pitch : Nat) => (List.range d.zSlices).map fun z =>
      (base + z * slice, levelBytes d.elem pitch (d.y0 + d.yRows))
    let a := if d.kind = 3 then blocks d.src d.srcSlice d.srcPitch else rows d.src d.srcSlice d.srcPitch
    let b := if d.kind = 2 then blocks d.dst d.dstSlice d.dstPitch else rows d.dst d.dstSlice d.dstPitch
    let extent := fun (l : List (Nat × Nat)) => (minStart l, l.foldl (fun m x => max m (x.1 + x.2)) 0 - minStart l)
    spansMeet (extent a).1 (extent a).2 (extent b).1 (extent b).2 && a.any fun x => b.any fun y => spansMeet x.1 x.2 y.1 y.2

/-! ## COPY -/

/-- The packets that carry a job block and name a descriptor at 0x10 (R282). -/
def jobSpec (op : BitVec 8) : OpSpec :=
  { opcode := op, assigned := true, may := mayAny, mailbox := false, job := true, lostOk := false, len := fun _ => 12,
    reserved := fun _ => [(0x06, 15, 0), (0x16, 15, 0), (0x18, 63, 0)] }

/-- COPY at its own checks (R297, R318, R414): the descriptor is kept with the job. -/
def copyOp (p : Pk) (s : State) : Verdict :=
  match p.key with
  | none => .reply stNotPermitted 0 s
  | some k =>
    match s.jobFenceOk k p with
    | (false, s) => .reply stBadParam 0x00 s
    | (true, s) =>
      match s.readNamed p (p.f 0x10 47 0) 64 64 with
      | (none, s) => .reply stBadParam 0x10 s
      | (some bs, s) =>
        let d := parseCopy bs
        match copyBad bs d with
        | some o => .reply stBadParam (0x100 + o) s
        | none =>
          let (id, s) := s.startJob p k (.copy d 0 d.chunks)
          .owed (s.addReady [{ job := id, kind := .copyJob }])

def execCopy (src : Src) (p : Packet) (s : State) : Res := .next (s.takePacket (jobSpec 0x45) copyOp src p)

/-! ## Chunks (R320) -/

/-- The work at the head of an engine's ring that its holder may run now: no fault of the job waits to be
recorded. -/
def State.headWork (s : State) (e : Engine) : Option (Work × CtxKey) :=
  match s.engine? e with
  | none => none
  | some c =>
    match c.ring with
    | .work w k :: _ =>
      if c.sw.isNone ∧ decide (c.holder = some k) ∧ s.runsCtx k ∧ s.mayRun k w ∧ s.islandUp (engineIsland e) ∧
          !(s.sluice.reports.any fun r => decide (r.job = some w.job)) then some (w, k) else none
    | _ => none

/-- A fault of a copy engine, reported to Sluice (R289, R320). -/
def State.copyFault (i : Nat) (j : Job) (kind : FaultKind) (write : Bool) (va chunk : Nat) (s : State) : State :=
  let e := Engine.copy i
  (s.modCopy i fun c => { c with chunk := none, dest := [], orphan := none, core := { c.core with busy := false } }).report
    { kind := kind, source := 3, write := write, atomic := false, island := engineIsland e, address := va,
      loc := 65536 * chunk, lanes := 0, job := some j.id, origin := j.origin, key := j.key, restart := false,
      stamp := s.count (engineIsland e) }

/-- The translations of a chunk, made at its start: for each segment its source pieces and its destination pieces, or the
fault of the first that fails. -/
def translateSegments (e : Engine) (k : CtxKey) (fill : Bool) : List Segment → State →
    Except (FaultKind × Bool × Nat) (List (Segment × List Piece × List Piece)) × State
  | [], s => (.ok [], s)
  | g :: rest, s =>
    match (if fill then (.ok [], s) else s.translate (.engine e) k g.src g.len needR) with
    | (.error f, s) => (.error (f.1, false, f.2), s)
    | (.ok a, s) =>
      match s.translate (.engine e) k g.dst g.len needW with
      | (.error f, s) => (.error (f.1, true, f.2), s)
      | (.ok b, s) =>
        match translateSegments e k fill rest s with
        | (.ok xs, s) => (.ok ((g, a, b) :: xs), s)
        | (.error f, s) => (.error f, s)

/-- The pattern bytes of FILL for a segment of a row. -/
def fillBytes (d : CopyDesc) (g : Segment) : List Byte :=
  (List.range g.len).map fun j => (toLE 4 d.fill.toNat).getD ((g.pos % d.xBytes + j) % 4) 0

/-- The bytes of one segment, read or made. -/
def segmentData (d : CopyDesc) (k : CtxKey) (g : Segment) (a : List Piece) (s : State) :
    Except (FaultKind × Nat) (List Byte) × State :=
  if d.kind = 4 then (.ok (fillBytes d g), s) else readPieces k.fn a s

/-- The data of a chunk moved, segment by segment; the first fault of a read or a write. -/
def moveSegments (d : CopyDesc) (k : CtxKey) : List (Segment × List Piece × List Piece) → State →
    Option (FaultKind × Bool × Nat) × State
  | [], s => (none, s)
  | (g, a, b) :: rest, s =>
    match segmentData d k g a s with
    | (.error f, s) => (some (f.1, false, f.2), s)
    | (.ok bs, s) =>
      match writePieces k.fn b bs s with
      | (some f, s) => (some (f.1, true, f.2), s)
      | (none, s) => moveSegments d k rest s

/-- The destination bytes of a chunk given free values: their content is undefined (R318, R320). -/
def State.undefineDest (ps : List (Target × Nat × Nat)) (s : State) : State :=
  let (v, s) := s.fresh
  (ps.foldl (fun (acc : Nat × State) p =>
    (acc.1 + p.2.2, acc.2.wr' p.1 p.2.1 ((List.range p.2.2).map fun i => Config.chunkByte v (acc.1 + i)))) (0, s)).2

/-- The accesses of a segment in flight: its writes, and its reads across the link, whose data the model takes at once (log
entry 153). -/
def State.segmentFlight (e : Nat) (k : CtxKey) (a b : List Piece) (s : State) : State :=
  let put := fun (write : Bool) (s : State) (p : Piece) => s.inFlight (.engine (.copy e)) k p.tgt p.va write
  b.foldl (put true) ((a.filter fun p => overLink [p]).foldl (put false) s)

/-- The waits on fences in the destination of a chunk are evaluated (R300). -/
def State.destWritten (ps : List (Target × Nat × Nat)) (s : State) : State :=
  runAll (fun (p : Target × Nat × Nat) (s : State) => s.spanWritten p.1 p.2.1 p.2.2) ps s

/-- COPY_CHUNK: an engine starts the next chunk of the copy at the head of its ring. -/
def execCopyChunk (e : Nat) (s : State) : Res :=
  match s.headWork (.copy e), s.copies[e]? with
  | some (w, k), some c =>
    if c.chunk.isSome then .next s
    else
      match s.job? w.job with
      | none => .next s
      | some j =>
        match j.kind with
        | .copy d next _ =>
          let s := s.modCopy e fun c => { c with job := some j.id, core := { c.core with busy := true, armed := c.core.armed && decide (next ≠ 0) } }
          match translateSegments (.copy e) k (d.kind == 4) (d.segments next) s with
          | (.error (f, wr, va), s) => .next (s.copyFault e j f wr va next)
          | (.ok xs, s) =>
            let dest := xs.flatMap fun x => x.2.2.map fun p => (p.tgt, p.pa, p.len)
            match moveSegments d k xs s with
            | (some (f, wr, va), s) => .next (((s.undefineDest dest).copyFault e j f wr va next).destWritten dest)
            | (none, s) =>
              let s := if d.overlaps then s.undefineDest dest else s
              let s := s.modCopy e fun c => { c with chunk := some next, dest := dest }
              .next ((xs.foldl (fun s x => s.segmentFlight e k x.2.1 x.2.2) s).destWritten dest)
        | _ => .next s
  | _, _ => .next s

/-- A unit of an engine has ended (R173, R188): its context ran last now. -/
def State.endUnit (e : Engine) (k : CtxKey) (s : State) : State :=
  (s.modEngine e fun c => { c with busy := false }).modCtx k fun c => { c with lastRun := some s.now }

/-- The entry at the head of an engine's ring retires (R376). -/
def State.retire (e : Engine) (k : CtxKey) (s : State) : State :=
  s.modEngine e fun c =>
    { c with ring := c.ring.drop 1, retired := c.retired + 1, retiredBy := modNth (fun n => n + 1) k.fn c.retiredBy }

/-- The access of an engine's chunk that an error ends: across the link where one is, unless its target was reset; else the
first that the chunk issued (log entry 153). -/
def State.chunkAccess (s : State) (e : Nat) (how : AccessEnd) : Option Access :=
  let mine := s.flight.reverse.filter fun a => decide (a.who = .engine (.copy e))
  if how = .targetReset then mine.head?
  else (mine.find? fun a => decide (a.tgt = .host) || decide (a.tgt = .peer)).or mine.head?

/-- The end of an engine's chunk: every access of it has completed, or one, given, ended in an error (R320, R321). -/
def chunkEnd (e : Nat) (how : AccessEnd) (acc : Option Access) (s : State) : Res :=
  match s.copies[e]? with
  | none => .next s
  | some c =>
    match c.chunk with
    | none => .next s
    | some k =>
      if s.neverEnds (c.core.holder.elim 4 (·.fn)) how then .next s else
      let me := Requester.engine (.copy e)
      let s := { s with flight := s.flight.filter fun a => decide (a.who ≠ me) }
      let holder := c.core.holder
      match c.job.bind s.job? with
      | none =>
        let s := s.modCopy e fun c => { c with chunk := none, dest := [], job := none, orphan := none, core := { c.core with busy := false } }
        let s := match c.orphan with
          | some t =>
            (s.logEnd t.key.fn how).orphanFault
              (some (acc.elim t fun a => { t with address := a.va, write := a.write })) (faultOf how)
          | none => s
        .next (match holder with
          | some h => (s.ctx? h).elim (s.setHolder (.copy e) none) fun _ => s
          | none => s)
      | some j =>
        match faultOf how, j.kind with
        | some f, .copy d _ _ =>
          let s := s.logEnd j.key.fn how
          let (wr, va) := acc.elim (false, (d.place (65536 * k)).1) fun a => (a.write, a.va)
          .next (((s.undefineDest c.dest).copyFault e j f wr va k).destWritten c.dest)
        | _, .copy d _ total =>
          let s := s.modCopy e fun c => { c with chunk := none, dest := [], orphan := none, core := { c.core with work := c.core.work + 1 } }
          let s := s.modJob j.id fun j => { j with kind := .copy d (k + 1) total }
          let s := s.endUnit (.copy e) j.key
          if k + 1 < total ∧ j.outcome = .running then .next s
          else
            let s := s.modCopy e fun c => { c with job := none }
            let s := if j.outcome = .running then s.retire (.copy e) j.key else s.modEngine (.copy e) (EngineCore.leave j.key)
            .next (if j.outcome = .running then s.completeJob j.id (.copy e) else s)
        | _, _ => .next s

/-- COPY_CHUNK_DONE (R320, R321). -/
def execCopyChunkDone (e : Nat) (how : AccessEnd) (s : State) : Res := chunkEnd e how (s.chunkAccess e how) s

end Sys2Proof.Machine
end

