-- ==== Sys2Proof/Machine/Flags.lean ====
section
/-! DEFINITION. Predicates: the lanes that an instruction executes in, predicate registers as masks of 32 lanes, and how
an instruction writes them (R71, R76, R101). The predicate registers are this hardware's flags. -/

namespace Sys2Proof.Machine

/-- The 32 lanes of a group. -/
def laneIds : List Nat := List.range 32

/-- The lanes of a mask, in ascending order. -/
def lanesOf (m : Word) : List Nat := laneIds.filter fun l => m.toNat.testBit l

/-- The mask of some lanes. -/
def maskOf (ls : List Nat) : Word := BitVec.ofNat 32 (sumN (ls.map fun l => 2 ^ l))

/-- The mask of a test on lanes. -/
def maskBy (f : Nat → Bool) : Word := maskOf (laneIds.filter f)

/-- A predicate register of a group; P0 is all ones (R75). -/
def Group.pred (g : Group) (n : Nat) : Word := if n = 0 then 0xFFFFFFFF else g.p.getD n 0

/-- The lanes in which an instruction executes (R76): the predicate that PG names, inverted by PN. -/
def Group.active (g : Group) (w : HWord) : Word :=
  let m := g.pred w.pg.toNat
  if w.pn then ~~~m else m

/-- A predicate register written in the lanes of a mask; the others keep their bits (R76). P0 cannot be written (R75). -/
def Group.putPred (g : Group) (n : Nat) (act v : Word) : Group :=
  if n = 0 then g else { g with p := modNth (fun old => (old &&& ~~~act) ||| (v &&& act)) n g.p }

/-- The value that a compare writes: its result, ANDed with the old value when MOD [4] is 1 (R101). -/
def Group.compared (g : Group) (w : HWord) (n : Nat) (v : Word) : Word :=
  if bitOf w.mode.toNat 4 then g.pred n &&& v else v

/-- A compare code of R101 on two integers. -/
def iCompare (cond : Nat) (a b : Int) : Bool :=
  match cond with
  | 0 => decide (a = b)
  | 1 => decide (a ≠ b)
  | 2 => decide (a < b)
  | 3 => decide (a ≤ b)
  | 4 => decide (b < a)
  | _ => decide (b ≤ a)

end Sys2Proof.Machine
end

