-- ==== Sys2Proof/Machine/Operands.lean ====
section
/-! DEFINITION. The operands of a Heith instruction: which encodings are legal, how a source is read and a destination
written (R78, R98 to R101, R103). -/

namespace Sys2Proof.Machine

/-! ## What an opcode asks of its fields -/

/-- The kinds of source that an opcode takes. -/
inductive SrcKind where
  | unused | any | pred | vector | scalar | vectorOrScalar
deriving DecidableEq, Repr

/-- A source: its kinds, how many registers it occupies, and to what number its first register is aligned. -/
structure SrcUse where
  kind  : SrcKind
  regs  : Nat
  align : Nat
deriving DecidableEq, Repr

def srcNone : SrcUse := { kind := .unused, regs := 1, align := 1 }
def src32 : SrcUse := { kind := .any, regs := 1, align := 1 }
def src64 : SrcUse := { kind := .any, regs := 2, align := 2 }
def srcPred : SrcUse := { kind := .pred, regs := 1, align := 1 }

/-- What an extension word may hold in an instruction that gives it a fixed meaning (R100). -/
inductive ExtUse where
  | free | offset32 | offset16 | branch
deriving DecidableEq, Repr

/-- What an opcode asks of its fields: destination kinds (0 vector, 1 scalar, 2 predicate, 3 none), values of MOD,
sources, registers of the destination and their alignment, the extension word, and whether the opcode runs on the scalar
unit when DK is scalar (R103). -/
structure Shape where
  dks    : List Nat
  mod    : Nat → Bool
  s0     : SrcUse
  s1     : SrcUse
  s2     : SrcUse
  dregs  : Nat
  dalign : Nat
  ext    : ExtUse
  intOp  : Bool

/-- The shape of an opcode without operands. -/
def shape0 : Shape :=
  { dks := [3], mod := fun m => m == 0, s0 := srcNone, s1 := srcNone, s2 := srcNone, dregs := 1, dalign := 1, ext := .free,
    intOp := false }

/-- The kind, number and use of each source of a word. -/
def sources (sh : Shape) (w : HWord) : List (SrcUse × Nat × Nat) :=
  [(sh.s0, w.k0.toNat, w.src0.toNat), (sh.s1, w.k1.toNat, w.src1.toNat), (sh.s2, w.k2.toNat, w.src2.toNat)]

/-- Whether a source's kind and number are legal (R99). -/
def srcLegal (u : SrcUse) (k r : Nat) : Bool :=
  match u.kind with
  | .unused => k == 0 && r == 0
  | .any => (k != 1 || decide (r < 64)) && (k != 3 || decide (r < 8))
  | .pred => k == 3 && decide (r < 8)
  | .vector => k == 0
  | .scalar => k == 1 && decide (r < 64)
  | .vectorOrScalar => k == 0 || (k == 1 && decide (r < 64))

/-- Whether the extension word is legal (R99, R100). -/
def extLegal (sh : Shape) (w : HWord) : Bool :=
  let imms := countIf (fun x => x.1.kind != .unused && x.2.1 == 2) (sources sh w)
  match sh.ext, w.ext with
  | .free, none => imms == 0
  | .free, some _ => decide (imms ≤ 1)
  | .offset32, none => imms == 0
  | .offset32, some e => imms == 0 && fld e.toNat 63 32 == 0
  | .offset16, none => imms == 0
  | .offset16, some e => imms == 0 && fld e.toNat 63 16 == 0
  | .branch, none => false
  | .branch, some e => imms == 0 && fld e.toNat 63 32 == 0 && e.toNat % 8 == 0

/-- Whether the destination is legal: a scalar destination names P0 with PN = 0 (R78); P0 cannot be written (R75), and an
instruction that names it as its destination is illegal (log entry 132). -/
def dstLegal (sh : Shape) (w : HWord) : Bool :=
  sh.dks.contains w.dk.toNat &&
    (match w.dk.toNat with
     | 1 => decide (w.dst.toNat < 64) && w.pg == 0 && !w.pn
     | 2 => decide (0 < w.dst.toNat) && decide (w.dst.toNat + sh.dregs ≤ 8)
     | _ => true)

/-- Whether a scalar integer instruction reads only scalar registers and immediates (R78, R103). -/
def scalarLegal (sh : Shape) (w : HWord) : Bool :=
  !(sh.intOp && w.dk == 1) || (sources sh w).all fun x => x.1.kind == .unused || x.2.1 == 1 || x.2.1 == 2

/-- Whether a word is a legal instruction of its opcode (R98 to R103). -/
def legal (sh : Shape) (w : HWord) : Bool :=
  w.rsv == 0 && sh.mod w.mode.toNat && dstLegal sh w && (sources sh w).all (fun x => srcLegal x.1 x.2.1 x.2.2) &&
    extLegal sh w && scalarLegal sh w

/-- Registers of a word: kind (0 vector, 1 scalar), first number, count, alignment. -/
def regBlocks (sh : Shape) (w : HWord) : List (Nat × Nat × Nat × Nat) :=
  ((sources sh w).filter fun x => x.1.kind != .unused && decide (x.2.1 ≤ 1)).map (fun x => (x.2.1, x.2.2, x.1.regs, x.1.align)) ++
    (if w.dk.toNat ≤ 1 then [(w.dk.toNat, w.dst.toNat, sh.dregs, sh.dalign)] else [])

/-- Whether every register named exists: V0 to V(VREGS - 1) and S0 to S63 (R71). An instruction that names another is illegal
(log entry 131). -/
def regsExist (vregs : Nat) (sh : Shape) (w : HWord) : Bool :=
  (regBlocks sh w).all fun b => decide (b.2.1 + b.2.2.1 ≤ if b.1 = 0 then vregs else 64)

/-- Whether every register block begins at a number of its alignment (R94, R99, R128). -/
def regsAligned (sh : Shape) (w : HWord) : Bool := (regBlocks sh w).all fun b => b.2.1 % b.2.2.2 == 0

/-! ## Reading and writing -/

/-- A lane's word of a vector register. -/
def Group.vreg (g : Group) (r l : Nat) : Nat := ((g.v.getD r []).getD l 0).toNat

/-- A scalar register. -/
def Group.sreg (g : Group) (r : Nat) : Nat := (g.s.getD r 0).toNat

/-- n consecutive registers as one number, low word first. -/
def Group.block (g : Group) (k r l : Nat) : Nat → Nat
  | 0 => 0
  | n + 1 => (if k = 0 then g.vreg r l else g.sreg r) + 2 ^ 32 * g.block k (r + 1) l n

/-- A source as one lane reads it: registers, the extension word, or the lane's bit of a predicate (R99). -/
def Group.source (g : Group) (w : HWord) (u : SrcUse) (k r l : Nat) : Nat :=
  match k with
  | 0 => g.block 0 r l u.regs
  | 1 => g.block 1 r l u.regs
  | 2 => (w.ext.getD 0).toNat % 2 ^ (32 * u.regs)
  | _ => b2n ((g.pred r).toNat.testBit l)

/-- The three sources of a word as one lane reads them. -/
structure Srcs where
  a : Nat
  b : Nat
  c : Nat

/-- The sources of a lane. -/
def Group.srcs (g : Group) (sh : Shape) (w : HWord) (l : Nat) : Srcs :=
  { a := g.source w sh.s0 w.k0.toNat w.src0.toNat l, b := g.source w sh.s1 w.k1.toNat w.src1.toNat l,
    c := g.source w sh.s2 w.k2.toNat w.src2.toNat l }

/-- A vector register written in the lanes of a mask. -/
def Group.putVec (g : Group) (r : Nat) (act : Word) (f : Nat → Nat) : Group :=
  { g with v := modNth (fun old => (enumFrom 0 old).map fun x =>
      if act.toNat.testBit x.1 then BitVec.ofNat 32 (f x.1) else x.2) r g.v }

/-- A scalar register written. -/
def Group.putSca (g : Group) (r v : Nat) : Group := { g with s := setNth r (BitVec.ofNat 32 v) g.s }

/-- n consecutive vector registers written, low word first. -/
def Group.putVecs (g : Group) (act : Word) (f : Nat → Nat) : Nat → Nat → Group
  | _, 0 => g
  | r, n + 1 => (g.putVec r act f).putVecs act (fun l => f l >>> 32) (r + 1) n

/-- n consecutive scalar registers written, low word first. -/
def Group.putScas (g : Group) (v : Nat) : Nat → Nat → Group
  | _, 0 => g
  | r, n + 1 => (g.putSca r v).putScas (v >>> 32) (r + 1) n

/-- The length of an instruction in bytes (R98). -/
def wordLen (w : HWord) : Nat := if w.ext.isSome then 16 else 8

/-- The program counter moved past an instruction. -/
def Group.advance (g : Group) (w : HWord) : Group := { g with pc := g.pc + BitVec.ofNat 64 (wordLen w) }

end Sys2Proof.Machine
end

