-- ==== Sys2Proof/Machine/Heith.lean ====
section
/-! DEFINITION. How a cluster issues an instruction of a group: the fetch, the checks of the encoding, the effect or the
fault (R76, R94, R95, R98); and the forms that the arithmetic families share. -/

namespace Sys2Proof.Machine

/-! ## Issue -/

/-- The group that issues: its cluster, its kernel's work, context and job. -/
structure Issuer where
  c    : Nat
  run  : KernelRun
  wide : Nat

/-- A fault that a group meets (R94). -/
structure GFault where
  kind   : FaultKind
  addr   : Nat
  lanes  : Word
  write  : Bool
  atomic : Bool

/-- What an instruction does: the group goes on, it faults before the instruction, the effect already stands, or the
instruction does not issue yet. -/
inductive GStep where
  | stall (s : State)
  | go (g : Group) (s : State)
  | fault (f : GFault) (s : State)
  | done (s : State)

/-- A group of a cluster replaced. -/
def State.putGroup (c : Nat) (g : Group) (s : State) : State :=
  s.modCluster c fun cl => { cl with groups := cl.groups.map fun x => if x.slot = g.slot then g else x }

/-- A group of a cluster. -/
def Cluster.group? (cl : Cluster) (slot : Nat) : Option Group := cl.groups.find? fun g => g.slot == slot

/-- Whether a group issues instructions: it waits for nothing, it is not parked, its cluster runs and does not switch
(R95, R97, R190). -/
def State.canIssue (s : State) (c : Nat) (cl : Cluster) (g : Group) : Bool :=
  decide (g.st = .running) && !g.parked && cl.core.sw.isNone && s.islandUp (engineIsland (.cluster c))

/-- The group parks before the faulting instruction and the cluster reports the fault (R95 step 1). -/
def State.groupFault (c : Nat) (run : KernelRun) (g : Group) (f : GFault) (s : State) : State :=
  let s := s.putGroup c { g with st := .faulted f.kind }
  match s.job? run.work.job, run.work.kind with
  | none, _ => s
  | some _, .kernelLayer l => s.netFault run.work.job l (engineIsland (.cluster c)) f.kind f.write f.atomic f.addr
  | some j, _ =>
    s.report
      { kind := f.kind, source := 0, write := f.write, atomic := f.atomic, island := engineIsland (.cluster c),
        address := f.addr, loc := g.pc.toNat, lanes := f.lanes, job := some j.id, origin := j.origin, key := j.key,
        restart := false, stamp := s.count (engineIsland (.cluster c)) }

/-- The fetch of an instruction's words through the context's ranges (R98): 8-byte aligned, with the R right. A fault of
the fetch is a fault of every lane. -/
def State.fetch (c : Nat) (k : CtxKey) (pc len : Nat) (how : AccessEnd) (s : State) : Option GFault × State :=
  let bad := fun (kind : FaultKind) (va : Nat) =>
    some ({ kind := kind, addr := va, lanes := 0xFFFFFFFF, write := false, atomic := false } : GFault)
  if pc % 8 ≠ 0 then (bad .misaligned pc, s)
  else
    match s.translate (.engine (.cluster c)) k pc len needR with
    | (.error f, s) => (bad f.1 f.2, s)
    | (.ok ps, s) =>
      if linkFailed how ∧ overLink ps then (bad .linkError pc, s.logEnd k.fn how)
      else
        match readPieces k.fn ps s with
        | (.error f, s) => (bad f.1 f.2, s)
        | (.ok _, s) => (none, s)

/-- The instruction of a group, issued: fetched, checked, carried out (R94, R98 to R103). With no active lane nothing faults (R76):
an encoding that would is passed over (log entry 130). -/
def State.issue (sh : Shape) (body : Issuer → Group → State → GStep) (c slot : Nat) (w : HWord) (s : State) : State :=
  match s.clusters[c]? with
  | none => s
  | some cl =>
    match cl.group? slot, cl.run with
    | some g, some run =>
      if !(s.canIssue c cl g) then s
      else
        match s.fetch c run.key g.pc.toNat (wordLen w) w.fetch with
        | (some f, s1) => if s.neverEnds run.key.fn w.fetch then s else s1.groupFault c run g f
        | (none, s) =>
          let count := fun (s : State) => s.modCluster c fun cl => { cl with core := { cl.core with work := cl.core.work + 1 } }
          let stop := fun (f : GFault) (s : State) =>
            if g.active w = 0 then count (s.putGroup c (g.advance w)) else s.groupFault c run g f
          let bad := fun (kind : FaultKind) =>
            stop { kind := kind, addr := 0, lanes := g.active w, write := false, atomic := false } s
          if !(legal sh w) ∨ !(regsExist g.v.length sh w) then bad .illegalInstr
          else if !(regsAligned sh w) then bad .misaligned
          else
            match body { c := c, run := run, wide := wordLen w } g s with
            | .go g s => count (s.putGroup c g)
            | .done s => count s
            | .stall s => s
            | .fault f s => stop f s
    | _, _ => s

/-! ## Shared forms -/

/-- MOD must be 0. -/
def modZero (m : Nat) : Bool := m == 0

/-- Shapes of the integer opcodes (R101 to R103). -/
def int1 : Shape := { shape0 with dks := [0, 1], s0 := src32, intOp := true }
def int2 : Shape := { int1 with s1 := src32 }
def int3 : Shape := { int2 with s2 := src32 }
def int2Signed : Shape := { int2 with mod := fun m => decide (m < 2) }

/-- The result of an instruction written to its vector or scalar destination. -/
def Group.putResult (g : Group) (sh : Shape) (w : HWord) (f : Nat → Nat) : Group :=
  if w.dk = 1 then g.putScas (f 0) w.dst.toNat sh.dregs else g.putVecs (g.active w) f w.dst.toNat sh.dregs

/-- An instruction whose result in a lane depends on the lane's sources alone. -/
def State.alu (sh : Shape) (f : Srcs → Nat) (c slot : Nat) (w : HWord) (s : State) : State :=
  s.issue sh (fun _ g s => .go ((g.putResult sh w fun l => f (g.srcs sh w l)).advance w) s) c slot w

/-- As alu, with an index of free values for each lane. -/
def State.aluFree (sh : Shape) (f : Nat → Srcs → Nat) (c slot : Nat) (w : HWord) (s : State) : State :=
  s.issue sh (fun _ g s =>
    let (v, s) := s.fresh
    .go ((g.putResult sh w fun l => f (64 * v + 2 * l) (g.srcs sh w l)).advance w) s) c slot w

/-- A compare: one predicate register from a test on each lane's sources (R101). -/
def State.compare (sh : Shape) (test : Srcs → Bool) (c slot : Nat) (w : HWord) (s : State) : State :=
  s.issue sh (fun _ g s =>
    let v := maskBy fun l => test (g.srcs sh w l)
    let d := w.dst.toNat
    .go ((g.putPred d (g.active w) (g.compared w d v)).advance w) s) c slot w

/-- A word read as a signed number. -/
def sgn (v : Nat) : Int := signedOf 32 v

/-- A signed number as 32 bits. -/
def word32 (v : Int) : Nat := (v % 2 ^ 32).toNat

/-- Bits reversed over n places. -/
def reverseBits : Nat → Nat → Nat → Nat
  | 0, _, acc => acc
  | n + 1, v, acc => reverseBits n (v / 2) (2 * acc + v % 2)

/-- How many of the n low bits are 1. -/
def popCount : Nat → Nat → Nat
  | 0, _ => 0
  | n + 1, v => v % 2 + popCount n (v / 2)

/-- How many of n bits, from the highest down, are 0 before the first 1. -/
def leadingZeros : Nat → Nat → Nat
  | 0, _ => 0
  | n + 1, v => if v.testBit n then 0 else 1 + leadingZeros n v

end Sys2Proof.Machine
end

