-- ==== Sys2Proof/Machine/HeithFp.lean ====
section
/-! DEFINITION. The floating-point instructions of Heith: FP32, packed FP16, FP64 and conversions (R101, R102). -/

namespace Sys2Proof.Machine

/-! ## Shapes and forms -/

/-- MOD of FP arithmetic: bit 0 is not given and must be 0 (R101). -/
def fpMod (m : Nat) : Bool := m % 2 == 0

def fp1 : Shape := { shape0 with dks := [0], mod := fpMod, s0 := src32 }
def fp2 : Shape := { fp1 with s1 := src32 }
def fp3 : Shape := { fp2 with s2 := src32 }
def fd2 : Shape := { fp1 with s0 := src64, s1 := src64, dregs := 2, dalign := 2 }
def fd3 : Shape := { fd2 with s2 := src64 }

/-- MOD of an FP compare: [2:0] the code, [4] AND; [3] is for integers (R101). -/
def fpCmpMod (m : Nat) : Bool := !(bitOf m 3)

def fcmpShape : Shape := { shape0 with dks := [2], mod := fpCmpMod, s0 := src32, s1 := src32 }
def hpcmpShape : Shape := { fcmpShape with dregs := 2 }
def dcmpShape : Shape := { shape0 with dks := [2], mod := fpCmpMod, s0 := src64, s1 := src64 }

/-- One FP operation on patterns: inputs flushed, the exact operation, the result rounded (R101). -/
def fpOp (f : Fmt) (ctl : FpCtl) (op : FVal → FVal → FVal → FVal) (k : Nat) (x : Srcs) : Nat :=
  f.result ctl k (op (f.input ctl (4 * k) x.a) (f.input ctl (4 * k + 1) x.b) (f.input ctl (4 * k + 2) x.c))

/-- One half of packed operands. -/
def halfOf (x : Srcs) (h : Nat) : Srcs :=
  { a := x.a >>> (16 * h) % 2 ^ 16, b := x.b >>> (16 * h) % 2 ^ 16, c := x.c >>> (16 * h) % 2 ^ 16 }

/-- An FP operation on both halves of packed operands. -/
def packedOp (f : Fmt) (ctl : FpCtl) (op : Nat → FVal → FVal → FVal → FVal) (k : Nat) (x : Srcs) : Nat :=
  fpOp f ctl (op k) k (halfOf x 0) + 2 ^ 16 * fpOp f ctl (op (k + 1)) (k + 1) (halfOf x 1)

/-- An FP32 or FP64 instruction. -/
def State.fp (sh : Shape) (f : Fmt) (op : FpCtl → Nat → FVal → FVal → FVal → FVal) (c slot : Nat) (w : HWord) (s : State) :
    State :=
  let ctl := fpCtlOf w.mode.toNat
  s.aluFree sh (fun k x => fpOp f ctl (op ctl k) k x) c slot w

/-- A packed FP16 instruction. -/
def State.fpPacked (sh : Shape) (op : FpCtl → Nat → FVal → FVal → FVal → FVal) (c slot : Nat) (w : HWord) (s : State) : State :=
  let ctl := fpCtlOf w.mode.toNat
  s.aluFree sh (fun k x => packedOp f16 ctl (op ctl) k x) c slot w

/-! ## The operations -/

def opAdd (ctl : FpCtl) (_ : Nat) (a b _ : FVal) : FVal := fAdd ctl.mode a b
def opMul (_ : FpCtl) (_ : Nat) (a b _ : FVal) : FVal := fMul a b
def opMulAdd (ctl : FpCtl) (_ : Nat) (a b c : FVal) : FVal := fMulAdd ctl.mode a b c
def opMin (_ : FpCtl) (k : Nat) (a b _ : FVal) : FVal := fMin k a b
def opMax (_ : FpCtl) (k : Nat) (a b _ : FVal) : FVal := fMax k a b

/-! ## FP32 -/

def execFadd (c g : Nat) (w : HWord) (s : State) : Res := .next (s.fp fp2 f32 opAdd c g w)
def execFmul (c g : Nat) (w : HWord) (s : State) : Res := .next (s.fp fp2 f32 opMul c g w)
def execFmuladd (c g : Nat) (w : HWord) (s : State) : Res := .next (s.fp fp3 f32 opMulAdd c g w)
def execFmin (c g : Nat) (w : HWord) (s : State) : Res := .next (s.fp fp2 f32 opMin c g w)
def execFmax (c g : Nat) (w : HWord) (s : State) : Res := .next (s.fp fp2 f32 opMax c g w)

def execFcmp (c g : Nat) (w : HWord) (s : State) : Res :=
  .next (s.compare fcmpShape (fun x => fCompare (w.mode.toNat % 8) (f32.value x.a) (f32.value x.b)) c g w)

def execFrecip (c g : Nat) (w : HWord) (s : State) : Res := .next (s.fp fp1 f32 (fun t k a _ _ => fRecip t k a) c g w)
def execFrsqrt (c g : Nat) (w : HWord) (s : State) : Res := .next (s.fp fp1 f32 (fun t k a _ _ => fRsqrt t k a) c g w)
def execFsqrt (c g : Nat) (w : HWord) (s : State) : Res := .next (s.fp fp1 f32 (fun _ _ a _ _ => fSqrt a) c g w)
def execFexp2 (c g : Nat) (w : HWord) (s : State) : Res := .next (s.fp fp1 f32 (fun t k a _ _ => fExp2 t k a) c g w)
def execFlog2 (c g : Nat) (w : HWord) (s : State) : Res := .next (s.fp fp1 f32 (fun t k a _ _ => fLog2 t k a) c g w)
def execFsin (c g : Nat) (w : HWord) (s : State) : Res := .next (s.fp fp1 f32 (fun t k a _ _ => fTrig false t k a) c g w)
def execFcos (c g : Nat) (w : HWord) (s : State) : Res := .next (s.fp fp1 f32 (fun t k a _ _ => fTrig true t k a) c g w)

/-! ## Packed FP16 -/

def execHpadd (c g : Nat) (w : HWord) (s : State) : Res := .next (s.fpPacked fp2 opAdd c g w)
def execHpmul (c g : Nat) (w : HWord) (s : State) : Res := .next (s.fpPacked fp2 opMul c g w)
def execHpmuladd (c g : Nat) (w : HWord) (s : State) : Res := .next (s.fpPacked fp3 opMulAdd c g w)
def execHpmin (c g : Nat) (w : HWord) (s : State) : Res := .next (s.fpPacked fp2 opMin c g w)
def execHpmax (c g : Nat) (w : HWord) (s : State) : Res := .next (s.fpPacked fp2 opMax c g w)

/-- HPCMP: the low halves write the destination, the high halves the next predicate (R102). -/
def execHpcmp (c g : Nat) (w : HWord) (s : State) : Res :=
  .next (s.issue hpcmpShape (fun _ g s =>
    let d := w.dst.toNat
    let test := fun h => maskBy fun l =>
      let x := halfOf (g.srcs hpcmpShape w l) h
      fCompare (w.mode.toNat % 8) (f16.value x.a) (f16.value x.b)
    let act := g.active w
    .go (((g.putPred d act (g.compared w d (test 0))).putPred (d + 1) act (g.compared w (d + 1) (test 1))).advance w) s) c g w)

/-! ## FP64 -/

def execDadd (c g : Nat) (w : HWord) (s : State) : Res := .next (s.fp fd2 f64 opAdd c g w)
def execDmul (c g : Nat) (w : HWord) (s : State) : Res := .next (s.fp fd2 f64 opMul c g w)
def execDmuladd (c g : Nat) (w : HWord) (s : State) : Res := .next (s.fp fd3 f64 opMulAdd c g w)
def execDmin (c g : Nat) (w : HWord) (s : State) : Res := .next (s.fp fd2 f64 opMin c g w)
def execDmax (c g : Nat) (w : HWord) (s : State) : Res := .next (s.fp fd2 f64 opMax c g w)

def execDcmp (c g : Nat) (w : HWord) (s : State) : Res :=
  .next (s.compare dcmpShape (fun x => fCompare (w.mode.toNat % 8) (f64.value x.a) (f64.value x.b)) c g w)

/-! ## Conversions -/

/-- MOD of a conversion: [2:0] the code, [4:3] the rounding; the code takes the places of flush and saturation (log entry
27). -/
def convMod (m : Nat) : Bool := decide (m % 8 < 6)

/-- The source and destination formats of a CONV.FF code (R101). -/
def convFmts (m : Nat) : Fmt × Fmt :=
  match m % 8 with
  | 0 => (f32, f16)
  | 1 => (f16, f32)
  | 2 => (f32, bf16)
  | 3 => (bf16, f32)
  | 4 => (f32, f64)
  | _ => (f64, f32)

/-- The shape of CONV.FF. -/
def convFFShape (w : HWord) : Shape :=
  let f := convFmts w.mode.toNat
  { shape0 with
    dks := [0], mod := convMod, s0 := if f.1 = f64 then src64 else src32, dregs := if f.2 = f64 then 2 else 1,
    dalign := if f.2 = f64 then 2 else 1 }

/-- CONV.FF. The high half of a register that takes a 16-bit result has no stated value. -/
def execConvFF (c g : Nat) (w : HWord) (s : State) : Res :=
  let f := convFmts w.mode.toNat
  let ctl : FpCtl := { mode := rmodeOf (fld w.mode.toNat 4 3), ftz := false, sat := false }
  .next (s.aluFree (convFFShape w) (fun k x =>
    let r := f.2.result ctl k (f.1.value (x.a % 2 ^ f.1.width))
    if f.2.width = 16 then r + 2 ^ 16 * (Config.intFree k % 2 ^ 16) else r) c g w)

/-- Width and sign of the integer types (R101). -/
def intType (m : Nat) : Nat × Bool :=
  match m % 8 with
  | 0 => (32, true)
  | 1 => (32, false)
  | 2 => (16, true)
  | 3 => (16, false)
  | 4 => (8, true)
  | _ => (8, false)

/-- The shape of CONV.FI and CONV.IF. -/
def convShape : Shape := { shape0 with dks := [0], mod := convMod, s0 := src32 }

/-- The least and the greatest value of an integer type. -/
def intRange (t : Nat × Bool) : Int × Int := if t.2 then (-(2 ^ (t.1 - 1)), 2 ^ (t.1 - 1) - 1) else (0, 2 ^ t.1 - 1)

/-- FP32 to an integer type, saturating (R101); the register holds the value as a 32-bit number. No result is stated for a
NaN. -/
def convToInt (ctl : RMode) (t : Nat × Bool) (k a : Nat) : Nat :=
  let (lo, hi) := intRange t
  match f32.value a with
  | .nan => Config.intFree k
  | .inf n => word32 (if n then lo else hi)
  | .fin n m e _ => word32 (clampInt lo hi (roundInt ctl n m e))

def execConvFI (c g : Nat) (w : HWord) (s : State) : Res :=
  .next (s.aluFree convShape (fun k x => convToInt (rmodeOf (fld w.mode.toNat 4 3)) (intType w.mode.toNat) k x.a) c g w)

/-- An integer type, in the low bits of the register, to FP32. -/
def execConvIF (c g : Nat) (w : HWord) (s : State) : Res :=
  let t := intType w.mode.toNat
  let ctl : FpCtl := { mode := rmodeOf (fld w.mode.toNat 4 3), ftz := false, sat := false }
  .next (s.aluFree convShape (fun k x =>
    let v := x.a % 2 ^ t.1
    f32.result ctl k (fOfInt (if t.2 then signedOf t.1 v else Int.ofNat v))) c g w)

end Sys2Proof.Machine
end

