-- ==== Sys2Proof/Machine/HeithMem.lean ====
section
/-! DEFINITION. The memory and atomic instructions of Heith (R85 to R88, R93, R94, R100, R101), and the completion of the
accesses that wait for the link (R412). -/

namespace Sys2Proof.Machine

/-! ## Shapes -/

/-- The bytes of a memory size code (R101). -/
def memSize (m : Nat) : Nat :=
  match m % 8 with
  | 0 => 1
  | 1 => 2
  | 2 => 4
  | 3 => 8
  | 4 => 16
  | 5 => 1
  | _ => 2

/-- MOD of a load or store (R101). -/
def memMod (m : Nat) : Bool := m / 8 != 3 && m % 8 != 7

/-- The registers that a data item occupies (R100). -/
def dataRegs (n : Nat) : Nat := max 1 (n / 4)

/-- The alignment of a data item's first register: an even number above 32 bits (R100). -/
def dataAlign (n : Nat) : Nat := if 4 < n then 2 else 1

def addr64 : SrcUse := { kind := .vectorOrScalar, regs := 2, align := 2 }
def addr32 : SrcUse := { kind := .vector, regs := 1, align := 1 }
def dataSrc (n : Nat) : SrcUse := { kind := .any, regs := dataRegs n, align := dataAlign n }

def ldShape (w : HWord) : Shape :=
  let n := memSize w.mode.toNat
  { shape0 with dks := [0], mod := memMod, s0 := addr64, dregs := dataRegs n, dalign := dataAlign n, ext := .offset32 }

def stShape (w : HWord) : Shape :=
  { shape0 with mod := memMod, s0 := addr64, s1 := dataSrc (memSize w.mode.toNat), ext := .offset32 }

def ldwShape (w : HWord) : Shape := { ldShape w with s0 := addr32, ext := .offset16 }

def stwShape (w : HWord) : Shape := { stShape w with s0 := addr32, ext := .offset16 }

/-- LDSC loads 1, 2 or 4 words (R102). -/
def ldscShape (w : HWord) : Shape :=
  { ldShape w with
    dks := [1], mod := fun m => memMod m && decide (2 ≤ m % 8) && decide (m % 8 ≤ 4),
    s0 := { kind := .scalar, regs := 2, align := 2 } }

/-- MOD of an atomic (R101). -/
def rmwMod (m : Nat) : Bool := m % 16 != 15 && !(bitOf m 4 && decide (10 ≤ m % 16))

/-- The bytes of an atomic's word. -/
def rmwSize (w : HWord) : Nat := if bitOf w.mode.toNat 4 then 8 else 4

def rmwShape (w : HWord) : Shape :=
  let n := rmwSize w
  { shape0 with
    dks := [0], mod := rmwMod, s0 := addr64, s1 := dataSrc n, s2 := if w.mode.toNat % 16 = 9 then dataSrc n else srcNone,
    dregs := dataRegs n, dalign := dataAlign n, ext := .offset32 }

def rmwnShape (w : HWord) : Shape := { rmwShape w with dks := [3] }

def rmwwShape (w : HWord) : Shape := { rmwShape w with s0 := addr32, ext := .offset16 }

/-! ## Lane accesses -/

/-- The kinds of access that a memory instruction makes. -/
inductive MemOp where
  | load | store | atomic (ret : Bool) | scalarLoad
deriving DecidableEq, Repr

/-- The rights that an access needs (R306). -/
def MemOp.need : MemOp → Need
  | .load => needR
  | .store => needW
  | .atomic true => needRA
  | .atomic false => needA
  | .scalarLoad => needR

/-- One lane's access, translated. -/
structure LaneAcc where
  lane   : Nat
  va     : Nat
  tgt    : Target
  pa     : Nat
  cached : Bool
deriving DecidableEq, Repr

/-- A lane's fault: its kind and address. -/
abbrev LaneFault := Nat × FaultKind × Nat

/-- The islands that a physical address is reached through (R13, R39, R49). -/
def State.targetIslands (s : State) (t : Target) (pa : Nat) : List Nat :=
  match t with
  | .reservoir => [0x40 + (s.placement pa).1]
  | .dram => [0x48 + pa / 128 % 16 / 4]
  | .host => [0x48 + pa / 128 % 16 / 4, 0x60]
  | .peer => [0x60]

/-- Whether a culvert on the way is closed because its island is held in reset (R20). -/
def State.targetClosed (s : State) (t : Target) (pa : Nat) : Bool :=
  (s.targetIslands t pa).any fun i => match s.island? i with
    | some x => x.inReset
    | none => true

/-- The signed byte offset of the extension word (R100). -/
def extOffset (w : HWord) : Int :=
  match w.ext with
  | none => 0
  | some e => signedOf 32 (e.toNat % 2 ^ 32)

/-- The lanes' accesses of n bytes, translated in ascending lane order, and the faults they meet (R94). -/
def laneAccesses (c : Nat) (k : CtxKey) (op : MemOp) (n : Nat) : List (Nat × Nat) → State →
    List LaneAcc × List LaneFault × State
  | [], s => ([], [], s)
  | (l, va) :: rest, s =>
    let one : Except (FaultKind × Nat) LaneAcc × State :=
      if va % n ≠ 0 then (.error (.misaligned, va), s)
      else
        match s.translate1 (.engine (.cluster c)) k va op.need with
        | (.error f, s) => (.error (f, va), s)
        | (.ok (e, pa), s) =>
          if (match op with
              | .atomic _ => decide (e.tgt = Target.peer)
              | _ => false) then (.error (.atomicTarget, va), s)
          else if s.targetClosed e.tgt pa then (.error (.targetReset, va), s)
          else (.ok { lane := l, va := va, tgt := e.tgt, pa := pa, cached := e.cacheable && decide (e.tgt ≠ Target.peer) }, s)
    let (accs, faults, s') := laneAccesses c k op n rest one.2
    match one.1 with
    | .ok a => (a :: accs, faults, s')
    | .error f => (accs, (l, f.1, f.2) :: faults, s')

/-- The fault of an instruction some of whose lanes fault: the kind and address of the lowest, the mask of all (R95). -/
def laneFault (fs : List LaneFault) (write atomic : Bool) : Option GFault :=
  match fs with
  | [] => none
  | f :: _ => some { kind := f.2.1, addr := f.2.2, lanes := maskOf (fs.map (·.1)), write := write, atomic := atomic }

/-- Whether a lane's read is answered by the L1 alone. -/
def State.l1Answers (s : State) (c : Nat) (lookup : Bool) (n : Nat) (a : LaneAcc) : Bool :=
  a.cached && match s.line? c a.tgt a.pa with
    | some l => lineCovers l lookup a.pa n
    | none => false

/-- The lanes whose words hold an uncorrectable error, each counted where it lies (R43, R65). -/
def poisonLanes (n : Nat) : List LaneAcc → State → List LaneFault × State
  | [], s => ([], s)
  | a :: rest, s =>
    match s.checkUe a.tgt a.pa n with
    | (some _, s) =>
      let (fs, s) := poisonLanes n rest s
      ((a.lane, .poison, a.va) :: fs, s)
    | (none, s) => poisonLanes n rest s

/-- A group waits for its reads across the link (R412): they are issued under the context's function, the last that completes ends
the wait and counts under the engine's epoch (R311). -/
def State.waitLink (i : Issuer) (g : Group) (op : BitVec 8) (w : HWord) (as : List LaneAcc) (n : Nat) (s : State) : State :=
  match as with
  | [] => s
  | a :: more =>
    let who := Requester.engine (.cluster i.c)
    let s := runAll (fun (b : LaneAcc) (s : State) => s.askAt b.tgt b.pa n) more s
    let (tag, s) := s.issueRead i.run.key.fn (.group i.c g.slot) a.pa n
    let s := { s with flight :=
      { who := who, epoch := s.epochOf who, tgt := a.tgt, va := a.va, key := i.run.key, write := false,
        tag := some tag } :: s.flight }
    s.putGroup i.c { g with st := .bus tag, pend := some { op := op, w := w, va := a.va, lanes := maskOf (as.map (·.lane)) } }

/-! ## Atomic operations (R42, R86, R87) -/

/-- An integer operation, exchange or compare-exchange on a word of n bytes. -/
def atomInt (code n old x cmp : Nat) : Nat :=
  let sg := fun v => signedOf (8 * n) v
  match code with
  | 0 => (old + x) % 2 ^ (8 * n)
  | 1 => if sg x < sg old then x else old
  | 2 => if sg old < sg x then x else old
  | 3 => min old x
  | 4 => max old x
  | 5 => old &&& x
  | 6 => old ||| x
  | 7 => old ^^^ x
  | 8 => x
  | _ => if old = cmp then x else old

/-- An FP operation, rounded to nearest even with subnormals kept (R42). -/
def fpPair (f : Fmt) (op : FVal → FVal → FVal) (k a b : Nat) : Nat := f.result fpPlain k (op (f.value a) (f.value b))

/-- The sum of the lanes in a tree whose shape is free (R87). -/
def treeSum (f : Fmt) (k : Nat) : Nat → List Nat → Nat
  | 0, vs => vs.headD 0
  | n + 1, vs =>
    if vs.length ≤ 1 then vs.headD 0
    else
      let i := Config.treePick k (2 * n) % vs.length
      let rest := vs.eraseIdx i
      let j := Config.treePick k (2 * n + 1) % rest.length
      treeSum f k n (fpPair f (fAdd .nearest) (64 * k + n) (vs.getD i 0) (rest.getD j 0) :: rest.eraseIdx j)

/-- The lanes' operands summed and added to the word in one step. -/
def atomAdd (f : Fmt) (k old : Nat) (vs : List Nat) : Nat :=
  fpPair f (fAdd .nearest) (64 * k + 63) old (treeSum f k vs.length vs)

/-- FP32 minimum or maximum of the word and the lanes. -/
def atomFold (op : Nat → FVal → FVal → FVal) (k old : Nat) (vs : List Nat) : Nat :=
  ((enumFrom 0 vs).foldl (fun acc x => fpPair f32 (op (64 * k + x.1)) (64 * k + x.1) acc x.2) old)

/-- An FP atomic of some lanes on one word (R87). -/
def atomFp (code k old : Nat) (vs : List Nat) : Nat :=
  let halves := fun (f : Fmt) =>
    atomAdd f (2 * k) (old % 2 ^ 16) (vs.map fun v => v % 2 ^ 16) +
      2 ^ 16 * atomAdd f (2 * k + 1) (old / 2 ^ 16) (vs.map fun v => v / 2 ^ 16)
  match code with
  | 10 => atomAdd f32 k old vs
  | 11 => atomFold fMin k old vs
  | 12 => atomFold fMax k old vs
  | 13 => halves f16
  | _ => halves bf16

/-- The lanes' operands of an atomic: lane, operand, compare value. -/
abbrev LaneArgs := Nat × Nat × Nat

/-- The lanes of one word applied: integer operations in ascending lane order, each lane receiving the value just before
its own step; FP operations in one step, every lane receiving the old value (R86, R87). -/
def atomWord (code n k old : Nat) (xs : List LaneArgs) : List (Nat × Nat) × Nat :=
  if code < 10 then
    xs.foldl (fun acc x => (acc.1 ++ [(x.1, acc.2)], atomInt code n acc.2 x.2.1 x.2.2)) ([], old)
  else (xs.map fun x => (x.1, old), atomFp code k old (xs.map fun x => x.2.1))

/-- Elements grouped by a key, groups in order of first appearance. -/
def groupBy' {α κ : Type} [DecidableEq κ] (key : α → κ) : List α → List (κ × List α) → List (κ × List α)
  | [], acc => acc
  | a :: as, acc =>
    groupBy' key as (if acc.any fun x => decide (x.1 = key a)
      then acc.map fun x => if x.1 = key a then (x.1, x.2 ++ [a]) else x
      else acc ++ [(key a, [a])])

/-! ## Loads, stores and atomics through the ranges -/

/-- A loaded value as it goes to registers: the signed sizes are extended (R101). -/
def loaded (m v : Nat) : Nat :=
  match m % 8 with
  | 5 => word32 (signedOf 8 v)
  | 6 => word32 (signedOf 16 v)
  | _ => v

/-- A lane's value among results. -/
def laneValue (rs : List (Nat × Nat)) (l : Nat) : Nat :=
  match rs.find? fun r => r.1 == l with
  | some r => r.2
  | none => 0

/-- The reads of the lanes: KEEP allocates in the L1, STREAM looks it up, BYPASS goes past it (R101); dirty bytes of the
cluster are always seen (R92). -/
def State.readLanes (i : Issuer) (m n : Nat) (as : List LaneAcc) (s : State) : List (Nat × Nat) × State :=
  let keep := decide (m / 8 = 0)
  let lookup := decide (m / 8 ≠ 1)
  as.foldl (fun acc a =>
    let v := ofLE (acc.2.l1Bytes i.c lookup a.cached a.tgt a.pa n)
    let hit := acc.2.l1Answers i.c lookup n a
    let s := if hit then acc.2
      else if keep ∧ a.cached then (acc.2.fillLine i.c a.tgt a.pa a.va).countBytes i.run.key.fn a.tgt 128
      else acc.2.countBytes i.run.key.fn a.tgt n
    (acc.1 ++ [(a.lane, v)], s)) ([], s)

/-- The stores of the lanes, in ascending lane order (R88): into the L1 for KEEP on a cacheable range, else to the point of
coherence at once. -/
def State.storeLanes (i : Issuer) (m : Nat) (as : List (LaneAcc × List Byte)) (s : State) : State :=
  runAll (fun (x : LaneAcc × List Byte) (s : State) =>
    let a := x.1
    if a.cached ∧ m / 8 = 0 then s.storeLine i.c a.tgt a.pa a.va x.2
    else
      let s := (s.wr' a.tgt a.pa x.2).countBytes i.run.key.fn a.tgt x.2.length
      let s := if a.cached then s.patchLine i.c a.tgt a.pa x.2 else s
      s.spanWritten a.tgt a.pa x.2.length) as s

/-- The lanes' operands applied at the point of coherence, word by word (R86, R87). -/
def State.atomLanes (i : Issuer) (code n : Nat) (xs : List (LaneAcc × LaneArgs)) (s : State) : List (Nat × Nat) × State :=
  (groupBy' (fun (x : LaneAcc × LaneArgs) => (x.1.tgt, x.1.pa)) xs []).foldl (fun acc w =>
    let (t, pa) := w.1
    let (v, s) := acc.2.fresh
    let (rs, new) := atomWord code n v (ofLE (s.rd t pa n)) (w.2.map (·.2))
    (acc.1 ++ rs, ((s.wr' t pa (toLE n new)).countBytes i.run.key.fn t (2 * n)).spanWritten t pa n)) ([], s)

/-- The addresses of the active lanes (R100). -/
def Group.addresses (g : Group) (sh : Shape) (w : HWord) (lanes : List Nat) : List (Nat × Nat) :=
  lanes.map fun l => (l, ((Int.ofNat (g.srcs sh w l).a + extOffset w) % 2 ^ 64).toNat)

/-- A memory instruction of the ranges: translation of every lane, faults before any effect (R94), for an atomic the write-back of
the L1's lines that it targets (R85), a wait for the link where data must come across it (R412), then the accesses. Faults of
the translation are reported before those of the link and of the data, with the mask of their own lanes (R95; log entry 136). `linked` says that the link has answered. -/
def memBody (op : MemOp) (code : BitVec 8) (sh : Shape) (w : HWord) (linked : Bool) (i : Issuer) (g : Group) (s : State) :
    GStep :=
  let m := w.mode.toNat
  let n := match op with
    | .atomic _ => rmwSize w
    | _ => memSize m
  let lanes := if op = .scalarLoad then [0] else lanesOf (g.active w)
  let write := decide (op = .store)
  let atomic := match op with
    | .atomic _ => true
    | _ => false
  let (as, fs, s) := laneAccesses i.c i.run.key op n (g.addresses sh w lanes) s
  match laneFault fs write atomic with
  | some f => .fault f s
  | none =>
    let s := if atomic then runAll (fun (a : LaneAcc) (s : State) => s.dropLine i.c a.tgt a.pa) as s else s
    let lookup := decide (m / 8 ≠ 1) && decide (op = .load)
    let fromMem := as.filter fun a => !write && !(decide (op = .load) && s.l1Answers i.c lookup n a)
    let far := fromMem.filter fun a => decide (a.tgt = .host) || decide (a.tgt = .peer)
    if !far.isEmpty ∧ !linked then
      if s.pcie.linkUp then .done (s.waitLink i g code w far n)
      else
        match laneFault (far.map fun a => (a.lane, .linkError, a.va)) write atomic with
        | some f => .fault f s
        | none => .go (g.advance w) s
    else
      let refused := as.filter fun a => write && !(a.cached && m / 8 == 0) && decide (a.tgt = .reservoir) &&
        !(s.mem.writable a.tgt a.pa n)
      let (ps, s) := poisonLanes n (fromMem ++ refused) s
      match laneFault ps write atomic with
      | some f => .fault f s
      | none =>
        match op with
        | .load =>
          let (rs, s) := s.readLanes i m n as
          .go ((g.putResult sh w fun l => loaded m (laneValue rs l)).advance w) s
        | .scalarLoad =>
          let (rs, s) := s.readLanes i 8 n as
          .go ((g.putResult sh w fun _ => laneValue rs 0).advance w) s
        | .store =>
          let xs := as.map fun a => (a, toLE n (g.srcs sh w a.lane).b)
          .go (g.advance w) (s.storeLanes i m xs)
        | .atomic ret =>
          let xs := as.map fun a => (a, a.lane, (g.srcs sh w a.lane).b, (g.srcs sh w a.lane).c)
          let (rs, s) := s.atomLanes i (m % 16) n xs
          .go (if ret then (g.putResult sh w fun l => laneValue rs l).advance w else g.advance w) s

def execLd (c g : Nat) (w : HWord) (s : State) : Res :=
  .next (s.issue (ldShape w) (memBody .load 0x60 (ldShape w) w false) c g w)

def execSt (c g : Nat) (w : HWord) (s : State) : Res :=
  .next (s.issue (stShape w) (memBody .store 0x61 (stShape w) w false) c g w)

def execRmw (c g : Nat) (w : HWord) (s : State) : Res :=
  .next (s.issue (rmwShape w) (memBody (.atomic true) 0x64 (rmwShape w) w false) c g w)

def execRmwn (c g : Nat) (w : HWord) (s : State) : Res :=
  .next (s.issue (rmwnShape w) (memBody (.atomic false) 0x65 (rmwnShape w) w false) c g w)

/-- LDSC: whatever the lanes; it bypasses the L1 (R78, R102). -/
def execLdsc (c g : Nat) (w : HWord) (s : State) : Res :=
  .next (s.issue (ldscShape w) (memBody .scalarLoad 0x67 (ldscShape w) w false) c g w)

/-! ## Local shared memory (R93) -/

/-- A workgroup of a cluster changed. -/
def State.modWg (c wg : Nat) (f : Workgroup → Workgroup) (s : State) : State :=
  s.modCluster c fun cl => { cl with wgs := cl.wgs.map fun x => if x.id = wg then f x else x }

/-- The local shared memory that a group sees, and its size. -/
def State.ldsOf (s : State) (c wg : Nat) : Memory × Nat :=
  match s.clusters[c]?.bind fun cl => cl.wgs.find? fun x => x.id == wg with
  | some x => (x.lds, x.bytes)
  | none => ([], 0)

/-- The local addresses of the active lanes (R100). -/
def Group.ldsAddresses (g : Group) (sh : Shape) (w : HWord) : List (Nat × Nat) :=
  (lanesOf (g.active w)).map fun l => (l, ((g.srcs sh w l).a + ((w.ext.getD 0).toNat % 2 ^ 16)) % 2 ^ 32)

/-- Misaligned local accesses. -/
def ldsFaults (n : Nat) (xs : List (Nat × Nat)) : List LaneFault :=
  (xs.filter fun x => x.2 % n != 0).map fun x => (x.1, .misaligned, x.2)

/-- A local load. The value beyond the workgroup's allocation is not stated. -/
def ldwBody (w : HWord) (i : Issuer) (g : Group) (s : State) : GStep :=
  let sh := ldwShape w
  let n := memSize w.mode.toNat
  let xs := g.ldsAddresses sh w
  match laneFault (ldsFaults n xs) false false with
  | some f => .fault f s
  | none =>
    let (v, s) := s.fresh
    let (m, size) := s.ldsOf i.c g.wg
    let rs := xs.map fun x =>
      (x.1, loaded w.mode.toNat (if x.2 + n ≤ size then readLE m x.2 n else Config.fpFree (64 * v + x.1) % 2 ^ (8 * n)))
    .go ((g.putResult sh w fun l => laneValue rs l).advance w) s

def execLdw (c g : Nat) (w : HWord) (s : State) : Res := .next (s.issue (ldwShape w) (ldwBody w) c g w)

/-- A local store, in ascending lane order (R88). A store beyond the allocation is dropped (log entry 30). -/
def stwBody (w : HWord) (i : Issuer) (g : Group) (s : State) : GStep :=
  let sh := stwShape w
  let n := memSize w.mode.toNat
  let xs := g.ldsAddresses sh w
  match laneFault (ldsFaults n xs) true false with
  | some f => .fault f s
  | none =>
    let size := (s.ldsOf i.c g.wg).2
    let s := s.modWg i.c g.wg fun x =>
      { x with lds := (xs.filter fun y => decide (y.2 + n ≤ size)).foldl (fun m y => writeLE y.2 n (g.srcs sh w y.1).b m) x.lds }
    .go (g.advance w) s

def execStw (c g : Nat) (w : HWord) (s : State) : Res := .next (s.issue (stwShape w) (stwBody w) c g w)

/-- A local atomic with return. -/
def rmwwBody (w : HWord) (i : Issuer) (g : Group) (s : State) : GStep :=
  let sh := rmwwShape w
  let n := rmwSize w
  let xs := g.ldsAddresses sh w
  match laneFault (ldsFaults n xs) false true with
  | some f => .fault f s
  | none =>
    let (m, size) := s.ldsOf i.c g.wg
    let (v, s) := s.fresh
    let inside := xs.filter fun y => decide (y.2 + n ≤ size)
    let r := (enumFrom 0 (groupBy' (fun (x : Nat × Nat) => x.2) inside [])).foldl (fun (acc : List (Nat × Nat) × Memory) y =>
      let args := y.2.2.map fun x => (x.1, (g.srcs sh w x.1).b, (g.srcs sh w x.1).c)
      let (rs, new) := atomWord (w.mode.toNat % 16) n (64 * v + y.1) (readLE acc.2 y.2.1 n) args
      (acc.1 ++ rs, writeLE y.2.1 n new acc.2)) ([], m)
    let rs := r.1 ++ (xs.filter fun y => !(decide (y.2 + n ≤ size))).map fun x => (x.1, Config.fpFree (64 * v + x.1) % 2 ^ (8 * n))
    .go ((g.putResult sh w fun l => laneValue rs l).advance w) (s.modWg i.c g.wg fun x => { x with lds := r.2 })

def execRmww (c g : Nat) (w : HWord) (s : State) : Res := .next (s.issue (rmwwShape w) (rmwwBody w) c g w)

/-! ## The end of a wait for the link (R412) -/

/-- A memory instruction taken up again once the link has answered. -/
def resume (op : BitVec 8) (w : HWord) : Issuer → Group → State → GStep :=
  match op.toNat with
  | 0x64 => memBody (.atomic true) op (rmwShape w) w true
  | 0x65 => memBody (.atomic false) op (rmwnShape w) w true
  | 0x67 => memBody .scalarLoad op (ldscShape w) w true
  | _ => memBody .load op (ldShape w) w true

/-- A request leaves the list of outstanding ones, and its access leaves its epoch's count (R311). -/
def State.endRequest (tag : Nat) (s : State) : State :=
  { s.dropReqs fun r => r.tag == tag with flight := s.flight.filter fun a => decide (a.tag ≠ some tag) }

/-- The access of a group for which it waited has ended: with data, the instruction takes its effect; without, the group
faults (R94, R412). -/
def State.groupAnswered (c slot tag : Nat) (err : Option FaultKind) (s : State) : State :=
  match s.clusters[c]? with
  | none => s
  | some cl =>
    match cl.group? slot, cl.run with
    | some g, some run =>
      match g.pend with
      | none => s
      | some p =>
        if g.st ≠ .bus tag then s
        else
          let g := { g with st := .running, pend := none }
          match err with
          | some k =>
            s.groupFault c run g
              { kind := k, addr := p.va, lanes := p.lanes, write := false, atomic := p.op == 0x64 || p.op == 0x65 }
          | none =>
            match resume p.op p.w { c := c, run := run, wide := wordLen p.w } g s with
            | .go g s => s.putGroup c g
            | .done s => s
            | .stall s => s
            | .fault f s => s.groupFault c run g f
    | _, _ => s

end Sys2Proof.Machine
end

