-- ==== Sys2Proof/Machine/PassDesc.lean ====
section
/-! DEFINITION. Kernel and pass descriptors (R72, R73, R108, R281): reading and checking them; the tile size (R110), the tiles
(R121), tile memory and the parameter buffer of a pass (R113); PASS_SUBMIT and KERNEL_SUBMIT. -/

namespace Sys2Proof.Machine

/-! ## Kernels -/

/-- A kernel descriptor read from its 64 bytes (R281). -/
def parseKernel (bs : List Byte) : KernelDesc :=
  let v := ofLE bs
  { code := fld v 47 0, args := fld v 111 64, vregs := fld v 136 128, ldsKib := fld v 151 144, wgX := fld v 169 160 + 1,
    wgY := fld v 179 170 + 1, wgZ := fld v 189 180 + 1, gridX := fld v 223 192, gridY := fld v 255 224,
    gridZ := fld v 287 256 }

/-- The reserved fields of a kernel descriptor: byte offset, high bit, low bit (R281). -/
def kernelReserved : List (Nat × Nat × Nat) :=
  [(0x06, 15, 0), (0x0E, 15, 0), (0x10, 15, 9), (0x10, 31, 24), (0x14, 31, 30), (0x24, 223, 0)]

/-- Threads of a workgroup. -/
def KernelDesc.threads (d : KernelDesc) : Nat := d.wgX * d.wgY * d.wgZ

/-- Workgroups of a kernel. -/
def KernelDesc.workgroups (d : KernelDesc) : Nat := d.gridX * d.gridY * d.gridZ

/-- Groups of a workgroup. -/
def KernelDesc.groups (d : KernelDesc) : Nat := ceilDiv d.threads 32

/-- The workgroups that a cluster holds at once (R72). -/
def residency (vregs threads ldsBytes : Nat) : Nat :=
  let gran := ceilDiv vregs 8 * 8
  let perPart := min 16 (512 / gran)
  let g := ceilDiv threads 32
  let wRegs := 4 * perPart / g
  let wLds := if ldsBytes = 0 then 64 else 128 / ceilDiv ldsBytes 1024
  min (min wRegs wLds) (64 / g)

/-- The residency of a kernel (R72). -/
def KernelDesc.resident (d : KernelDesc) : Nat := residency d.vregs d.threads (d.ldsKib * 1024)

/-- A kernel that does not fit a cluster (R73). -/
def KernelDesc.tooLarge (d : KernelDesc) : Bool :=
  decide (256 < d.vregs) || decide (128 < d.ldsKib) || decide (1024 < d.threads) || decide (d.resident = 0)

/-- A pixel kernel as R106 allocates it: a workgroup of one group. -/
def KernelDesc.asPixel (d : KernelDesc) : KernelDesc := { d with wgX := 32, wgY := 1, wgZ := 1, gridX := 1, gridY := 1, gridZ := 1 }

/-! ## The pass descriptor (R108) -/

def parseAttachment (bs : List Byte) : Attachment :=
  let v := ofLE bs
  { addr := fld v 47 0, tst := fld v 111 64, resolve := fld v 175 128, format := fld v 199 192, loadOp := fld v 201 200,
    storeOp := fld v 203 202, clearIdx := fld v 206 204 }

def parseBlend (v : Nat) : Blend :=
  { enable := bitOf v 0, src := fld v 4 1, dst := fld v 8 5, op := fld v 11 9, mask := BitVec.ofNat 4 (fld v 15 12) }

def parseDraw (bs : List Byte) : Draw :=
  let v := ofLE (bs.take 0x20)
  let m := ofLE (bs.drop 0x20 |>.take 4)
  let t := ofLE (bs.drop 0x24 |>.take 4)
  { geom := fld v 47 0, pixel := fld v 111 64, args := fld v 175 128, vertices := fld v 223 192,
    instances := max 1 (fld v 255 224), topology := fld m 1 0, cull := fld m 3 2, frontCw := bitOf m 4,
    depthFunc := fld m 7 5, depthWrite := bitOf m 8, lateZ := bitOf m 9, vtxDwords := fld m 15 10, sRef := fld t 7 0,
    sMask := fld t 15 8, sFail := fld t 18 16, sPass := fld t 21 19, sFunc := fld t 24 22,
    blends := (List.range 8).map fun i => parseBlend (ofLE (bs.drop (0x28 + 3 * i) |>.take 3)) }

/-- A pass descriptor without its draws, from its 512 bytes. 0 in PPT_MAX, BATCH_TILES and PB_BUDGET reads as its default. -/
def parsePass (bs : List Byte) : PassDesc :=
  let d := fun (o : Nat) => ofLE (bs.drop o |>.take 4)
  let q := fun (o : Nat) => ofLE (bs.drop o |>.take 8)
  let size := fld (d 0x18) 31 16
  { mode := fld (d 0) 1 0, tileMax := fld (d 0) 4 2, halo := fld (d 0) 8 5, samples := 2 ^ fld (d 0) 10 9,
    rtCount := fld (d 0) 14 11, depthEn := bitOf (d 0) 15, stencilEn := bitOf (d 0) 16,
    signature := BitVec.ofNat 32 (d 4), width := fld (d 8) 15 0 + 1, height := fld (d 8) 31 16 + 1,
    areaX := fld (d 0x0C) 15 0, areaY := fld (d 0x0C) 31 16, areaW := fld (d 0x10) 15 0 + 1, areaH := fld (d 0x10) 31 16 + 1,
    pptMax := if fld (d 0x14) 15 0 = 0 then 64 else fld (d 0x14) 15 0,
    batchTiles := if fld (d 0x14) 23 16 = 0 then 16 else fld (d 0x14) 23 16,
    pbBudget := if fld (d 0x18) 15 0 = 0 then size else fld (d 0x18) 15 0, pbSize := size, pbAddr := q 0x20 % 2 ^ 48,
    drawList := q 0x28 % 2 ^ 48, drawCount := d 0x30, vertexCount := d 0x34, tileNet := d 0x38,
    clears := (List.range 8).map fun i => bs.drop (0x40 + 16 * i) |>.take 16,
    colours := (List.range 8).map fun i => parseAttachment (bs.drop (0xC0 + 32 * i) |>.take 32),
    depth := parseAttachment (bs.drop 0x1C0 |>.take 32), draws := [] }

/-- Whether the pass uses its depth and stencil attachment: for depth, or for stencil alone (R108). -/
def PassDesc.usesDepth (d : PassDesc) : Bool := d.depthEn || d.stencilEn

/-- Whether an attachment record's codes are defined, its reserved fields 0 and its addresses aligned; a resolve needs its
surface. -/
def attachmentOk (renderable : Nat → Bool) (bs : List Byte) : Bool :=
  let a := parseAttachment bs
  renderable a.format && a.loadOp != 3 && fld (ofLE (bs.drop 0x18 |>.take 8)) 63 15 == 0 && a.addr % 4096 == 0 && a.tst % 128 == 0 &&
    (decide (a.storeOp < 2) || (a.resolve != 0 && a.resolve % 4096 == 0))

/-- Whether a pass descriptor's own fields are valid (R108, R109). -/
def passOk (bs : List Byte) : Bool :=
  let d := parsePass bs
  d.mode != 3 && fld (ofLE (bs.take 4)) 31 17 == 0 && d.pbAddr % 65536 == 0 && d.drawList % 64 == 0 && decide (d.tileMax < 5) && decide (d.halo ≤ 8) && (d.halo == 0 || d.tileNet != 0) && decide (d.rtCount ≤ 8) &&
    decide (d.width ≤ 16384) && decide (d.height ≤ 16384) && fld (ofLE (bs.drop 0x14 |>.take 4)) 31 24 == 0 &&
    decide (d.batchTiles ≤ 64) && decide (1 ≤ d.drawCount) &&
    (List.range d.rtCount).all (fun i => attachmentOk colourFormat (bs.drop (0xC0 + 32 * i) |>.take 32)) &&
    (!d.usesDepth || attachmentOk depthFormat (bs.drop 0x1C0 |>.take 32)) &&
    (!d.stencilEn || d.depth.format == 0x22) && (bs.drop 0x1E0 |>.take 32).all (fun b => b == 0) &&
    !(d.tileNet != 0 && d.mode == 1)

/-- Whether a draw record is valid (R108). -/
def drawOk (bs : List Byte) : Bool :=
  let d := parseDraw bs
  d.geom % 64 == 0 && d.pixel % 64 == 0 && d.cull != 3 && decide (4 ≤ d.vtxDwords) &&
    fld (ofLE (bs.drop 0x20 |>.take 4)) 31 16 == 0 && fld (ofLE (bs.drop 0x24 |>.take 4)) 31 25 == 0 &&
    d.blends.all (fun b => decide (b.src ≤ 9) && decide (b.dst ≤ 9) && decide (b.op ≤ 4)) &&
    (List.range 8).all fun i => (bs.getD (0x28 + 3 * i + 2) 0) == 0

/-! ## Tile size and tiles (R110, R121) -/

/-- The sizes in the order of R110. -/
def tileSizes : List (Nat × Nat) := [(64, 64), (64, 32), (32, 32), (32, 16), (16, 16)]

/-- The place of TILE_MAX's size in that order (R108). -/
def tileFirst (tileMax : Nat) : Nat := [2, 0, 1, 3, 4].getD tileMax 0

/-- Bytes of a sample in tile memory: every colour attachment and the depth and stencil word (R110). -/
def PassDesc.bpp (d : PassDesc) : Nat := 4 + sumN ((d.colours.take d.rtCount).map fun a => formatBytes a.format)

/-- Bytes of a tile with its guard band. -/
def PassDesc.tileBytes (d : PassDesc) (w h : Nat) : Nat := (w + 2 * d.halo) * (h + 2 * d.halo) * d.samples * d.bpp

/-- The tile size that R110 chooses. -/
def PassDesc.tileSize (d : PassDesc) : Option (Nat × Nat) :=
  (tileSizes.drop (tileFirst d.tileMax)).find? fun x => decide (d.tileBytes x.1 x.2 ≤ 262144)

/-- The end of the render area, cut at the attachment's extent. -/
def PassDesc.endX (d : PassDesc) : Nat := min (d.areaX + d.areaW) d.width
def PassDesc.endY (d : PassDesc) : Nat := min (d.areaY + d.areaH) d.height

/-- Tiles across and down the render area (R121). -/
def PassDesc.tilesX (d : PassDesc) (w : Nat) : Nat := if d.areaX < d.endX then (d.endX - 1) / w + 1 - d.areaX / w else 0
def PassDesc.tilesY (d : PassDesc) (h : Nat) : Nat := if d.areaY < d.endY then (d.endY - 1) / h + 1 - d.areaY / h else 0

/-- The tiles of a pass at a size. -/
def PassDesc.tiles (d : PassDesc) (w h : Nat) : Nat := d.tilesX w * d.tilesY h

/-- Where the heap begins: after the tile list heads, padded to 64 KiB (R113). -/
def PassDesc.headsEnd (d : PassDesc) (w h : Nat) : Nat := 0x210000 + ceilDiv (8 * d.tiles w h) 65536 * 65536

/-- Whether a pixel lies in the render area. -/
def PassDesc.inArea (d : PassDesc) (x y : Nat) : Bool :=
  decide (d.areaX ≤ x) && decide (x < d.endX) && decide (d.areaY ≤ y) && decide (y < d.endY)

/-! ## PASS_SUBMIT and KERNEL_SUBMIT -/

/-- The vertices over all draws and instances (R107). -/
def vertexSum (ds : List Draw) : Nat := sumN (ds.map fun d => d.vertices * d.instances)

/-- What Headgate's check of a draw's kernel gives: refuse with a status, or go on. A kernel descriptor that cannot be read
is left to the front end (log entry 40). -/
def State.kernelBad (k : CtxKey) (va : Nat) (pixel : Bool) (s : State) : Option Nat × State :=
  match s.readVa .headgate k va 64 with
  | (.error _, s) => (none, s)
  | (.ok bs, s) =>
    let d := parseKernel bs
    let e := if pixel then d.asPixel else d
    if d.vregs = 0 ∨ (pixel ∧ d.ldsKib = 0) ∨ (kernelReserved.any fun r => fld (ofLE (bs.drop r.1)) r.2.1 r.2.2 != 0) then
      (some stBadParam, s)
    else if e.tooLarge then (some stTooLarge, s)
    else (none, s)

/-- The first status with which a draw's kernels refuse the pass. -/
def State.kernelsBad (k : CtxKey) : List Draw → State → Option Nat × State
  | [], s => (none, s)
  | d :: ds, s =>
    match s.kernelBad k d.geom false with
    | (some st, s) => (some st, s)
    | (none, s) =>
      match s.kernelBad k d.pixel true with
      | (some st, s) => (some st, s)
      | (none, s) => s.kernelsBad k ds

/-- Whether a format may be bound to a tile network (R164). -/
def netFormatOk (f : Nat) : Bool := [0x04, 0x05, 0x06, 0x10, 0x12, 0x13].contains f

/-- The checks of a pass that names a tile network (R164). -/
def State.tileNetOk (s : State) (k : CtxKey) (d : PassDesc) : Bool :=
  match s.ctx? k with
  | none => false
  | some c =>
    match c.nets.find? fun n => n.handle == d.tileNet with
    | none => false
    | some n =>
      n.tileNet && d.samples == 1 && decide (n.haloReq ≤ d.halo) && decide (d.tileSize = some (n.tileW, n.tileH)) &&
        (enumFrom 0 n.binds).all fun b =>
          b.2.fmt == 0 || (if b.1 < 8 then decide (b.1 < d.rtCount) && netFormatOk ((d.colours.getD b.1 d.depth).format)
            else b.1 == 8 && d.depthEn && !b.2.output)

/-- The size checks of a pass: no tile size fits (R110), or the parameter buffer is too small (R114). -/
def PassDesc.tooLarge (d : PassDesc) : Option Nat :=
  let short := fun (need : Nat) => if d.pbSize * 65536 < need then some (ceilDiv need 65536 - d.pbSize) else none
  if d.mode = 1 then short (0x210000 + 65536)
  else
    match d.tileSize with
    | none => some (ceilDiv (d.tileBytes 16 16) 1024)
    | some (w, h) => short (d.headsEnd w h + 65536)

/-- Whether the parameter buffer lies inside one range of target RESERVOIR with the rights R and W (R108). -/
def State.bufferOk (k : CtxKey) (d : PassDesc) (s : State) : Bool × State :=
  match s.lookup .headgate k d.pbAddr with
  | (.error _, s) => (false, s)
  | (.ok e, s) =>
    (decide (e.tgt = .reservoir) && e.r && e.w && decide (d.pbAddr + d.pbSize * 65536 ≤ e.start + e.bytes), s)

/-- PASS_SUBMIT at its own checks (R107 to R110, R114, R118, R164, R414). -/
def passSubmit (p : Pk) (s : State) : Verdict :=
  match p.key with
  | none => .reply stNotPermitted 0 s
  | some k =>
    match s.jobFenceOk k p with
    | (false, s) => .reply stBadParam 0x00 s
    | (true, s) =>
      let va := p.f 0x10 47 0
      match s.readNamed p va 512 256 with
      | (none, s) => .reply stBadParam 0x10 s
      | (some bs, s) =>
        let d := parsePass bs
        if !(passOk bs) then .reply stBadParam 0x10 s
        else
          let (raw, s) := match s.readVa .headgate k d.drawList (64 * d.drawCount) with
            | (.ok raw, s) => (some raw, s)
            | (.error _, s) => (none, s)
          let recs := match raw with
            | some raw => (List.range d.drawCount).map fun i => raw.drop (64 * i) |>.take 64
            | none => []
          let draws := recs.map parseDraw
          if !(recs.all drawOk) ∨ 2 ^ 32 ≤ vertexSum draws ∨ (d.tileNet ≠ 0 ∧ !(s.tileNetOk k d)) then .reply stBadParam 0x10 s
          else
            match s.bufferOk k d with
            | (false, s) => .reply stBadParam 0x10 s
            | (true, s) =>
              match s.kernelsBad k draws with
              | (some st, s) => .reply st (if st = stBadParam then 0x10 else 0) s
              | (none, s) =>
                match d.tooLarge with
                | some n => .reply stTooLarge n s
                | none =>
                  let (id, s) := s.startJob p k (.pass va none)
                  .owed (s.addReady [{ job := id, kind := .pass }])

def execPassSubmit (src : Src) (p : Packet) (s : State) : Res := .next (s.takePacket (jobSpec 0x40) passSubmit src p)

/-- The KERNEL_SUBMIT packet: the job block and a kernel descriptor at 0x10 (R281, R282). -/
def kernelSpec : OpSpec :=
  { opcode := 0x41, assigned := true, may := mayAny, mailbox := false, job := true, lostOk := false, len := fun _ => 24,
    reserved := fun _ => (0x06, 15, 0) :: kernelReserved.map fun r => (0x10 + r.1, r.2.1, r.2.2) }

/-- KERNEL_SUBMIT at its own checks (R72, R73, R281). R73 and R281 give different statuses to a workgroup of more than 1,024
threads: R281's is taken (log entry 137). -/
def kernelSubmit (p : Pk) (s : State) : Verdict :=
  match p.key with
  | none => .reply stNotPermitted 0 s
  | some k =>
    match s.jobFenceOk k p with
    | (false, s) => .reply stBadParam 0x00 s
    | (true, s) =>
      let d := parseKernel (p.bytes.drop 0x10 |>.take 64)
      if d.vregs = 0 then .reply stBadParam 0x20 s
      else if 1024 < d.threads then .reply stBadParam 0x24 s
      else if d.gridX = 0 then .reply stBadParam 0x28 s
      else if d.gridY = 0 then .reply stBadParam 0x2C s
      else if d.gridZ = 0 then .reply stBadParam 0x30 s
      else if d.tooLarge then .reply stTooLarge 0 s
      else
        let (id, s) := s.startJob p k (.kernel d 0 0 d.workgroups)
        .owed (s.addReady [{ job := id, kind := .kernel }])

def execKernelSubmit (src : Src) (p : Packet) (s : State) : Res := .next (s.takePacket kernelSpec kernelSubmit src p)

end Sys2Proof.Machine
end

