-- ==== Sys2Proof/Machine/Net.lean ====
section
/-! DEFINITION. Loaded networks: the regions of the arena, the spaces of tensor references and the kernels of KERNEL layers
(R151, R155, R156, R161). -/

namespace Sys2Proof.Machine

/-- Granules of a size. -/
def granulesOf (bytes : Nat) : Nat := ceilDiv bytes granuleBytes

/-- Granules of region 1: tables and kernels (R156). -/
def Net.fixed (n : Net) : Nat := granulesOf (n.tableB + n.kernelB)

/-- Granules of region 2: the weights, in RESIDENT mode only. -/
def Net.weightGranules (n : Net) : Nat := if n.layerMode then 0 else granulesOf n.weightB

/-- Granules of region 3: activations. -/
def Net.actGranules (n : Net) : Nat :=
  if n.layerMode then maxN (n.layers.map fun l => granulesOf l.workset) else granulesOf n.peakAct

/-- The granules that a network needs (R155). -/
def Net.needs (n : Net) : Nat := n.fixed + n.weightGranules + n.actGranules + granulesOf n.scratch

/-- The start of the kernel section in the arena. -/
def Net.kernelBase (n : Net) : Nat := n.arena + n.tableB

/-- The start of region 2. -/
def Net.weightBase (n : Net) : Nat := n.arena + granuleBytes * n.fixed

/-- The start of the activation region. -/
def Net.actBase (n : Net) : Nat := n.weightBase + granuleBytes * n.weightGranules

/-- The start of the scratch region. -/
def Net.scratchBase (n : Net) : Nat := n.actBase + granuleBytes * n.actGranules

/-- The address that a tensor reference stands for at a run with some bindings (R151, R156). -/
def Net.resolve (n : Net) (binds : List Nat) (ref : BitVec 64) : Nat :=
  let off := ref.toNat % 2 ^ 48
  match fld ref.toNat 61 60 with
  | 0 => n.actBase + off
  | 1 => if n.layerMode then n.image + n.weightOff + off else n.weightBase + off
  | 2 => binds.getD (fld ref.toNat 51 48) 0 + off
  | _ => n.arena + off

/-- A KERNEL layer's argument block (R161). -/
def Net.argBlock (n : Net) (binds : List Nat) (l : LayerDesc) : List Byte :=
  [l.aRef, l.wRef, l.oRef, l.rRef, l.tRef].flatMap (fun r => toLE 8 (n.resolve binds r)) ++
    [l.p0, l.p1, l.p2, l.p3].flatMap fun p => toLE 4 p.toNat

/-- Where a KERNEL layer's argument block lies in the scratch region: one 64-byte place for each KERNEL layer, in order
(log entry 44). -/
def Net.argAddr (n : Net) (layer : Nat) : Nat :=
  n.scratchBase + 64 * countIf (fun l : LayerDesc => l.op == 0x10) (n.layers.take layer)

/-- The kernel of a KERNEL layer as a cluster takes it: the descriptor read from the kernel section, its code address
moved by the section's address, its argument block written (R156, R161, R281). -/
def State.layerKernel (who : Requester) (k : CtxKey) (n : Net) (binds : List Nat) (layer : Nat) (s : State) :
    Except (FaultKind × Bool × Nat) KernelDesc × State :=
  match n.layers[layer]? with
  | none => (.error (.noRange, false, 0), s)
  | some l =>
    match s.readVa who k (n.kernelBase + (l.p0.toNat + 2 ^ 32 * l.p1.toNat)) 64 with
    | (.error f, s) => (.error (f.1, false, f.2), s)
    | (.ok bs, s) =>
      let d := parseKernel bs
      match s.putVa who k (n.argAddr layer) (n.argBlock binds l) with
      | (some f, s) => (.error (f.1, true, f.2), s)
      | (none, s) => (.ok { d with code := n.kernelBase + d.code, args := n.argAddr layer }, s)

end Sys2Proof.Machine
end

