-- ==== Sys2Proof/Machine/Raster.lean ====
section
/-! DEFINITION. Tiles and fragments: tile memory, the load and the store of a tile through the tile state tables (R119 to
R122), depth and stencil tests, blending and retirement (R108, R129, R130). -/

namespace Sys2Proof.Machine

/-! ## Running passes -/

/-- The running pass of a job. -/
def State.passRun? (s : State) (job : Nat) : Option PassRun :=
  match s.job? job with
  | some j => match j.kind with
    | .pass _ r => r
    | _ => none
  | none => none

/-- The running pass of a job changed. -/
def State.modPass (job : Nat) (f : PassRun → PassRun) (s : State) : State :=
  s.modJob job fun j => match j.kind with
    | .pass a (some r) => { j with kind := .pass a (some (f r)) }
    | _ => j

/-- A fault that no group of a cluster made: a tile's load or store, a fragment's retirement (log entry 41). -/
def State.clusterFault (c job : Nat) (kind : FaultKind) (write : Bool) (va : Nat) (s : State) : State :=
  match s.job? job with
  | none => s
  | some j =>
    s.report
      { kind := kind, source := 0, write := write, atomic := false, island := engineIsland (.cluster c), address := va,
        loc := 0, lanes := 0, job := some j.id, origin := j.origin, key := j.key, restart := false,
        stamp := s.count (engineIsland (.cluster c)) }

/-! ## Attachments and tile memory -/

/-- The attachments in use with their numbers: colours 0 to 7, and depth and stencil as 8. -/
def PassDesc.attachments (d : PassDesc) : List (Nat × Attachment) :=
  enumFrom 0 (d.colours.take d.rtCount) ++ (if d.usesDepth then [(8, d.depth)] else [])

/-- The bytes of a sample of an attachment in tile memory (R110). -/
def attSize (i : Nat) (a : Attachment) : Nat := if i = 8 then 4 else formatBytes a.format

/-- Where an attachment's bytes begin in a sample: colours in order, then depth and stencil (log entry 42). -/
def PassDesc.attOffset (d : PassDesc) (i : Nat) : Nat :=
  sumN ((d.colours.take (min i d.rtCount)).map fun a => formatBytes a.format)

/-- The first pixel of a tile of the pass (R121). -/
def PassRun.origin (r : PassRun) (t : Nat) : Nat × Nat :=
  let tx := r.desc.tilesX r.tileW
  ((r.desc.areaX / r.tileW + t % tx) * r.tileW, (r.desc.areaY / r.tileH + t / tx) * r.tileH)

/-- The pixels of a tile; those of its guard band too when `band` says so. Pixels outside the attachment do not exist. -/
def PassRun.pixels (r : PassRun) (t : Nat) (band : Bool) : List (Nat × Nat) :=
  let (ox, oy) := r.origin t
  let h := if band then r.desc.halo else 0
  (List.range (r.tileH + 2 * h)).flatMap fun j => (List.range (r.tileW + 2 * h)).filterMap fun i =>
    if h ≤ ox + i ∧ h ≤ oy + j ∧ ox + i - h < r.desc.width ∧ oy + j - h < r.desc.height then some (ox + i - h, oy + j - h) else none

/-- The place in tile memory of an attachment's bytes of one sample (log entry 42). -/
def PassRun.sampleAt (r : PassRun) (slot : TileSlot) (i x y smp : Nat) : Nat :=
  let (ox, oy) := r.origin slot.tile
  let h := r.desc.halo
  slot.off + (((y + h - oy) * (r.tileW + 2 * h) + (x + h - ox)) * r.desc.samples + smp) * r.desc.bpp + r.desc.attOffset i

/-- An attachment as a surface: its samples are slices (R125). -/
def PassDesc.surf (d : PassDesc) (a : Attachment) : Surf :=
  { base := a.addr, width := d.width, height := d.height, depth := 1, levels := 1, format := a.format }

/-- The address of a sample of a pixel in memory. -/
def PassDesc.pixelVa (d : PassDesc) (a : Attachment) (x y smp : Nat) : Nat := ((d.surf a).texel smp 0 0 x y).1

/-- The address of the state tile entry of a pixel (R119). -/
def PassDesc.entryVa (d : PassDesc) (a : Attachment) (x y : Nat) : Nat := a.tst + tstOffset d.width (x / 32) (y / 32)

/-- A read by an engine as a number. -/
def State.readNum (who : Requester) (k : CtxKey) (va n : Nat) (s : State) : Except (FaultKind × Nat) Nat × State :=
  match s.readVa who k va n with
  | (.error f, s) => (.error f, s)
  | (.ok bs, s) => (.ok (ofLE bs), s)

/-- A write by an engine. -/
def State.put (who : Requester) (k : CtxKey) (va : Nat) (bs : List Byte) (s : State) : Acc :=
  match s.putVa who k va bs with
  | (some f, s) => (some (f.1, true, f.2), s)
  | (none, s) => (none, s)

/-- The value of a clear slot of a table (R119). -/
def State.slotValue (who : Requester) (k : CtxKey) (a : Attachment) (idx : Nat) (s : State) :
    Except (FaultKind × Nat) (List Byte) × State :=
  s.readVa who k (a.tst + 16 * idx) (formatBytes a.format)

/-- A sample of a pixel as the attachment shows it: memory, or the clear slot of its state tile (R119, R120). -/
def State.showSample (who : Requester) (k : CtxKey) (d : PassDesc) (a : Attachment) (x y smp : Nat) (s : State) :
    Except (FaultKind × Nat) (List Byte) × State :=
  let memory := fun (s : State) => s.readVa who k (d.pixelVa a x y smp) (formatBytes a.format)
  if a.tst = 0 then memory s
  else
    match s.readNum who k (d.entryVa a x y) 2 with
    | (.error f, s) => (.error f, s)
    | (.ok e, s) => if tstHolds e (quadrant x y) then memory s else s.slotValue who k a (tstIdx e)

/-! ## Loading a tile (R120, R121) -/

/-- Whether the state tile of a pixel lies wholly inside the render area; what lies past the attachment does not count. -/
def PassDesc.wholeState (d : PassDesc) (x y : Nat) : Bool :=
  decide (d.areaX ≤ x / 32 * 32) && decide (min (x / 32 * 32 + 32) d.width ≤ d.endX) &&
    decide (d.areaY ≤ y / 32 * 32) && decide (min (y / 32 * 32 + 32) d.height ≤ d.endY)

/-- The clear value of an attachment. -/
def PassDesc.clearValue (d : PassDesc) (a : Attachment) : List Byte := (d.clears.getD a.clearIdx []).take (formatBytes a.format)

/-- The bytes with which one sample of a tile is loaded. `again` says that a flush stored the tile before (R116). -/
def State.loadSample (who : Requester) (k : CtxKey) (d : PassDesc) (again : Bool) (v : Nat) (i : Nat) (a : Attachment)
    (x y smp : Nat) (s : State) : Except (FaultKind × Nat) (List Byte) × State :=
  if again ∨ a.loadOp = 0 then s.showSample who k d a x y smp
  else if a.loadOp = 2 then
    (.ok ((List.range (formatBytes a.format)).map fun b => Config.tileByte v (((y * 16384 + x) * 8 + smp) * 256 + 16 * i + b)), s)
  else if a.tst = 0 then (.ok (d.clearValue a), s)
  else if d.wholeState x y ∨ !(d.inArea x y) then s.showSample who k d a x y smp
  else (.ok (d.clearValue a), s)

/-- Whether every state tile of a tile is CLEARED, and no pixel of it takes another value at the load (R120). -/
def State.loadedCleared (who : Requester) (k : CtxKey) (r : PassRun) (again : Bool) (a : Attachment) (t : Nat) (s : State) : Bool :=
  a.tst != 0 && (again || a.loadOp != 2) && (r.pixels t false).all fun p =>
    (match (s.readNum who k (r.desc.entryVa a p.1 p.2) 2).1 with
      | .ok e => tstState e == 0
      | .error _ => false) &&
    (again || a.loadOp != 1 || r.desc.wholeState p.1 p.2 || !(r.desc.inArea p.1 p.2))

/-- Bytes put into a cluster's tile memory. -/
def State.putTile (c addr : Nat) (bs : List Byte) (s : State) : State :=
  s.modCluster c fun cl => { cl with tileMem := writeBytes addr bs cl.tileMem }

/-- Bytes of a cluster's tile memory. -/
def State.getTile (s : State) (c addr n : Nat) : List Byte :=
  match s.clusters[c]? with
  | some cl => readBytes cl.tileMem addr n
  | none => List.replicate n 0

/-- A tile loaded into tile memory with its guard band: every attachment, every sample. -/
def State.loadTile (c : Nat) (k : CtxKey) (r : PassRun) (slot : TileSlot) (s : State) : Acc :=
  let who := Requester.engine (.cluster c)
  let again := r.flushed.contains slot.tile
  let (v, s) := s.fresh
  let work := r.desc.attachments.flatMap fun ia => (r.pixels slot.tile true).flatMap fun p =>
    (List.range r.desc.samples).map fun smp => (ia, p, smp)
  inTurn (fun (x : (Nat × Attachment) × (Nat × Nat) × Nat) (s : State) =>
    let ((i, a), (px, py), smp) := x
    match s.loadSample who k r.desc again v i a px py smp with
    | (.error f, s) => (some (f.1, false, f.2), s)
    | (.ok bs, s) => (none, s.putTile c (r.sampleAt slot i px py smp) (takePad 0 (attSize i a) bs))) work s

/-! ## Storing a tile (R120, R121) -/

/-- A sample of the tile written to memory. -/
def State.storeSample (c : Nat) (k : CtxKey) (r : PassRun) (slot : TileSlot) (i : Nat) (a : Attachment) (x y smp : Nat)
    (s : State) : Acc :=
  s.put (.engine (.cluster c)) k (r.desc.pixelVa a x y smp) (s.getTile c (r.sampleAt slot i x y smp) (formatBytes a.format))

/-- The quadrants of 16 × 16 pixels that a tile meets, by their first pixel. -/
def PassRun.quadrants (r : PassRun) (t : Nat) : List (Nat × Nat) :=
  (r.pixels t false).filter fun p => p.1 % 16 == 0 && p.2 % 16 == 0

/-- The pixels of a quadrant that exist. -/
def PassDesc.quadrantPixels (d : PassDesc) (q : Nat × Nat) : List (Nat × Nat) :=
  (List.range 16).flatMap fun j => (List.range 16).filterMap fun i =>
    if q.1 + i < d.width ∧ q.2 + j < d.height then some (q.1 + i, q.2 + j) else none

/-- All samples of some pixels. -/
def PassDesc.samplesOf (d : PassDesc) (ps : List (Nat × Nat)) : List ((Nat × Nat) × Nat) :=
  ps.flatMap fun p => (List.range d.samples).map fun smp => (p, smp)

/-- A quadrant's pixels outside the render area take the clear value before its bit is set (R121). -/
def State.fillOutside (c : Nat) (k : CtxKey) (d : PassDesc) (a : Attachment) (e : Nat) (q : Nat × Nat) (s : State) : Acc :=
  let who := Requester.engine (.cluster c)
  match s.slotValue who k a (tstIdx e) with
  | (.error f, s) => (some (f.1, false, f.2), s)
  | (.ok bs, s) =>
    inTurn (fun (x : (Nat × Nat) × Nat) (s : State) => s.put who k (d.pixelVa a x.1.1 x.1.2 x.2) bs)
      (d.samplesOf ((d.quadrantPixels q).filter fun p => !(d.inArea p.1 p.2))) s

/-- One quadrant of an attachment stored, and its table entry updated (R120, R121). -/
def State.storeQuadrant (c : Nat) (k : CtxKey) (r : PassRun) (slot : TileSlot) (i : Nat) (a : Attachment) (q : Nat × Nat)
    (s : State) : Acc :=
  let d := r.desc
  let who := Requester.engine (.cluster c)
  let inside := (d.quadrantPixels q).filter fun p => d.inArea p.1 p.2
  let store := fun (s : State) =>
    inTurn (fun (x : (Nat × Nat) × Nat) (s : State) => s.storeSample c k r slot i a x.1.1 x.1.2 x.2) (d.samplesOf inside) s
  if inside.isEmpty then (none, s)
  else if a.tst = 0 then store s
  else
    let mark := fun (e : Nat) (s : State) => s.put who k (d.entryVa a q.1 q.2) (toLE 2 e)
    let full := decide (inside.length = (d.quadrantPixels q).length)
    match s.readNum who k (d.entryVa a q.1 q.2) 2 with
    | (.error f, s) => (some (f.1, false, f.2), s)
    | (.ok e, s) =>
      let bit := quadrant q.1 q.2
      match store s with
      | (some f, s) => (some f, s)
      | (none, s) =>
        if full ∧ r.tileW % 32 = 0 ∧ r.tileH % 32 = 0 ∧ d.wholeState q.1 q.2 then mark (tstEntry 2 (tstIdx e) (tstQ e)) s
        else if full then mark (tstMark e bit) s
        else if tstHolds e bit then (none, s)
        else
          match s.fillOutside c k d a e q with
          | (some f, s) => (some f, s)
          | (none, s) => mark (tstMark e bit) s

/-- The samples of a pixel resolved to one: what they all hold, else a free value (log entry 35). -/
def resolveBytes (v n : Nat) (xs : List (List Byte)) : List Byte :=
  match xs with
  | [] => []
  | b :: bs => if bs.all fun y => decide (y = b) then b else (List.range n).map fun j => Config.resolveByte v j

/-- A pixel of an attachment resolved into its resolve surface. -/
def State.resolvePixel (who : Requester) (k : CtxKey) (d : PassDesc) (a : Attachment) (xs : List (List Byte)) (x y : Nat)
    (s : State) : Acc :=
  let (v, s) := s.fresh
  s.put who k ((({ d.surf a with base := a.resolve } : Surf).texel 0 0 0 x y).1) (resolveBytes v (formatBytes a.format) xs)

/-- An attachment of a tile stored under its STORE_OP; a flush stores every one (R116, R120). -/
def State.storeAttachment (c : Nat) (k : CtxKey) (r : PassRun) (slot : TileSlot) (ia : Nat × Attachment) (s : State) : Acc :=
  let (i, a) := ia
  let untouched := !slot.touched && slot.cleared.getD i false
  let stores := (slot.flush || a.storeOp == 0 || a.storeOp == 2) && !untouched
  let resolves := !slot.flush && decide (2 ≤ a.storeOp)
  match (if stores then inTurn (fun q (s : State) => s.storeQuadrant c k r slot i a q) (r.quadrants slot.tile) s else (none, s)) with
  | (some f, s) => (some f, s)
  | (none, s) =>
    if !resolves then (none, s)
    else
      inTurn (fun (p : Nat × Nat) (s : State) =>
        let xs := (List.range r.desc.samples).map fun smp => s.getTile c (r.sampleAt slot i p.1 p.2 smp) (formatBytes a.format)
        s.resolvePixel (.engine (.cluster c)) k r.desc a xs p.1 p.2)
        ((r.pixels slot.tile false).filter fun p => r.desc.inArea p.1 p.2) s

/-! ## Depth and stencil (R108) -/

/-- A compare function of DEPTH_FUNC on what `less` and `equal` give. -/
def testFunc (f : Nat) (less equal : Bool) : Bool :=
  match f with
  | 0 => false
  | 1 => less
  | 2 => equal
  | 3 => less || equal
  | 4 => !less && !equal
  | 5 => !equal
  | 6 => !less
  | _ => true

/-- A depth in its stored form against the stored depth. -/
def depthPasses (f format new old : Nat) : Bool :=
  if format = 0x21 then
    let x := f32.value new
    let y := f32.value old
    if x = .nan ∨ y = .nan then f == 7 || f == 5 else testFunc f (fLess x y) (fEq x y)
  else testFunc f (decide (new < old)) (decide (new = old))

/-- A stencil operation (R108). -/
def stencilOp (op old ref : Nat) : Nat :=
  match op with
  | 0 => old
  | 1 => 0
  | 2 => ref
  | 3 => min 255 (old + 1)
  | 4 => old - 1
  | 5 => 255 - old
  | 6 => (old + 1) % 256
  | _ => (old + 255) % 256

/-- The tests of one sample on its depth and stencil word: whether it passes, and the word afterwards. -/
def testSample (d : PassDesc) (w : Draw) (k : Nat) (depth : Word) (old : Nat) : Bool × Nat :=
  let bits := if d.depth.format = 0x21 then 32 else if d.depth.format = 0x20 then 16 else 24
  let oldZ := old % 2 ^ bits
  let oldS := if bits = 24 then fld old 31 24 else 0
  let z := depthBits k d.depth.format depth.toNat
  let sOk := !d.stencilEn || testFunc w.sFunc (decide (w.sRef &&& w.sMask < oldS &&& w.sMask)) (decide (w.sRef &&& w.sMask = oldS &&& w.sMask))
  let zOk := !d.depthEn || depthPasses w.depthFunc d.depth.format z oldZ
  let newS :=
    if !d.stencilEn then oldS
    else if !sOk then stencilOp w.sFail oldS w.sRef
    else if zOk then stencilOp w.sPass oldS w.sRef
    else [oldS, stencilOp w.sFail oldS w.sRef, stencilOp w.sPass oldS w.sRef].getD (Config.depthFailStencil k % 3) oldS
  let ok := sOk && zOk
  let newZ := if ok ∧ d.depthEn ∧ w.depthWrite then z else oldZ
  (ok, if bits = 24 then newZ + at' newS 24 else newZ)

/-! ## Blending (R108) -/

/-- A blend factor of one channel. -/
def blendFactor (code : Nat) (src dst : List FVal) (i : Nat) : FVal :=
  let one := fun v => fAdd .nearest fOne (fNeg v)
  match code with
  | 0 => fZero
  | 1 => fOne
  | 2 => src.getD i fZero
  | 3 => one (src.getD i fZero)
  | 4 => src.getD 3 fZero
  | 5 => one (src.getD 3 fZero)
  | 6 => dst.getD i fZero
  | 7 => one (dst.getD i fZero)
  | 8 => dst.getD 3 fZero
  | _ => one (dst.getD 3 fZero)

/-- One channel blended; minimum and maximum take no factors. -/
def blendChannel (b : Blend) (k : Nat) (src dst : List FVal) (i : Nat) : FVal :=
  let x := src.getD i fZero
  let y := dst.getD i fZero
  let sx := fMul x (blendFactor b.src src dst i)
  let dy := fMul y (blendFactor b.dst src dst i)
  match b.op with
  | 0 => fAdd .nearest sx dy
  | 1 => fAdd .nearest sx (fNeg dy)
  | 2 => fAdd .nearest dy (fNeg sx)
  | 3 => fMin k x y
  | _ => fMax k x y

/-- A sample of a colour attachment after a fragment's colour: blended where the entry and the format allow it, then
written in the channels of WRITE_MASK. Intermediate results are exact; the stored value is one of the two nearest (log
entry 31). -/
def blendSample (b : Blend) (f k : Nat) (colour : List Word) (old : Nat) : Nat :=
  let src := colour.map fun w => f32.value w.toNat
  let dst := (List.range 4).map fun i => f32.value (texelChannel k f false old 0 0 i)
  let out := if b.enable ∧ !(uintFormat f) then (List.range 4).map (blendChannel b k src dst) else src
  putChannels k f b.mask.toNat out (colour.map fun w => w.toNat) old

/-! ## Retirement -/

/-- Where fragments retire: in the tile memory of a cluster, or in memory through a cluster's render-output slice. -/
inductive Home where
  | tile (c : Nat) (slot : TileSlot)
  | memory (slice : Nat)

/-- The cluster at which fragments retire. -/
def Home.cluster : Home → Nat
  | .tile c _ => c
  | .memory c => c

/-- In DIRECT, the first fragment that retires into a CLEARED or PARTIAL state tile makes memory hold all of it: its uncovered pixels
take the clear value, and it is WRITTEN (R122). -/
def State.expand (slice : Nat) (k : CtxKey) (d : PassDesc) (a : Attachment) (x y : Nat) (s : State) : Acc :=
  let who := Requester.engine (.cluster slice)
  if a.tst = 0 then (none, s)
  else
    match s.readNum who k (d.entryVa a x y) 2 with
    | (.error f, s) => (some (f.1, false, f.2), s)
    | (.ok e, s) =>
      if tstState e = 2 then (none, s)
      else
        match s.slotValue who k a (tstIdx e) with
        | (.error f, s) => (some (f.1, false, f.2), s)
        | (.ok bs, s) =>
          let ps := (List.range 32).flatMap fun j => (List.range 32).filterMap fun i =>
            let px := x / 32 * 32 + i
            let py := y / 32 * 32 + j
            if px < d.width ∧ py < d.height ∧ !(tstHolds e (quadrant px py)) then some (px, py) else none
          match inTurn (fun (q : (Nat × Nat) × Nat) (s : State) => s.put who k (d.pixelVa a q.1.1 q.1.2 q.2) bs) (d.samplesOf ps) s with
          | (some f, s) => (some f, s)
          | (none, s) => s.put who k (d.entryVa a x y) (toLE 2 (tstEntry 2 (tstIdx e) (tstQ e)))

/-- A sample of an attachment where fragments retire. -/
def State.fetchSample (h : Home) (k : CtxKey) (r : PassRun) (i : Nat) (a : Attachment) (x y smp : Nat) (s : State) :
    Except (FaultKind × Nat) Nat × State :=
  match h with
  | .tile c slot => (.ok (ofLE (s.getTile c (r.sampleAt slot i x y smp) (attSize i a))), s)
  | .memory c => s.readNum (.engine (.cluster c)) k (r.desc.pixelVa a x y smp) (formatBytes a.format)

/-- A sample of an attachment changed where fragments retire. -/
def State.writeSample (h : Home) (k : CtxKey) (r : PassRun) (i : Nat) (a : Attachment) (x y smp v : Nat) (s : State) : Acc :=
  match h with
  | .tile c slot => (none, s.putTile c (r.sampleAt slot i x y smp) (toLE (attSize i a) v))
  | .memory c => s.put (.engine (.cluster c)) k (r.desc.pixelVa a x y smp) (toLE (formatBytes a.format) v)

/-- The samples of a mask. -/
def PassDesc.covered (d : PassDesc) (m : BitVec 8) : List Nat := (List.range d.samples).filter fun b => m.toNat.testBit b

/-- Depth and stencil tests of a fragment's samples: the samples that pass, or the fault. -/
def State.testFragment (h : Home) (k : CtxKey) (r : PassRun) (w : Draw) (x y : Nat) (depth : Word) : List Nat → State →
    Except (FaultKind × Bool × Nat) (List Nat) × State
  | [], s => (.ok [], s)
  | smp :: rest, s =>
    match s.fetchSample h k r 8 r.desc.depth x y smp with
    | (.error f, s) => (.error (f.1, false, f.2), s)
    | (.ok old, s) =>
      let (v, s) := s.fresh
      let (ok, new) := testSample r.desc w v depth old
      match (if new = old then (none, s) else s.writeSample h k r 8 r.desc.depth x y smp new) with
      | (some f, s) => (.error f, s)
      | (none, s) =>
        match s.testFragment h k r w x y depth rest with
        | (.error f, s) => (.error f, s)
        | (.ok ok', s) => (.ok (if ok then smp :: ok' else ok'), s)

/-- The tests of a fragment, where the pass has a depth or stencil attachment; in DIRECT its state tile is expanded
first. -/
def State.testSamples (h : Home) (k : CtxKey) (r : PassRun) (w : Draw) (x y : Nat) (depth : Word) (m : BitVec 8) (s : State) :
    Except (FaultKind × Bool × Nat) (List Nat) × State :=
  let smps := r.desc.covered m
  if !r.desc.usesDepth ∨ smps.isEmpty then (.ok smps, s)
  else
    match (match h with
      | .memory c => s.expand c k r.desc r.desc.depth x y
      | .tile _ _ => (none, s)) with
    | (some f, s) => (.error f, s)
    | (none, s) => s.testFragment h k r w x y depth smps

/-- A fragment retires (R129, R130): tested unless its draw was tested before shading, then blended. -/
def State.retireFragment (h : Home) (k : CtxKey) (r : PassRun) (f : Fragment) (s : State) : Acc :=
  match r.desc.draws[f.draw]? with
  | none => (none, s)
  | some w =>
    if f.killed ∨ !(r.desc.inArea f.x f.y) then (none, s)
    else
      match (if w.lateZ then s.testSamples h k r w f.x f.y f.depth f.samples else (.ok (r.desc.covered f.samples), s)) with
      | (.error e, s) => (some e, s)
      | (.ok smps, s) =>
        inTurn (fun (c : Nat × List Word) (s : State) =>
          match r.desc.colours[c.1]? with
          | none => (none, s)
          | some a =>
            if r.desc.rtCount ≤ c.1 ∨ smps.isEmpty then (none, s)
            else
              match (match h with
                | .memory sl => s.expand sl k r.desc a f.x f.y
                | .tile _ _ => (none, s)) with
              | (some e, s) => (some e, s)
              | (none, s) =>
                inTurn (fun (smp : Nat) (s : State) =>
                  match s.fetchSample h k r c.1 a f.x f.y smp with
                  | (.error e, s) => (some (e.1, false, e.2), s)
                  | (.ok old, s) =>
                    let (v, s) := s.fresh
                    let b := w.blends.getD c.1 { enable := false, src := 0, dst := 0, op := 0, mask := 0 }
                    s.writeSample h k r c.1 a f.x f.y smp (blendSample b a.format v c.2 old)) smps s) f.colours s

end Sys2Proof.Machine
end

