-- ==== Sys2Proof/Machine/Pixels.lean ====
section
/-! DEFINITION. Tile lists read back, rasterisation into quads and pixel groups, and the fragment input block (R115, R118,
R121, R165). Which samples a primitive covers, and its interpolated values, are free (log entry 33). -/

namespace Sys2Proof.Machine

/-! ## Quads -/

/-- The four pixels of a quad, in lane order (log entry 45). -/
def quadPixels (qx qy : Nat) : List (Nat × Nat) := [(qx, qy), (qx + 1, qy), (qx, qy + 1), (qx + 1, qy + 1)]

/-- The covered samples of a quad in the pixels that a test allows: fragments arise only inside the render area (R121). -/
def quadMask (job : Nat) (d : PassDesc) (seq : BitVec 32) (place qx qy : Nat) (ok : Nat → Nat → Bool) : Nat :=
  let c := Config.coverage job seq.toNat place (qx, qy)
  sumN ((enumFrom 0 (quadPixels qx qy)).map fun x =>
    if d.inArea x.2.1 x.2.2 ∧ ok x.2.1 x.2.2 then (c / 2 ^ (8 * x.1) % 2 ^ d.samples) * 2 ^ (8 * x.1) else 0)

/-- A value of a fragment (R118). -/
def fragWord (job : Nat) (seq : BitVec 32) (place : Nat) (p : Nat × Nat) (i : Nat) : Word :=
  BitVec.ofNat 32 (Config.fragValue job seq.toNat place p i)

/-- The quads of a primitive among some places. -/
def quadsOf (job : Nat) (d : PassDesc) (seq : BitVec 32) (front : Bool) (place : Nat) (ok : Nat → Nat → Bool)
    (qs : List (Nat × Nat)) : List Quad :=
  qs.filterMap fun q =>
    let m := quadMask job d seq place q.1 q.2 ok
    if m = 0 then none
    else some
      { qx := q.1, qy := q.2, seq := seq, mask := BitVec.ofNat 32 m, front := front, place := place,
        vals := (quadPixels q.1 q.2).map fun p => (fragWord job seq place p 0, fragWord job seq place p 1, fragWord job seq place p 2) }

/-- The even places of the quads that meet a tile with its guard band. -/
def PassRun.quadPlaces (r : PassRun) (t : Nat) : List (Nat × Nat) :=
  let (ox, oy) := r.origin t
  let h := r.desc.halo
  let lo := fun (o : Nat) => (o - h) / 2 * 2
  (List.range ((oy + r.tileH + h - lo oy + 1) / 2)).flatMap fun j =>
    (List.range ((ox + r.tileW + h - lo ox + 1) / 2)).map fun i => (lo ox + 2 * i, lo oy + 2 * j)

/-- Whether a pixel lies in a tile or its guard band. -/
def PassRun.inTile (r : PassRun) (t x y : Nat) : Bool :=
  let (ox, oy) := r.origin t
  let h := r.desc.halo
  decide (ox ≤ x + h) && decide (x < ox + r.tileW + h) && decide (oy ≤ y + h) && decide (y < oy + r.tileH + h)

/-- Quads cut into groups of eight; the fuel is their number. -/
def groupsOf (draw : Nat) : Nat → List Quad → List PixelGroup
  | 0, _ => []
  | n + 1, qs => if qs.isEmpty then [] else { draw := draw, quads := qs.take 8 } :: groupsOf draw n (qs.drop 8)

/-! ## Tile lists (R113, R115) -/

/-- The primitive entries of a chunk: draw and record, up to the first entry that is none. -/
def chunkEntries (bs : List Byte) : List (Nat × Nat) :=
  (((List.range 15).map fun i => ofLE (bs.drop (8 * i) |>.take 8)).takeWhile fun e => fld e 63 62 == 0).map fun e =>
    (fld e 47 32, fld e 31 0)

/-- The entries of a chain of chunks; the fuel bounds its length. -/
def State.readChain (who : Requester) (k : CtxKey) (pb : Nat) : Nat → Nat → State →
    Except (FaultKind × Nat) (List (Nat × Nat)) × State
  | 0, _, s => (.ok [], s)
  | n + 1, c, s =>
    if c = 0 then (.ok [], s)
    else
      match s.readVa who k (pb + 16 * c) 128 with
      | (.error f, s) => (.error f, s)
      | (.ok bs, s) =>
        let last := ofLE (bs.drop 120)
        match State.readChain who k pb n (if fld last 63 62 = 2 then fld last 31 0 else 0) s with
        | (.error f, s) => (.error f, s)
        | (.ok es, s) => (.ok (chunkEntries bs ++ es), s)

/-- The pixel groups of the primitives of a tile list. -/
def State.listGroups (who : Requester) (k : CtxKey) (job : Nat) (r : PassRun) (t : Nat) : List (Nat × Nat) → State →
    Except (FaultKind × Nat) (List PixelGroup) × State
  | [], s => (.ok [], s)
  | (draw, place) :: es, s =>
    match s.readVa who k (r.desc.pbAddr + 16 * place) 16 with
    | (.error f, s) => (.error f, s)
    | (.ok bs, s) =>
      let seq := BitVec.ofNat 32 (ofLE (bs.take 4))
      let qs := quadsOf job r.desc seq (bitOf (ofLE (bs.drop 4 |>.take 4)) 24) place (r.inTile t) (r.quadPlaces t)
      match State.listGroups who k job r t es s with
      | (.error f, s) => (.error f, s)
      | (.ok gs, s) => (.ok (groupsOf draw qs.length qs ++ gs), s)

/-- The pixel groups of a tile, in list order. -/
def State.tileGroups (who : Requester) (k : CtxKey) (job : Nat) (r : PassRun) (t : Nat) (s : State) :
    Except (FaultKind × Nat) (List PixelGroup) × State :=
  match s.readNum who k (r.desc.pbAddr + 0x210000 + 8 * t) 8 with
  | (.error f, s) => (.error f, s)
  | (.ok h, s) =>
    match s.readChain who k r.desc.pbAddr (r.refs + 1) (fld h 31 0) with
    | (.error f, s) => (.error f, s)
    | (.ok es, s) => s.listGroups who k job r t es

/-! ## The fragment input block (R118) -/

/-- The place of a lane: its quad and its pixel in it. -/
def PixelGroup.lane (g : PixelGroup) (l : Nat) : Option (Quad × Nat) := (g.quads[l / 4]?).map fun q => (q, l % 4)

/-- The samples of a quad's pixel. -/
def Quad.samples (q : Quad) (i : Nat) : BitVec 8 := BitVec.ofNat 8 (q.mask.toNat / 2 ^ (8 * i))

/-- A lane's block of 32 bytes; a lane without a fragment has a block of zeros. -/
def PixelGroup.laneBlock (g : PixelGroup) (l : Nat) : List Byte :=
  match g.lane l with
  | none => List.replicate 32 0
  | some (q, i) =>
    let p := (quadPixels q.qx q.qy).getD i (0, 0)
    let v := q.vals.getD i (0, 0, 0)
    toLE 4 (p.1 % 65536 + at' (p.2 % 65536) 16) ++ toLE 4 q.place ++ toLE 4 v.1.toNat ++ toLE 4 v.2.1.toNat ++
      toLE 4 ((q.samples i).toNat + at' (b2n q.front) 8 + at' (g.draw % 65536) 16) ++ toLE 4 v.2.2.toNat ++ toLE 8 0

/-- The fragment input block of a group. -/
def PixelGroup.block (g : PixelGroup) : List Byte := laneIds.flatMap g.laneBlock

/-- The render-output slice that owns a pixel: 16 × 16 regions of the render area dealt in turn, row by row (R129). -/
def PassRun.sliceOf (r : PassRun) (x y : Nat) : Nat :=
  let across := ceilDiv (r.desc.endX - r.desc.areaX) 16
  let region := (y - r.desc.areaY) / 16 * across + (x - r.desc.areaX) / 16
  r.slices.getD (region % max 1 r.slices.length) 0

end Sys2Proof.Machine
end

