-- ==== Sys2Proof/Machine/Kernels.lean ====
section
/-! DEFINITION. Kernels on clusters: dealing workgroups (R71, R72, R75), tiles and pixel groups of a batch (R105, R106, R116,
R118, R120, R129, R130), KERNEL_DISPATCH, the end of a group and of a cluster's share (R82, R89, R90, R173). -/

namespace Sys2Proof.Machine

/-! ## New groups -/

/-- The lowest free slot for a group. -/
def Cluster.freeSlot (cl : Cluster) : Nat := ((List.range 64).find? fun i => !(cl.groups.any fun g => g.slot == i)).getD 64

/-- The partition with the fewest groups, the lowest number on a tie (R72). -/
def Cluster.leastPart (cl : Cluster) : Nat :=
  let n := fun p => countIf (fun g : Group => g.part == p) cl.groups
  (List.range 4).foldl (fun best p => if n p < n best then p else best) 0

/-- The vector registers of a new group: thread indices in V0 to V2, zeros elsewhere (R75), lanes that hold no thread included
(log entry 133). `count` is how many threads of the workgroup exist. -/
def startVectors (d : KernelDesc) (vregs index count : Nat) : List (List Word) :=
  let lane := fun (f : Nat → Nat) => laneIds.map fun l =>
    let t := 32 * index + l
    if t < count then BitVec.ofNat 32 (f t) else 0
  takePad (List.replicate 32 0) vregs
    [lane fun t => t % d.wgX, lane fun t => t / d.wgX % d.wgY, lane fun t => t / (d.wgX * d.wgY)]

/-- The scalar registers of a new group (R75). -/
def startScalars (args x y z index : Nat) : List Word :=
  takePad 0 64 ([args % 2 ^ 32, args / 2 ^ 32, x, y, z, index].map fun v => BitVec.ofNat 32 v)

/-- The predicate registers of a new group: P0 all ones, P1 the lanes that hold a thread (R75). -/
def startPredicates (index count : Nat) : List Word :=
  takePad 0 8 [0xFFFFFFFF, maskBy fun l => decide (32 * index + l < count)]

/-- A new group (R71, R75). -/
def newGroup (cl : Cluster) (d : KernelDesc) (wg index count args x y z : Nat) (draw : Nat) (quads : List Quad) : Group :=
  { slot := cl.freeSlot, wg := wg, index := index, part := cl.leastPart, pc := BitVec.ofNat 64 d.code,
    v := startVectors d d.vregs index count, s := startScalars args x y z index, p := startPredicates index count,
    st := .running, parked := false, pend := none, rays := [], draw := draw, quads := quads, sent := [], depths := [],
    last := false }

/-- A workgroup placed on a cluster, group by group; its local shared memory reads 0 (R71, R72, R75). -/
def Cluster.place (cl : Cluster) (d : KernelDesc) (wg x y z count : Nat) (lds : Memory) (draw : Nat) (quads : List Quad) : Cluster :=
  let cl := (List.range d.groups).foldl (fun (c : Cluster) i =>
    { c with groups := c.groups ++ [newGroup c d wg i count d.args x y z draw quads] }) cl
  { cl with wgs := cl.wgs ++ [{ id := wg, x := x, y := y, z := z, lds := lds, bytes := d.ldsKib * 1024, alive := d.groups }] }

/-! ## Dealing workgroups -/

/-- The threads of workgroup w of a geometry batch of some vertices: one thread for each vertex (R117). -/
def batchThreads (d : KernelDesc) (w count : Nat) : Nat := min d.threads (count - w * d.threads)

/-- The next workgroup of the share placed, if one is left and the cluster has room (R72, R173). -/
def State.dealOne (c : Nat) (s : State) : Option State :=
  match s.clusters[c]? with
  | none => none
  | some cl =>
    match cl.run with
    | none => none
    | some r =>
      if r.desc.resident ≤ cl.wgs.length then none
      else
        let d := r.desc
        let own := fun (count total : Nat) =>
          if total ≤ r.nextWg then none
          else
            let w := r.nextWg
            some (s.modCluster c fun cl =>
              { cl.place d w (w % d.gridX) (w / d.gridX % d.gridY) (w / (d.gridX * d.gridY)) count [] 0 [] with
                run := some { r with nextWg := w + 1 } })
        match r.work.kind with
        | .kernel =>
          match s.job? r.work.job with
          | none => none
          | some j =>
            match j.kind with
            | .kernel _ next done total =>
              if total ≤ next then none
              else
                let s := s.modJob j.id fun j => { j with kind := .kernel d (next + 1) done total }
                let s := s.modCluster c fun cl =>
                  cl.place d next (next % d.gridX) (next / d.gridX % d.gridY) (next / (d.gridX * d.gridY)) d.threads [] 0 []
                some (if next + 1 = total then s.modSluice fun l => { l with ready := l.ready.filter fun w => decide (w ≠ r.work) } else s)
            | _ => none
        | .geomBatch _ _ _ count _ => own (batchThreads d r.nextWg count) (ceilDiv count d.threads)
        | .kernelLayer l =>
          match (s.job? r.work.job).bind Job.run? with
          | none => none
          | some n =>
            let w := n.nextWg l
            if d.workgroups ≤ w ∨ !(n.left.contains l) then none
            else
              let s := s.modRun r.work.job fun n => n.dealt_ l (w + 1)
              let s := s.modCluster c fun cl =>
                cl.place d w (w % d.gridX) (w / d.gridX % d.gridY) (w / (d.gridX * d.gridY)) d.threads [] 0 []
              some (if w + 1 = d.workgroups then s.modSluice fun l => { l with ready := l.ready.filter fun w => decide (w ≠ r.work) } else s)
        | _ => none

/-- Workgroups dealt while there is room; at most 64 groups are resident. -/
def State.deal (c : Nat) : Nat → State → State
  | 0, s => s
  | n + 1, s =>
    match s.dealOne c with
    | some s => s.deal c n
    | none => s

/-! ## Pixel groups -/

/-- The kernel with which a pixel group runs: its draw's code and ARGS, the allocation of R106. -/
def PassRun.pixelDesc (r : PassRun) (draw : Nat) : KernelDesc :=
  let ks := r.kernels.map (·.2)
  let own := (ks.getD draw { code := 0, args := 0, vregs := 0, ldsKib := 0, wgX := 0, wgY := 0, wgZ := 0, gridX := 0, gridY := 0, gridZ := 0 }).asPixel
  let args := match r.desc.draws[draw]? with
    | some w => w.args
    | none => 0
  { own with args := args, vregs := maxN (ks.map fun d => d.vregs), ldsKib := maxN (ks.map fun d => d.ldsKib) }

/-- The quads in flight on a cluster (R129). -/
def Cluster.quadsLive (cl : Cluster) : List Quad := (cl.groups.filter fun g => !g.last).flatMap fun g => g.quads

/-- Whether two quads are the same place. -/
def Quad.meets (a b : Quad) : Bool := a.qx == b.qx && a.qy == b.qy

/-- The tile that a cluster shades. -/
def Cluster.shading (cl : Cluster) : Option TileSlot := cl.tiles.find? fun t => decide (t.phase = .shading)

/-- The quads of a group whose draw is tested before shading, tested in order: only the samples that pass stay covered
(R108, R129). -/
def State.testEarly (h : Home) (k : CtxKey) (r : PassRun) (w : Draw) : List Quad → State →
    Except (FaultKind × Bool × Nat) (List Quad) × State
  | [], s => (.ok [], s)
  | q :: qs, s =>
    let each := (enumFrom 0 (quadPixels q.qx q.qy)).foldl (fun (acc : Except (FaultKind × Bool × Nat) Nat × State) x =>
      match acc with
      | (.error f, s) => (.error f, s)
      | (.ok m, s) =>
        match s.testSamples h k r w x.2.1 x.2.2 ((q.vals.getD x.1 (0, 0, 0)).2.2) (q.samples x.1) with
        | (.error f, s) => (.error f, s)
        | (.ok smps, s) => (.ok (m + sumN (smps.map fun b => 2 ^ (8 * x.1 + b))), s)) (.ok 0, s)
    match each with
    | (.error f, s) => (.error f, s)
    | (.ok m, s) =>
      match State.testEarly h k r w qs s with
      | (.error f, s) => (.error f, s)
      | (.ok qs, s) => (.ok ({ q with mask := BitVec.ofNat 32 m } :: qs), s)

/-- A tile was written by a fragment. -/
def State.touchTile (c : Nat) (s : State) : State :=
  s.modCluster c fun cl => { cl with tiles := cl.tiles.map fun t => if t.phase = .shading then { t with touched := true } else t }

/-- The next pixel group started, when the cluster has room, the scoreboard has room, its quads are dispatched (R130), and,
for a draw that is tested before shading, nothing earlier is outstanding on its quads (R129). -/
def State.startPixel (c : Nat) (s : State) : Option State :=
  match s.clusters[c]? with
  | none => none
  | some cl =>
    match cl.run with
    | none => none
    | some r =>
      match r.pix, s.passRun? r.work.job with
      | pg :: rest, some run =>
        let d := run.pixelDesc pg.draw
        let live := cl.quadsLive
        let early : Bool := match run.desc.draws[pg.draw]? with
          | some w => !w.lateZ
          | none => false
        let waits := pg.quads.any fun q => run.expect.any fun e => e.2.qx == q.qx && e.2.qy == q.qy && e.2.seq == q.seq
        if d.resident ≤ cl.wgs.length ∨ 512 < live.length + pg.quads.length ∨ waits ∨
            (early ∧ !run.direct ∧ pg.quads.any fun q => live.any fun x => x.meets q) then none
        else
          let tested : List Quad × State :=
            match run.desc.draws[pg.draw]?, cl.shading with
            | some w, some slot =>
              if w.lateZ ∨ run.direct then (pg.quads, s)
              else match s.testEarly (.tile c slot) r.key run w pg.quads with
                | (.ok qs, s) => (qs, s.touchTile c)
                | (.error _, s) => (pg.quads, s)
            | _, _ => (pg.quads, s)
          let (qs, s) := tested
          let pg := { pg with quads := qs }
          some (s.modCluster c fun cl =>
            { cl.place d r.nextWg r.nextWg 0 0 32 (writeBytes 0 pg.block []) pg.draw qs with
              run := some { r with nextWg := r.nextWg + 1, pix := rest } })
      | _, _ => none

/-- Pixel groups started while they can be. -/
def State.startPixels (c : Nat) : Nat → State → State
  | 0, s => s
  | n + 1, s =>
    match s.startPixel c with
    | some s => s.startPixels c n
    | none => s

/-! ## Tiles of a batch -/

/-- Where the next tile lies in tile memory, if the cluster may take one: a second tile is shaded while the first waits
for its tile network, in the other half (R166). -/
def Cluster.tilePlace (cl : Cluster) (r : PassRun) (bytes : Nat) : Option Nat :=
  match cl.tiles with
  | [] => some 0
  | [t] => if r.desc.tileNet ≠ 0 ∧ r.phase ≠ .flush ∧ t.phase ≠ .shading ∧ 2 * bytes ≤ 262144 then some (if t.off = 0 then 131072 else 0) else none
  | _ => none

/-- The next tile of a tile batch taken: loaded, and its list read. -/
def State.nextTile (c : Nat) (s : State) : State :=
  match s.clusters[c]? with
  | none => s
  | some cl =>
    match cl.run with
    | none => s
    | some kr =>
      match kr.todo, s.passRun? kr.work.job with
      | t :: rest, some r =>
        let bytes := r.desc.tileBytes r.tileW r.tileH
        match cl.tilePlace r bytes with
        | none => s
        | some off =>
          if !kr.pix.isEmpty ∨ !cl.groups.isEmpty then s
          else
            let who := Requester.engine (.cluster c)
            let slot : TileSlot :=
              { job := kr.work.job, tile := t, off := off, bytes := bytes, phase := .shading, touched := false,
                flush := decide (r.phase = .flush), grant := none,
                cleared := (List.range 9).map fun i => (r.desc.attachments.find? fun ia => ia.1 == i).elim false fun ia =>
                  s.loadedCleared who kr.key r (r.flushed.contains t) ia.2 t }
            match s.loadTile c kr.key r slot with
            | (some f, s) => s.clusterFault c kr.work.job f.1 f.2.1 f.2.2
            | (none, s) =>
              match s.tileGroups who kr.key kr.work.job r t with
              | (.error f, s) => s.clusterFault c kr.work.job f.1 false f.2
              | (.ok gs, s) => s.modCluster c fun cl =>
                  { cl with tiles := cl.tiles ++ [slot], run := some { kr with pix := gs, todo := rest } }
      | _, _ => s

/-- A tile all of whose groups have ended is retired (R166, step 1); a pass with a tile network then has that tile's network
to run, except in a partial flush (R116). -/
def State.retireTile (c : Nat) (s : State) : State :=
  match s.clusters[c]? with
  | none => s
  | some cl =>
    if !cl.groups.isEmpty ∨ !(cl.run.elim true fun r => r.pix.isEmpty) then s
    else
      let done := cl.tiles.filter fun t => decide (t.phase = .shading)
      let nets := done.filterMap fun t => match s.passRun? t.job with
        | some r => if r.desc.tileNet ≠ 0 ∧ !t.flush then some ({ job := t.job, kind := .tileNet t.tile } : Work) else none
        | none => none
      (s.modCluster c fun cl =>
        { cl with tiles := cl.tiles.map fun t => if t.phase = .shading then { t with phase := .retired } else t }).addReady nets

/-- What a cluster does whenever something of its share has ended: it starts what it can. -/
def State.proceed (c : Nat) (s : State) : State :=
  match s.clusters[c]?.bind (·.run) with
  | none => s
  | some r =>
    match r.work.kind with
    | .tileBatch _ =>
      let s := ((s.startPixels c 64).retireTile c).nextTile c
      (s.startPixels c 64).retireTile c
    | .pixelBatch _ => s.startPixels c 64
    | _ => s.deal c 64

/-! ## KERNEL_DISPATCH (R74, R75, R89, R105) -/

/-- A share begins: the L1 is invalidated, nothing of an earlier kernel stays (R75, R89). -/
def State.beginRun (c : Nat) (r : KernelRun) (s : State) : State :=
  (s.modCluster c fun cl =>
    { cl with run := some r, stopJob := none, wgs := [], groups := [], l1 := [], tiles := [], tileMem := [],
              core := { cl.core with busy := true, armed := false } }).proceed c

/-- Where the argument block of a geometry batch lies, by its staging half (R113, R117; log entry 46). -/
def PassDesc.argBlock (d : PassDesc) (half : Nat) : Nat := d.pbAddr + 0x100 + 0x100 * half

/-- KERNEL_DISPATCH: a cluster takes the entry at the head of its ring. -/
def execKernelDispatch (c : Nat) (s : State) : Res :=
  match s.headWork (.cluster c), s.clusters[c]? with
  | some (w, k), some cl =>
    if cl.run.isSome then .next s
    else
      let begin_ := fun (d : KernelDesc) (pix : List PixelGroup) (todo : List Nat) (s : State) =>
        s.beginRun c { work := w, key := k, desc := d, nextWg := 0, pix := pix, todo := todo }
      match s.job? w.job with
      | none => .next s
      | some j =>
        match j.kind, w.kind with
        | .kernel d _ _ _, .kernel => .next (begin_ d [] [] s)
        | .pass _ (some r), .geomBatch draw _ _ _ half =>
          match r.kernels[draw]? with
          | some ks => .next (begin_ { ks.1 with args := r.desc.argBlock half, gridX := 0xFFFFFFFF, gridY := 1, gridZ := 1 } [] [] s)
          | none => .next s
        | .pass _ (some r), .tileBatch ts => .next (begin_ (r.pixelDesc 0) [] ts s)
        | .pass _ (some r), .pixelBatch half =>
          let pix := (r.pix.filter fun x => x.1 == half).flatMap fun x => x.2
          .next (begin_ (r.pixelDesc 0) pix [] (s.modPass j.id fun r => { r with pix := r.pix.filter fun x => x.1 != half }))
        | .net run, .kernelLayer l =>
          match s.net? j.key run.handle with
          | none => .next s
          | some n =>
            match s.layerKernel (.engine (.cluster c)) k n run.binds l with
            | (.error f, s) => .next (s.netFault j.id l (engineIsland (.cluster c)) f.1 f.2.1 false f.2.2)
            | (.ok d, s) =>
              let s := if run.executed = 0 then s.modRun j.id fun r => if r.startStamp = 0 then { r with startStamp := s.count 0x63 } else r else s
              .next (begin_ d [] [] s)
        | _, _ => .next s
  | _, _ => .next s

/-! ## The end of a group (R82, R130) -/

/-- A barrier at which every group of a workgroup now waits completes: its groups go on (R81, R82). -/
def Cluster.releaseBarriers (wg : Nat) (cl : Cluster) : Cluster :=
  let mine := cl.groups.filter fun g => g.wg == wg
  let n := mine.length
  let done := (List.range 8).filter fun b => decide (0 < n) && mine.all fun g => decide (g.st = .barrier b)
  { cl with groups := cl.groups.map fun g => match g.st with
      | .barrier b => if g.wg = wg ∧ done.contains b then { g with st := .running } else g
      | _ => g }

/-- The fragments of a group whose lanes are killed where a test says so, in the order of its quads (R130, R131). -/
def Group.fragments (g : Group) (killed : Nat → Bool) : List (Quad × List Fragment) :=
  (enumFrom 0 g.quads).map fun x =>
    (x.2, (enumFrom 0 (quadPixels x.2.qx x.2.qy)).map fun p =>
      let l := 4 * x.1 + p.1
      { killed := killed l, x := p.2.1, y := p.2.2, samples := x.2.samples p.1, front := x.2.front,
        depth := match g.depths.find? fun d => d.1 == l with
          | some d => d.2
          | none => (x.2.vals.getD p.1 (0, 0, 0)).2.2,
        draw := g.draw, colours := (g.sent.filter fun c => c.1 == l).map fun c => c.2 })

/-- The fragments of a group sent: retired in the tile memory, or on their way to the slices (R129, R130). -/
def State.sendFragments (c : Nat) (run : KernelRun) (g : Group) (killed : Nat → Bool) (s : State) : State :=
  match s.clusters[c]?, s.passRun? run.work.job with
  | some cl, some r =>
    if r.direct then
      s.modPass run.work.job fun p =>
        { p with flying := p.flying ++ (g.fragments killed).map fun x =>
            (p.sliceOf x.1.qx x.1.qy, { at_ := { job := run.work.job, qx := x.1.qx, qy := x.1.qy, seq := x.1.seq }, frags := x.2 }) }
    else
      match cl.shading with
      | none => s
      | some slot =>
        let fs := (g.fragments killed).flatMap fun x => x.2
        let s := if fs.any fun f => !f.killed then s.touchTile c else s
        fs.foldl (fun s f => (s.retireFragment (.tile c slot) run.key r f).2) s
  | _, _ => s

/-- A group has ended: its barriers' counts fall, its workgroup may end, and the cluster goes on (R82, R130). -/
def State.groupEnd (c : Nat) (run : KernelRun) (g : Group) (s : State) : State :=
  let s := if g.quads.isEmpty ∨ g.last then s else s.sendFragments c run g fun _ => true
  let s := s.modCluster c fun cl =>
    let cl := { cl with groups := cl.groups.filter fun x => x.slot != g.slot }
    let cl := cl.releaseBarriers g.wg
    { cl with wgs := (cl.wgs.map fun w => if w.id = g.wg then { w with alive := w.alive - 1 } else w).filter fun w => w.alive != 0 }
  let allGone := match s.clusters[c]? with
    | some cl => !(cl.wgs.any fun w => w.id == g.wg)
    | none => true
  let s := if allGone then s.modJob run.work.job fun j => match j.kind with
      | .kernel d next done total => { j with kind := .kernel d next (done + 1) total }
      | _ => j
    else s
  s.proceed c

/-! ## The end of a share (R89, R90, R153, R173) -/

/-- Whether nothing of a share is left on a cluster. -/
def State.shareOver (s : State) (cl : Cluster) (r : KernelRun) : Bool :=
  cl.groups.isEmpty && cl.wgs.isEmpty && r.pix.isEmpty && r.todo.isEmpty && cl.tiles.isEmpty &&
    match r.work.kind with
    | .kernel => match s.job? r.work.job with
      | some j => match j.kind with
        | .kernel _ next _ total => decide (total ≤ next)
        | _ => true
      | none => true
    | .geomBatch _ _ _ count _ => decide (ceilDiv count r.desc.threads ≤ r.nextWg)
    | .kernelLayer l => match (s.job? r.work.job).bind Job.run? with
      | some n => decide (r.desc.workgroups ≤ n.nextWg l) || !(n.left.contains l)
      | none => true
    | _ => true

/-- A layer of a run has completed: with the last of its group the next group starts, with the last group the run is over
(R153, R161, R162). -/
def State.layerDone (job layer : Nat) (e : Engine) (s : State) : State :=
  match s.job? job with
  | none => s
  | some j =>
    match j.run? with
    | none => s
    | some r =>
      match s.net? j.key r.handle with
      | none => s
      | some n =>
        let left := dropFirst (fun l => l == layer) r.left
        let s := s.modRun job fun r => { r with left := left, executed := r.executed + 1 }
        if !left.isEmpty ∨ r.faulted then s
        else if r.group + 1 < n.groupIds.length then s.startGroup job n (r.group + 1)
        else (s.modRun job fun r => { r with running := false, endStamp := s.count 0x63 }).completeJob job e

/-- Whether every share of a work is over, on all clusters. -/
def State.sharesOver (s : State) (w : Work) : Bool := s.clusters.all fun cl => decide (cl.run.map (·.work) ≠ some w)

/-- What the end of a share means for its job. -/
def State.shareEnded (c : Nat) (r : KernelRun) (s : State) : State :=
  let e := Engine.cluster c
  match r.work.kind with
  | .kernel =>
    match s.job? r.work.job with
    | some j => match j.kind with
      | .kernel _ _ done total =>
        if done = total ∧ s.sharesOver r.work then s.completeJob j.id e else s
      | _ => s
    | none => s
  | .kernelLayer l =>
    match (s.job? r.work.job).bind Job.run? with
    | some n => if n.left.contains l ∧ r.desc.workgroups ≤ n.nextWg l ∧ s.sharesOver r.work then s.layerDone r.work.job l e else s
    | none => s
  | .geomBatch _ _ _ _ _ => s.modPass r.work.job fun p => { p with geom := p.geom.map fun g => if g.1 = r.work.kind then (g.1, true) else g }
  | _ => s.modPass r.work.job fun p => { p with live := p.live.filter fun w => decide (w ≠ r.work.kind) }

/-- CLUSTER_UNIT_END: the last group of a share has ended and the write-back of the L1 is complete (R89, R173). -/
def execClusterUnitEnd (c : Nat) (s : State) : Res :=
  match s.clusters[c]? with
  | none => .next s
  | some cl =>
    match cl.run with
    | none => .next s
    | some r =>
      if !(s.shareOver cl r) ∨ cl.core.sw.isSome ∨ !(s.islandUp (engineIsland (.cluster c))) ∨
          (s.flight.any fun a => decide (a.who = .engine (.cluster c))) then .next s
      else
        let s := s.flushL1 c
        let s := s.modCluster c fun cl => { cl with run := none, stopJob := none, tileMem := [] }
        let s := (s.retire (.cluster c) r.key).endUnit (.cluster c) r.key
        .next (s.shareEnded c r)

end Sys2Proof.Machine
end

