-- ==== Sys2Proof/Machine/HeithControl.lean ====
section
/-! DEFINITION. The control instructions of Heith (R77, R81 to R83, R91, R98, R102) and the unassigned opcodes (R94). -/

namespace Sys2Proof.Machine

def execSkip (c g : Nat) (w : HWord) (s : State) : Res :=
  .next (s.issue shape0 (fun _ g s => .go (g.advance w) s) c g w)

/-- CEDE is a hint to the order of issue, which the commands give (R102). -/
def execCede (c g : Nat) (w : HWord) (s : State) : Res :=
  .next (s.issue shape0 (fun _ g s => .go (g.advance w) s) c g w)

/-- END: the group ends, whatever its predicate (R82). -/
def execEndGroup (c g : Nat) (w : HWord) (s : State) : Res :=
  .next (s.issue shape0 (fun i g s => .done (s.groupEnd i.c i.run g)) c g w)

/-! ## Branches (R77) -/

/-- A uniform branch: taken in all lanes, skipped in all, or BRANCH_MIXED with the lanes in which it would be taken. -/
def branch (w : HWord) (taken : Group → Group) (g : Group) (s : State) : GStep :=
  let m := g.active w
  if m = 0xFFFFFFFF then .go (taken g) s
  else if m = 0 then .go (g.advance w) s
  else .fault { kind := .branchMixed, addr := 0, lanes := m, write := false, atomic := false } s

/-- The target of JUMP and CALL: a signed offset from the next instruction (R100). -/
def Group.jumpTo (g : Group) (w : HWord) : Group :=
  { g with pc := BitVec.ofNat 64 (((Int.ofNat (g.advance w).pc.toNat + extOffset w) % 2 ^ 64).toNat) }

def jumpShape : Shape := { shape0 with ext := .branch }

def execJump (c g : Nat) (w : HWord) (s : State) : Res :=
  .next (s.issue jumpShape (fun _ g s => branch w (fun g => g.jumpTo w) g s) c g w)

/-- CALL writes the address of the next instruction to S40:S41. -/
def execCall (c g : Nat) (w : HWord) (s : State) : Res :=
  .next (s.issue jumpShape (fun _ g s =>
    branch w (fun g => (g.putScas (g.advance w).pc.toNat 40 2).jumpTo w) g s) c g w)

def retShape : Shape := { shape0 with s0 := { kind := .scalar, regs := 2, align := 2 } }

def execRet (c g : Nat) (w : HWord) (s : State) : Res :=
  .next (s.issue retShape (fun _ g s =>
    branch w (fun g => { g with pc := BitVec.ofNat 64 (g.srcs retShape w 0).a }) g s) c g w)

/-! ## Barriers and ordering -/

def syncShape : Shape := { shape0 with mod := fun m => decide (m < 8) }

/-- SYNC n: the group waits at barrier n of its workgroup, past the instruction, until every group that has not ended
waits there (R81). The accesses made before are already performed (R83). -/
def execSync (c g : Nat) (w : HWord) (s : State) : Res :=
  .next (s.issue syncShape (fun i g s =>
    let g := { g.advance w with st := .barrier (w.mode.toNat % 8) }
    .done ((s.putGroup i.c g).modCluster i.c (Cluster.releaseBarriers g.wg))) c g w)

def orderShape : Shape := { shape0 with mod := fun m => decide (m < 4) }

/-- ORDER of a scope (R91), whatever the lanes: it is the group's (log entry 134). A store of the model is performed when its instruction is; DEVICE writes the L1 back and
invalidates it; SYSTEM then waits for a read of the host, unless the link is down. -/
def execOrder (c g : Nat) (w : HWord) (s : State) : Res :=
  .next (s.issue orderShape (fun i g s =>
    match w.mode.toNat with
    | 2 => .go (g.advance w) (s.emptyL1 i.c)
    | 3 =>
      let s := s.emptyL1 i.c
      if s.pcie.linkUp then
        let (tag, s) := s.issueRead i.run.key.fn (.order i.c g.slot) 0 0
        .go { g.advance w with st := .flush tag } s
      else .go (g.advance w) s
    | _ => .go (g.advance w) s) c g w)

/-! ## Stops -/

/-- DBGSTOP faults with BREAKPOINT in its active lanes (R94, R102); the group keeps the instruction, past which a replay
goes (R96). -/
def execDbgstop (c g : Nat) (w : HWord) (s : State) : Res :=
  .next (s.issue shape0 (fun i g s =>
    let act := g.active w
    if act = 0 then .go (g.advance w) s
    else
      .stall (s.groupFault i.c i.run { g with pend := some { op := 0x0B, w := w, va := 0, lanes := act } }
        { kind := .breakpoint, addr := 0, lanes := act, write := false, atomic := false })) c g w)

/-- A shape that no word fits. -/
def noShape : Shape := { shape0 with mod := fun _ => false }

/-- An unassigned opcode faults with ILLEGAL_INSTR in its active lanes (R76, R94, R102). -/
def execUnassignedInstruction (c g : Nat) (_op : BitVec 8) (w : HWord) (s : State) : Res :=
  .next (s.issue noShape (fun _ g s => .go g s) c g w)

end Sys2Proof.Machine
end

