-- ==== Sys2Proof/Machine/TileMem.lean ====
section
/-! DEFINITION. The tile memory and render-output instructions (R129, R131), the render-output slices (R130) and the store of
a tile (R116, R120). -/

namespace Sys2Proof.Machine

/-! ## TILERD and TILEWR -/

/-- MOD of TILERD and TILEWR: [2:0] attachment, [3] depth and stencil. -/
def tileMod (m : Nat) : Bool := decide (m < 16)

/-- The registers of a lane's data: four, or depth and stencil. -/
def tileRegs (w : HWord) : Nat := if bitOf w.mode.toNat 3 then 2 else 4

def vecSrc (n : Nat) : SrcUse := { kind := .vector, regs := n, align := n }

def tilerdShape (w : HWord) : Shape :=
  { shape0 with dks := [0], mod := tileMod, s1 := vecSrc 1, dregs := tileRegs w, dalign := tileRegs w }

def tilewrShape (w : HWord) : Shape := { shape0 with mod := tileMod, s0 := vecSrc (tileRegs w), s1 := vecSrc 1 }

/-- The pixel of a lane, if it is one of the tile. -/
def Group.pixel (g : Group) (r : PassRun) (t l : Nat) : Option (Nat × Nat) :=
  match g.quads[l / 4]? with
  | none => none
  | some q =>
    let p := (quadPixels q.qx q.qy).getD (l % 4) (0, 0)
    if r.inTile t p.1 p.2 ∧ p.1 < r.desc.width ∧ p.2 < r.desc.height then some p else none

/-- Whether an earlier group has a fragment of one of this group's quads outstanding (R129). -/
def Cluster.blocked (cl : Cluster) (g : Group) : Bool :=
  cl.groups.any fun x => decide (x.wg < g.wg) && !x.last && x.quads.any fun a => g.quads.any fun b => a.meets b

/-- The attachment that MOD selects, with its number. -/
def PassDesc.selected (d : PassDesc) (m : Nat) : Option (Nat × Attachment) :=
  let i := if bitOf m 3 then 8 else m % 8
  d.attachments.find? fun a => a.1 == i

/-- An instruction on tile memory: only in a tile batch of a BINNED pass, and in turn (R129, R131). -/
def inTileBatch (i : Issuer) (g : Group) (w : HWord) (s : State) (f : PassRun → TileSlot → GStep) : GStep :=
  match i.run.work.kind, s.passRun? i.run.work.job, s.clusters[i.c]? with
  | .tileBatch _, some r, some cl =>
    match cl.shading with
    | none => .stall s
    | some slot => if cl.blocked g then .stall s else f r slot
  | _, _, _ => .fault { kind := .illegalInstr, addr := 0, lanes := g.active w, write := false, atomic := false } s

/-- Four words of an attachment's sample as a register block, low word first; depth and stencil for attachment 8. -/
def sampleWords (k i f v : Nat) : Nat :=
  if i = 8 then depthValue k f v + 2 ^ 32 * (if f = 0x22 then fld v 31 24 else 0)
  else sumN ((List.range 4).map fun ch => texelChannel k f false v 0 0 ch * 2 ^ (32 * ch))

/-- TILERD. A sample or an attachment that does not exist reads as a free value (log entry 47). -/
def execTilerd (c g : Nat) (w : HWord) (s : State) : Res :=
  .next (s.issue (tilerdShape w) (fun i g s =>
    inTileBatch i g w s fun r slot =>
      let (k, s) := s.fresh
      let sh := tilerdShape w
      .go ((g.putResult sh w fun l =>
        let smp := (g.srcs sh w l).b
        let free := Config.texWord (64 * k + l) % 2 ^ (32 * tileRegs w)
        match g.pixel r slot.tile l, r.desc.selected w.mode.toNat with
        | some p, some (n, a) =>
          if smp < r.desc.samples then
            sampleWords (256 * k + 8 * l) n a.format (ofLE (s.getTile i.c (r.sampleAt slot n p.1 p.2 smp) (attSize n a)))
          else free
        | _, _ => free).advance w) s) c g w)

/-- The bytes that TILEWR gives a sample. -/
def tileData (k n : Nat) (a : Attachment) (v old : Nat) : Nat :=
  if n = 8 then
    let z := depthBits k a.format (v % 2 ^ 32)
    if a.format = 0x22 then z + at' (v / 2 ^ 32 % 256) 24 else z
  else
    let ws := (List.range 4).map fun ch => v / 2 ^ (32 * ch) % 2 ^ 32
    putChannels k a.format 15 (ws.map fun x => f32.value x) ws old

/-- TILEWR: each active lane's data into the samples of its mask. -/
def execTilewr (c g : Nat) (w : HWord) (s : State) : Res :=
  .next (s.issue (tilewrShape w) (fun i g s =>
    inTileBatch i g w s fun r slot =>
      let sh := tilewrShape w
      match r.desc.selected w.mode.toNat with
      | none => .go (g.advance w) s
      | some (n, a) =>
        let s := runAll (fun l (s : State) =>
          match g.pixel r slot.tile l with
          | none => s
          | some p =>
            runAll (fun smp (s : State) =>
              let (k, s) := s.fresh
              let at_ := r.sampleAt slot n p.1 p.2 smp
              let old := ofLE (s.getTile i.c at_ (attSize n a))
              s.putTile i.c at_ (toLE (attSize n a) (tileData k n a (g.srcs sh w l).a old)))
              ((List.range r.desc.samples).filter fun b => (g.srcs sh w l).b.testBit b) s)
          (lanesOf (g.active w)) s
        .go (g.advance w) (s.touchTile i.c)) c g w)

/-! ## EMIT -/

def emitShape (w : HWord) : Shape :=
  { shape0 with mod := fun _ => true, s0 := vecSrc 4, s1 := if bitOf w.mode.toNat 4 then vecSrc 1 else srcNone }

/-- What an EMIT adds to its active lanes: a colour for an attachment, and a depth. -/
def Group.emit (g : Group) (w : HWord) : Group :=
  let sh := emitShape w
  let att := w.mode.toNat % 8
  let ls := lanesOf (g.active w)
  let sent := (g.sent.filter fun x => !(ls.contains x.1 && x.2.1 == att)) ++ ls.map fun l =>
    (l, att, (List.range 4).map fun ch => BitVec.ofNat 32 ((g.srcs sh w l).a / 2 ^ (32 * ch)))
  let depths := if bitOf w.mode.toNat 4 then
      (g.depths.filter fun x => !(ls.contains x.1)) ++ ls.map fun l => (l, BitVec.ofNat 32 (g.srcs sh w l).b)
    else g.depths
  { g with sent := sent, depths := depths }

/-- EMIT: in a tile batch in turn; with LAST every lane's fragment is sent, those of inactive lanes killed (R131). A group
that has sent its LAST, and one that shades no fragment, sends nothing more. -/
def execEmit (c g : Nat) (w : HWord) (s : State) : Res :=
  .next (s.issue (emitShape w) (fun i g s =>
    match s.clusters[i.c]? with
    | none => .stall s
    | some cl =>
      if g.quads.isEmpty ∨ g.last then .go (g.advance w) s
      else if cl.shading.isSome ∧ cl.blocked g then .stall s
      else
        let act := g.active w
        let g := (g.emit w).advance w
        if bitOf w.mode.toNat 3 then
          let s := s.putGroup i.c { g with last := true }
          .done ((s.sendFragments i.c i.run g fun l => !(act.toNat.testBit l)).proceed i.c)
        else .go g s) c g w)

/-! ## Render-output slices (R129, R130) -/

/-- Quads of a pass that was tested before shading, with the masks that are left. -/
def putMask (qs : List Quad) (gs : List PixelGroup) : List PixelGroup :=
  let left := fun (q : Quad) =>
    match qs.find? fun x => x.meets q && x.seq == q.seq with
    | some x => { q with mask := x.mask }
    | none => q
  gs.map fun g => { g with quads := g.quads.map left }

/-- The quad of a pass at a place with a number, waiting to be shaded. -/
def State.waitingQuad (s : State) (r : PassRun) (e : SliceExpect) : Option (Nat × Quad) :=
  let all := (r.pix.flatMap fun x => x.2) ++ s.clusters.flatMap (fun (c : Cluster) => match c.run with
    | some k => if k.work.job = e.job then k.pix else []
    | none => [])
  all.findSome? fun g => (g.quads.find? fun q => q.qx == e.qx && q.qy == e.qy && q.seq == e.seq).map fun q => (g.draw, q)

/-- QUAD_DISPATCH: the next quad of a DIRECT pass goes to its shading cluster, when its slice has a free entry (R130). A
quad of a draw that is tested before shading is tested now, once nothing earlier is expected there (R129). -/
def execQuadDispatch (f slice qx qy : Nat) (seq : BitVec 32) (s : State) : Res :=
  match s.fronts[f]?.bind (·.job), s.clusters[slice]? with
  | some job, some cl =>
    match s.passRun? job, s.jobKey job with
    | some r, some k =>
      match r.expect with
      | [] => .next s
      | (sl, e) :: rest =>
        if (sl, e) ≠ (slice, { job := job, qx := qx, qy := qy, seq := seq }) ∨ cl.free = 0 ∨ !(s.runsCtx k && s.jobRuns k job) then .next s
        else
          let go := fun (s : State) =>
            let s := s.modPass job fun p => { p with expect := rest }
            let s := s.modCluster slice fun c => { c with free := c.free - 1, slice := c.slice ++ [e] }
            runAll (fun c (s : State) => s.proceed c) ((List.range 48).filter fun c => match s.clusters[c]?.bind (·.run) with
              | some x => x.work.job == job
              | none => false) s
          match s.waitingQuad r e with
          | none => .next (go s)
          | some (draw, q) =>
            match r.desc.draws[draw]? with
            | none => .next (go s)
            | some w =>
              if w.lateZ ∨ !r.desc.usesDepth then .next (go s)
              else if cl.slice.any fun x => x.job == e.job && x.qx == qx && x.qy == qy then .next s
              else
                match s.testEarly (.memory slice) k r w [q] with
                | (.error x, s) => .next (s.clusterFault slice job x.1 x.2.1 x.2.2)
                | (.ok qs, s) =>
                  let s := s.modPass job fun p => { p with pix := p.pix.map fun x => (x.1, putMask qs x.2) }
                  .next (go { s with clusters := s.clusters.map fun c => { c with run := c.run.map fun x =>
                    if x.work.job = job then { x with pix := putMask qs x.pix } else x } })
    | _, _ => .next s
  | _, _ => .next s

/-- The entries of a slice that are at the head of their quad's queue and have arrived retire in order (R130); a fault
leaves the entry where it is. -/
def State.drainSlice (slice : Nat) : Nat → State → State
  | 0, s => s
  | n + 1, s =>
    match s.clusters[slice]? with
    | none => s
    | some cl =>
      let head := fun (e : SliceExpect) =>
        (cl.slice.find? fun x => x.job == e.job && x.qx == e.qx && x.qy == e.qy) == some e
      let ready := fun (b : SliceEntry) => head b.at_ && (match s.jobKey b.at_.job with
          | some k => s.runsCtx k && s.jobRuns k b.at_.job && !(s.sluice.reports.any fun r => decide (r.job = some b.at_.job))
          | none => false)
      match cl.buf.find? ready with
      | none => s
      | some b =>
        match s.passRun? b.at_.job, s.jobKey b.at_.job with
        | some r, some k =>
          match inTurn (fun f (s : State) => s.retireFragment (.memory slice) k r f) b.frags s with
          | (some x, s) => s.clusterFault slice b.at_.job x.1 x.2.1 x.2.2
          | (none, s) =>
            (s.modCluster slice fun c =>
              { c with slice := dropFirst (fun x => decide (x = b.at_)) c.slice,
                       buf := dropFirst (fun x => decide (x = b)) c.buf, free := c.free + 1 }).drainSlice slice n
        | _, _ => s

/-- FRAGMENT_ARRIVE: the fragments of a quad reach their slice (R130). -/
def execFragmentArrive (slice qx qy : Nat) (seq : BitVec 32) (s : State) : Res :=
  let mine := fun (x : Nat × SliceEntry) => x.1 == slice && x.2.at_.qx == qx && x.2.at_.qy == qy && x.2.at_.seq == seq
  let from_ := s.jobs.findSome? fun j => match s.passRun? j.id with
    | some r => (r.flying.find? mine).map fun e => (j.id, e)
    | none => none
  match from_ with
  | none => .next s
  | some (job, e) =>
    let s := s.modPass job fun p => { p with flying := dropFirst (fun x => decide (x = e)) p.flying }
    .next ((s.modCluster slice fun c => { c with buf := c.buf ++ [e.2] }).drainSlice slice 1025)

/-! ## TILE_STORE -/

/-- Whether a tile of a cluster may be stored: its fragments have retired and its tile network, if it runs one, has
released it (R116, R166). -/
def TileSlot.storable (t : TileSlot) (r : PassRun) : Bool :=
  t.grant.isNone && (decide (t.phase = .written) || (decide (t.phase = .retired) && (r.desc.tileNet == 0 || t.flush)))

/-- TILE_STORE: a cluster stores a tile, and takes the next of its batch (R120, R121). -/
def execTileStore (c tile : Nat) (s : State) : Res :=
  match s.clusters[c]? with
  | none => .next s
  | some cl =>
    match cl.run, cl.tiles.find? (fun t => t.tile == tile) with
    | some kr, some slot =>
      match s.passRun? kr.work.job with
      | none => .next s
      | some r =>
        if !(slot.storable r) ∨ !(s.runsCtx kr.key && s.jobRuns kr.key kr.work.job) ∨ cl.core.sw.isSome then .next s
        else
          match inTurn (fun ia (s : State) => s.storeAttachment c kr.key r slot ia) r.desc.attachments s with
          | (some f, s) => .next (s.clusterFault c kr.work.job f.1 f.2.1 f.2.2)
          | (none, s) =>
            let s := s.modCluster c fun cl =>
              { cl with tiles := cl.tiles.filter fun t => t.tile != tile, tileMem := clearSpan slot.off slot.bytes cl.tileMem }
            .next (s.proceed c)
    | _, _ => .next s

end Sys2Proof.Machine
end

