-- ==== Sys2Proof/Machine/Assemble.lean ====
section
/-! DEFINITION. Primitive assembly at the geometry front ends (R107, R115, R117, R165): the primitives of a completed geometry batch by the
draw's topology, clipped, culled, numbered and given their tiles, and their records. -/

namespace Sys2Proof.Machine

/-! ## Topology (R107, R117) -/

/-- The vertices that one primitive of a topology takes (R108). -/
def topoVerts (t : Nat) : Nat := [3, 3, 2, 1].getD t 1

/-- The primitives that so many consecutive vertices make. -/
def topoPrims (t n : Nat) : Nat :=
  match t with
  | 0 => n / 3
  | 1 => n - 2
  | 2 => n / 2
  | _ => n

/-- The primitives of an instance (R107). -/
def Draw.prims (d : Draw) : Nat := topoPrims d.topology d.vertices

/-- The vertices of a primitive among those of an instance. A strip's triangles turn the same way: every second one takes its
second and third vertex in the other order (log entry 141). -/
def topoCorners (t i : Nat) : List Nat :=
  match t with
  | 0 => [3 * i, 3 * i + 1, 3 * i + 2]
  | 1 => if i % 2 = 0 then [i, i + 1, i + 2] else [i, i + 2, i + 1]
  | 2 => [2 * i, 2 * i + 1]
  | _ => [i]

/-- The number within its instance of the first primitive of a batch: the one whose first vertex is the batch's. -/
def topoFirst (t first : Nat) : Nat :=
  match t with
  | 0 => first / 3
  | 2 => first / 2
  | _ => first

/-- The number of a primitive: by draw, instance and primitive (R107). -/
def PassDesc.seqOf (d : PassDesc) (draw inst prim : Nat) : BitVec 32 :=
  let own := match d.draws[draw]? with
    | some w => w.prims
    | none => 0
  BitVec.ofNat 32 (sumN ((d.draws.take draw).map fun w => w.instances * w.prims) + inst * own + prim)

/-- A geometry batch as its work names it: draw, instance, first vertex, vertices, staging half. -/
structure BatchAt where
  draw  : Nat
  inst  : Nat
  first : Nat
  count : Nat
  half  : Nat

/-- The primitives of a batch, in order: number within the instance, and vertices by their places in the staging half. -/
def BatchAt.corners (b : BatchAt) (t : Nat) : List (Nat × List Nat) :=
  (List.range (topoPrims t b.count)).map fun i =>
    let n := topoFirst t b.first + i
    (n, (topoCorners t n).map fun x => x - b.first)

/-! ## Staged vertices (R113, R117) -/

/-- The address of a staging half (R113). -/
def PassDesc.staging (d : PassDesc) (half : Nat) : Nat := d.pbAddr + 0x10000 + half * 0x100000

/-- The dwords of a batch's staged vertices from one of them on, as the front end reads them; the fuel is how many are left. -/
def State.stagedVertices (f : Nat) (k : CtxKey) (d : PassDesc) (half dwords : Nat) : Nat → Nat → State →
    Except (FaultKind × Nat) (List (List Word)) × State
  | _, 0, s => (.ok [], s)
  | t, n + 1, s =>
    match s.readVa (.engine (.front f)) k (d.staging half + 4 * dwords * t) (4 * dwords) with
    | (.error e, s) => (.error e, s)
    | (.ok bs, s) =>
      match State.stagedVertices f k d half dwords (t + 1) n s with
      | (.error e, s) => (.error e, s)
      | (.ok vs, s) => (.ok (((List.range dwords).map fun i => BitVec.ofNat 32 (ofLE (bs.drop (4 * i) |>.take 4))) :: vs), s)

/-- The vertex block of a staged vertex: the front end's own four dwords, which follow from the staged ones, and the attributes as
they were staged (R115; log entry 48). -/
def PassDesc.vertexBlock (d : PassDesc) (v : List Word) : List Word :=
  let place := sumN ((enumFrom 0 (v.take 4)).map fun x => x.2.toNat * 2 ^ (32 * x.1))
  (List.range 4).map (fun i => BitVec.ofNat 32 (Config.screenWord place (d.width + 65536 * d.height) i)) ++ v.drop 4

/-- What clipping makes of a primitive: itself, nothing, or pieces, whose vertices are the primitive's or new ones (R107; log entry
48). -/
def clipPieces (v dwords : Nat) (own : List (List Word)) : List (List (List Word)) :=
  match Config.clipCount v with
  | 0 => [own]
  | n + 1 => (List.range n).map fun j => (List.range own.length).map fun i =>
      (own[Config.clipPick v (4 * j + i)]?).getD
        ((List.range dwords).map fun x => BitVec.ofNat 32 (Config.recordWord (v * 2 ^ 64 + 256 * j + 64 * i + x)))

/-! ## Facing, culling and tiles (R108, R165) -/

/-- The place of a vertex block in the attachment. -/
def blockAt (b : List Word) : Option (Rat × Rat) :=
  match exactOf (b.getD 0 0).toNat, exactOf (b.getD 1 0).toNat with
  | some x, some y => some (x, y)
  | _, _ => none

/-- Twice the area of a triangle, positive where it turns clockwise in screen space, whose y points down (log entry 141). -/
def triArea : List (List Word) → Option Rat
  | [a, b, c] =>
    match blockAt a, blockAt b, blockAt c with
    | some a, some b, some c => some ((b.1 - a.1) * (c.2 - a.2) - (c.1 - a.1) * (b.2 - a.2))
    | _, _, _ => none
  | _ => none

/-- Whether a piece of a primitive faces front, and whether it is dropped: culled by CULL, or, where it has no area or no place,
freely. A line and a point are not culled (log entry 48). -/
def Draw.facing (w : Draw) (v j : Nat) (bs : List (List Word)) : Bool × Bool :=
  match triArea bs with
  | some a =>
    if a = 0 then (Config.primBit v (2 * j), Config.primBit v (2 * j + 1))
    else
      let front := decide (0 < a) == w.frontCw
      (front, (w.cull == 1 && !front) || (w.cull == 2 && front))
  | none => (Config.primBit v (2 * j), w.topology < 2 && Config.primBit v (2 * j + 1))

/-- All places of a list, where each has one. -/
def allPlaces : List (List Word) → Option (List (Rat × Rat))
  | [] => some []
  | b :: bs =>
    match blockAt b, allPlaces bs with
    | some p, some ps => some (p :: ps)
    | _, _ => none

/-- The tiles that a piece enters, in ascending order: those whose extended area, the tile with HALO pixels on each side, meets its
bounding box (R112, R165). -/
def PassRun.tilesOf (r : PassRun) (v j : Nat) (bs : List (List Word)) : List Nat :=
  (List.range (r.desc.tiles r.tileW r.tileH)).filter fun t =>
    match allPlaces bs with
    | none => Config.primBit v (2 ^ 32 * (j + 1) + t)
    | some ps =>
      let (ox, oy) := r.origin t
      let meets := fun (get : Rat × Rat → Rat) (o n : Nat) =>
        (ps.any fun p => decide (get p < ((o + n + r.desc.halo : Nat) : Rat))) &&
          ps.any fun p => decide (((o : Int) - r.desc.halo : Int) ≤ get p)
      meets Prod.fst ox r.tileW && meets Prod.snd oy r.tileH

/-- The pieces of some primitives that are left after clipping and culling, in order; the pieces of one share its number (R107). -/
def PassRun.assemble (r : PassRun) (w : Draw) (blocks : List (List Word)) : List (Nat × List Nat) → State → List PrimOut × State
  | [], s => ([], s)
  | (n, cs) :: rest, s =>
    let (v, s) := s.fresh
    let pieces := clipPieces v w.vtxDwords (cs.map fun i => blocks.getD i [])
    let out := (enumFrom 0 pieces).filterMap fun x =>
      let (front, gone) := w.facing v x.1 x.2
      if gone then none else some ({ primNo := n, front := front, blocks := x.2, tiles := r.tilesOf v x.1 x.2 } : PrimOut)
    let (ps, s) := r.assemble w blocks rest s
    (out ++ ps, s)

/-- The primitives of a completed batch, read from its staging half (R117). -/
def State.assembleBatch (f : Nat) (k : CtxKey) (r : PassRun) (w : Draw) (b : BatchAt) (s : State) :
    Except (FaultKind × Nat) (List PrimOut) × State :=
  match State.stagedVertices f k r.desc b.half w.vtxDwords 0 b.count s with
  | (.error e, s) => (.error e, s)
  | (.ok vs, s) =>
    let (ps, s) := r.assemble w (vs.map r.desc.vertexBlock) (b.corners w.topology) s
    (.ok ps, s)

/-! ## Records (R115) -/

/-- The bytes of a primitive record. -/
def primBytes (verts dwords : Nat) : Nat := ceilDiv (16 + verts * dwords * 4) 16 * 16

/-- A primitive record: the header and the vertex blocks, padded. -/
def PassDesc.recordOf (d : PassDesc) (w : Draw) (b : BatchAt) (p : PrimOut) : List Byte :=
  let n := topoVerts w.topology
  let body := toLE 4 (d.seqOf b.draw b.inst p.primNo).toNat ++
    toLE 4 (b.draw % 65536 + at' w.vtxDwords 16 + at' (3 - n) 22 + at' (b2n p.front) 24) ++ toLE 4 p.primNo ++ toLE 4 b.inst ++
    p.blocks.flatMap fun x => x.flatMap fun y => toLE 4 y.toNat
  takePad 0 (primBytes n w.vtxDwords) body

/-- The primitives after culling: the pieces of one count once (R107, R113). -/
def keptPrims (ps : List PrimOut) : Nat := (ps.foldl (fun (acc : Nat × Option Nat) p =>
  (if acc.2 = some p.primNo then acc.1 else acc.1 + 1, some p.primNo)) (0, none)).1

end Sys2Proof.Machine
end

