-- ==== Sys2Proof/Machine/Pass.lean ====
section
/-! DEFINITION. Passes at the geometry front ends (R105, R107, R111 to R117, R120, R122, R139): the start of a pass, the binning or
rasterisation of a geometry batch, the partial flush and the end of the pass. -/

namespace Sys2Proof.Machine

/-! ## Helpers -/

/-- A fault that a front end met (R289: SOURCE 4). -/
def State.frontFault (f job : Nat) (e : FaultKind × Bool × Nat) (s : State) : State :=
  match s.job? job with
  | none => s
  | some j =>
    let i := engineIsland (.front f)
    (s.modFront f fun x => { x with core := { x.core with busy := false } }).report
      { kind := e.1, source := 4, write := e.2.1, atomic := false, island := i, address := e.2.2, loc := 0, lanes := 0,
        job := some job, origin := j.origin, key := j.key, restart := false, stamp := s.count i }

/-- The vertices of one geometry batch: up to 4,096, ending with a primitive; the batches of a strip share two. -/
def batchStep (t : Nat) : Nat × Nat :=
  match t with
  | 0 => (4095, 4095)
  | 1 => (4096, 4094)
  | _ => (4096, 4096)

/-- The batches of one instance of a draw from a first vertex on; the fuel bounds their number. -/
def instanceBatches (draw inst t total : Nat) : Nat → Nat → List (Nat × Nat × Nat × Nat)
  | 0, _ => []
  | n + 1, first =>
    let (size, step) := batchStep t
    if total ≤ first ∨ (t = 1 ∧ 0 < first ∧ total ≤ first + 2) then []
    else (draw, inst, first, min size (total - first)) :: instanceBatches draw inst t total n (first + step)

/-- The geometry batches of a pass in submission order (R105, R107). -/
def PassDesc.allBatches (d : PassDesc) : List (Nat × Nat × Nat × Nat) :=
  (enumFrom 0 d.draws).flatMap fun x => (List.range x.2.instances).flatMap fun i =>
    instanceBatches x.1 i x.2.topology x.2.vertices (x.2.vertices / 4094 + 1) 0

/-- Tile batches of at most BATCH_TILES tiles; the fuel is the number of tiles. -/
def tileBatches (per : Nat) : Nat → List Nat → List WorkKind
  | 0, _ => []
  | n + 1, ts => if ts.isEmpty then [] else .tileBatch (ts.take per) :: tileBatches per n (ts.drop per)

/-! ## The mode (R109, R111) -/

/-- What AUTO gives: true for DIRECT. `h` is the parameter buffer header. -/
def autoDirect (cfg : Word) (d : PassDesc) (v : Nat) (h : List Byte) (w hgt : Nat) : Bool :=
  let q := fun (o : Nat) => ofLE (h.drop o |>.take 4)
  let force := fld cfg.toNat 3 2
  if d.tileNet ≠ 0 then false
  else if force = 1 then false
  else if force = 2 then true
  else
    let n := d.tiles w hgt
    let hist := bitOf (q 4) 0 && d.signature != 0 && q 0 == d.signature.toNat && q 8 != 0
    let mean := fun (x : Nat) => if n = 0 then Config.meanOfNone v else x / n
    let most := maxN (d.draws.map fun x => x.vtxDwords)
    let pb := if hist then q 0x18 * d.vertexCount / q 8
      else d.headsEnd w hgt + d.vertexCount * (ceilDiv (16 + 12 * most) 16 * 16) + ceilDiv (d.vertexCount * 2) 15 * 128
    let ppt := if hist then mean (q 0x10 * d.vertexCount / q 8) else mean (d.vertexCount * 2)
    let budget := d.pbBudget * 65536
    if hist ∧ bitOf (q 4) 1 ∧ bitOf cfg.toNat 1 then
      decide (budget * 7 < pb * 8 % 2 ^ 64) || decide (d.pptMax * 7 < ppt * 8 % 2 ^ 64)
    else decide (budget < pb) || decide (d.pptMax < ppt)

/-! ## The start of a pass -/

/-- The commit of a front end at the start of a pass, when it is armed: the shadow applies, writes that waited follow it (R29 to
R31). -/
def FrontEnd.commit (f : FrontEnd) : FrontEnd :=
  if f.core.armed then
    { f with cfg := f.shadow, shadow := f.writes.getLast?.getD f.shadow, writes := [], core := { f.core with armed := false } }
  else f

/-- Kernel descriptors read one by one. -/
def State.readKernels (who : Requester) (k : CtxKey) : List Draw → State →
    Except (FaultKind × Nat) (List (KernelDesc × KernelDesc)) × State
  | [], s => (.ok [], s)
  | d :: ds, s =>
    match s.readVa who k d.geom 64 with
    | (.error f, s) => (.error f, s)
    | (.ok a, s) =>
      match s.readVa who k d.pixel 64 with
      | (.error f, s) => (.error f, s)
      | (.ok b, s) =>
        match State.readKernels who k ds s with
        | (.error f, s) => (.error f, s)
        | (.ok rest, s) => (.ok (({ parseKernel a with args := d.args }, { parseKernel b with args := d.args }) :: rest), s)

/-- State tiles that meet the render area, by their first pixel. -/
def PassDesc.stateTiles (d : PassDesc) : List (Nat × Nat) :=
  (List.range (ceilDiv d.endY 32)).flatMap fun y => (List.range (ceilDiv d.endX 32)).filterMap fun x =>
    if d.areaX < 32 * x + 32 ∧ d.areaY < 32 * y + 32 then some (32 * x, 32 * y) else none

/-- The pixels of the render area. -/
def PassDesc.areaPixels (d : PassDesc) : List (Nat × Nat) :=
  (List.range (d.endY - d.areaY)).flatMap fun j => (List.range (d.endX - d.areaX)).map fun i => (d.areaX + i, d.areaY + j)

/-- Clear values put into memory at pixels. -/
def State.clearPixels (who : Requester) (k : CtxKey) (d : PassDesc) (a : Attachment) (ps : List (Nat × Nat)) (s : State) : Acc :=
  inTurn (fun (x : (Nat × Nat) × Nat) (s : State) => s.put who k (d.pixelVa a x.1.1 x.1.2 x.2) (d.clearValue a)) (d.samplesOf ps) s

/-- The clears of one attachment at the start of a pass (R120, R122). A state tile only partly inside the render area keeps its
entry and its memory (log entry 50). -/
def State.clearAtStart (f : Nat) (k : CtxKey) (d : PassDesc) (direct : Bool) (a : Attachment) (s : State) : Acc :=
  let who := Requester.engine (.front f)
  if a.loadOp ≠ 1 then (none, s)
  else if a.tst = 0 then (if direct then s.clearPixels who k d a d.areaPixels else (none, s))
  else
    match s.put who k (a.tst + 16 * a.clearIdx) (d.clears.getD a.clearIdx []) with
    | (some e, s) => (some e, s)
    | (none, s) =>
      inTurn (fun (p : Nat × Nat) (s : State) =>
        if d.wholeState p.1 p.2 then s.put who k (d.entryVa a p.1 p.2) (toLE 2 (tstEntry 0 a.clearIdx 0)) else (none, s)) d.stateTiles s

/-- The clusters whose slices a DIRECT pass uses: those of the open slots that its context owns, else every enabled one (R129).
A BEST_EFFORT slot has no owner, and neither has one whose owner is gone (R176, R185). -/
def State.passSlices (s : State) (k : CtxKey) : List Nat :=
  let own := s.clustersOn.filter fun c => s.sluice.openSlots.any fun x => x.2.1.cls != 2 && x.2.2 && x.2.1.owns k && x.2.1.names (.cluster c)
  if own.isEmpty then s.clustersOn else own

/-- The tile list heads zeroed (R113, R116). -/
def State.zeroHeads (f : Nat) (k : CtxKey) (d : PassDesc) (w h : Nat) (s : State) : Acc :=
  s.put (.engine (.front f)) k (d.pbAddr + 0x210000) (List.replicate (8 * d.tiles w h) 0)

/-- The pass as it begins, or the fault that its reads and clears met. -/
def State.beginPass (f : Nat) (k : CtxKey) (cfg : Word) (va : Nat) (s : State) :
    Except (FaultKind × Bool × Nat) PassRun × State :=
  let who := Requester.engine (.front f)
  let fail := fun (e : FaultKind × Nat) => (Except.error (e.1, false, e.2) : Except (FaultKind × Bool × Nat) PassRun)
  match s.readVa who k va 512 with
  | (.error e, s) => (fail e, s)
  | (.ok bs, s) =>
    let d := parsePass bs
    match s.readVa who k d.drawList (64 * d.drawCount) with
    | (.error e, s) => (fail e, s)
    | (.ok raw, s) =>
      let d := { d with draws := (List.range d.drawCount).map fun i => parseDraw (raw.drop (64 * i) |>.take 64) }
      match State.readKernels who k d.draws s with
      | (.error e, s) => (fail e, s)
      | (.ok ks, s) =>
        match s.readVa who k d.pbAddr 256 with
        | (.error e, s) => (fail e, s)
        | (.ok hd, s) =>
          let (w, h) := (d.tileSize).getD (16, 16)
          let (v, s) := s.fresh
          let direct := d.mode == 1 || (d.mode == 2 && autoDirect cfg d v hd w h)
          match inTurn (fun (ia : Nat × Attachment) (s : State) => s.clearAtStart f k d direct ia.2) d.attachments s with
          | (some e, s) => (.error e, s)
          | (none, s) =>
            match (if direct then (none, s) else s.zeroHeads f k d w h) with
            | (some e, s) => (.error e, s)
            | (none, s) =>
              (.ok
                { desc := d, kernels := ks, direct := direct, tileW := w, tileH := h, phase := .geometry,
                  batches := d.allBatches, geom := [], live := [], pix := [], heads := [], heap := d.headsEnd w h, prims := 0,
                  refs := 0, high := d.headsEnd w h, flushes := 0, flushed := [], overflow := [], binning := false, expect := [],
                  flying := [], slices := s.passSlices k, saved := none }, s)

/-! ## Geometry batches in flight (R107, R117) -/

/-- The staging halves that are in use: those of batches in flight, and in DIRECT those that pixel groups still read
(R118). -/
def PassRun.halves (r : PassRun) : List Nat :=
  (r.geom.map (·.1) ++ r.live).filterMap fun w => match w with
    | .geomBatch _ _ _ _ h => some h
    | .pixelBatch h => some h
    | _ => none

/-- The argument block of a geometry batch (R117). -/
def PassDesc.argBytes (d : PassDesc) (half draw inst first count : Nat) : List Byte :=
  let args := match d.draws[draw]? with
    | some w => w.args
    | none => 0
  toLE 8 (d.staging half) ++ toLE 8 args ++ toLE 4 first ++ toLE 4 inst ++ toLE 4 count

/-- The next geometry batches dispatched while fewer than two are in flight; the fuel is two. -/
def State.issueBatches (f job : Nat) (k : CtxKey) : Nat → State → State
  | 0, s => s
  | n + 1, s =>
    match s.passRun? job with
    | none => s
    | some r =>
      match r.batches, (List.range 2).find? fun h => !(r.halves.contains h) with
      | (draw, inst, first, count) :: rest, some half =>
        if 2 ≤ r.geom.length then s
        else
          match s.put (.engine (.front f)) k (r.desc.argBlock half) (r.desc.argBytes half draw inst first count) with
          | (some e, s) => s.frontFault f job e
          | (none, s) =>
            let w := WorkKind.geomBatch draw inst first count half
            let s := s.modPass job fun r => { r with batches := rest, geom := r.geom ++ [(w, false)] }
            (s.addReady [{ job := job, kind := w }]).issueBatches f job k n
      | _, _ => s

/-- The tile phase: every tile of the pass in batches (R105). -/
def State.enterTiles (job : Nat) (s : State) : State :=
  match s.passRun? job with
  | none => s
  | some r =>
    let n := r.desc.tiles r.tileW r.tileH
    let ws := tileBatches r.desc.batchTiles n (List.range n)
    (s.modPass job fun r => { r with phase := .tile, live := ws }).addReady (ws.map fun w => { job := job, kind := w })

/-- What follows a batch: the next batches, or the tile phase. -/
def State.passOn (f job : Nat) (k : CtxKey) (s : State) : State :=
  match s.passRun? job with
  | none => s
  | some r =>
    if r.phase ≠ .geometry then s
    else if r.batches.isEmpty ∧ r.geom.isEmpty then (if r.direct then s else s.enterTiles job)
    else s.issueBatches f job k 2

/-- PASS_START: a front end takes the pass at the head of its ring; a pass that was switched out goes on from the state that its
front end saved, one that was parked goes on where it was (R189). -/
def execPassStart (f : Nat) (s : State) : Res :=
  match s.headWork (.front f), s.fronts[f]? with
  | some (w, k), some fe =>
    match (s.job? w.job).map Job.kind with
    | some (.pass va none) =>
      let fe := fe.commit
      let s := s.modFront f fun _ => { fe with core := { fe.core with busy := true } }
      match s.beginPass f k fe.cfg va with
      | (.error e, s) => .next (s.frontFault f w.job e)
      | (.ok r, s) =>
        let s := s.modJob w.job fun j => { j with kind := .pass va (some r) }
        let s := s.modFront f fun x =>
          { x with job := some w.job, direct := r.direct, directs := if r.direct then satInc x.directs else x.directs }
        .next (s.passOn f w.job k)
    | some (.pass _ (some r)) =>
      let s := s.modFront f fun x =>
        { x with job := some w.job, direct := r.direct, core := { x.core with busy := decide (r.phase = .flush) } }
      match (match r.saved with
        | none => (Except.ok [], s)
        | some (off, n) => s.readVa (.engine (.front f)) k (r.desc.pbAddr + off) n) with
      | (.error e, s) => .next (s.frontFault f w.job (e.1, false, e.2))
      | (.ok _, s) => .next ((s.modPass w.job fun r => { r with saved := none }).passOn f w.job k)
    | _ => .next s
  | _, _ => .next s

/-! ## Binning (R113, R115) -/

/-- The lists as they are built: the heap, the lists' ends (tile, last chunk, entries), the entries made, the highest
heap offset. -/
structure Bins where
  heap  : Nat
  heads : List (Nat × Nat × Nat)
  refs  : Nat
  high  : Nat

/-- Why binning stops: the heap is full, or a write faulted. -/
inductive BinStop where
  | full
  | fault (e : FaultKind × Bool × Nat)

/-- Bytes of the heap taken, up to a limit. -/
def Bins.alloc (b : Bins) (limit : Option Nat) (n : Nat) : Option (Nat × Bins) :=
  if (match limit with
    | some l => decide (l < b.heap + n)
    | none => false) then none
  else some (b.heap, { b with heap := b.heap + n, high := max b.high (b.heap + n) })

/-- A write of the front end in the parameter buffer, made only when the pass bins. -/
def State.putPb (f : Nat) (k : CtxKey) (d : PassDesc) (on : Bool) (off : Nat) (bs : List Byte) (s : State) : Acc :=
  if on then s.put (.engine (.front f)) k (d.pbAddr + off) bs else (none, s)

/-- The entry of a primitive, an end, and a link (R115). -/
def primEntry (draw off : Nat) : Nat := off / 16 + at' (draw % 65536) 32
def endEntry : Nat := at' 3 62
def linkEntry (off : Nat) : Nat := off / 16 + at' 2 62

/-- A new chunk with its first entry; the rest of it is ends. -/
def chunkBytes (e : Nat) : List Byte := toLE 8 e ++ (List.range 15).flatMap fun _ => toLE 8 endEntry

/-- A primitive's entry put into the list of one tile. -/
def State.binTile (f : Nat) (k : CtxKey) (d : PassDesc) (on : Bool) (limit : Option Nat) (draw off t : Nat) (b : Bins) (s : State) :
    Except BinStop Bins × State :=
  let old := (b.heads.find? fun x => x.1 == t).getD (t, 0, 0)
  let n := old.2.2
  let head := 0x210000 + 8 * t
  let keep := fun (b : Bins) (c : Nat) =>
    { b with heads := (t, c, n + 1) :: b.heads.filter (fun x => x.1 != t), refs := b.refs + 1 }
  let count := min (n + 1) 0xFFFF
  if n % 15 = 0 then
    match b.alloc limit 128 with
    | none => (.error .full, s)
    | some (c, b) =>
      match s.putPb f k d on c (chunkBytes (primEntry draw off)) with
      | (some e, s) => (.error (.fault e), s)
      | (none, s) =>
        match (if n = 0 then s.putPb f k d on head (toLE 8 (c / 16 + at' count 32))
          else match s.putPb f k d on (old.2.1 + 120) (toLE 8 (linkEntry c)) with
            | (some e, s) => (some e, s)
            | (none, s) => s.putPb f k d on (head + 4) (toLE 2 count)) with
        | (some e, s) => (.error (.fault e), s)
        | (none, s) => (.ok (keep b c), s)
  else
    match s.putPb f k d on (old.2.1 + 8 * (n % 15)) (toLE 8 (primEntry draw off)) with
    | (some e, s) => (.error (.fault e), s)
    | (none, s) =>
      match s.putPb f k d on (head + 4) (toLE 2 count) with
      | (some e, s) => (.error (.fault e), s)
      | (none, s) => (.ok (keep b old.2.1), s)

/-- A primitive's entry put into the lists of its tiles; answers the tiles that are left when it stops. -/
def State.binTiles (f : Nat) (k : CtxKey) (d : PassDesc) (on : Bool) (limit : Option Nat) (draw off : Nat) :
    List Nat → Bins → State → Option (BinStop × List Nat) × Bins × State
  | [], b, s => (none, b, s)
  | t :: ts, b, s =>
    match s.binTile f k d on limit draw off t b with
    | (.error e, s) => (some (e, t :: ts), b, s)
    | (.ok b, s) => s.binTiles f k d on limit draw off ts b

/-- The primitives of a batch binned in order; answers what is left when the heap is full (R116), or the fault. -/
def State.binPrims (f : Nat) (k : CtxKey) (d : PassDesc) (w : Draw) (b : BatchAt) : List PrimOut → Bins → State →
    Option (BinStop × List PrimOut) × Bins × State
  | [], bins, s => (none, bins, s)
  | p :: ps, bins, s =>
    if p.tiles.isEmpty then s.binPrims f k d w b ps bins
    else
      let limit := some (d.pbSize * 65536)
      match bins.alloc limit (primBytes (topoVerts w.topology) w.vtxDwords) with
      | none => (some (.full, p :: ps), bins, s)
      | some (off, bins') =>
        match s.putPb f k d true off (d.recordOf w b p) with
        | (some e, s) => (some (.fault e, p :: ps), bins, s)
        | (none, s) =>
          match s.binTiles f k d true limit b.draw off p.tiles bins' with
          | (some (e, ts), bins, s) => (some (e, { p with tiles := ts } :: ps), bins, s)
          | (none, bins, s) => s.binPrims f k d w b ps bins

/-- The lists of a run as they stand. -/
def PassRun.bins (r : PassRun) : Bins := { heap := r.heap, heads := r.heads, refs := r.refs, high := r.high }

/-- A run with lists. -/
def PassRun.withBins (r : PassRun) (b : Bins) : PassRun := { r with heap := b.heap, heads := b.heads, refs := b.refs, high := b.high }

/-- A partial flush begins: a tile phase over the tiles whose lists are not empty (R116, steps 1 and 2). -/
def PassRun.flushWorks (r : PassRun) : List WorkKind :=
  let ts := sortBy id (r.heads.map fun x => x.1)
  tileBatches r.desc.batchTiles ts.length ts

/-- Primitives of the oldest batch binned, and what follows: the batch's end, a partial flush, or a fault, which leaves the
run as it was. -/
def State.binBatch (f job : Nat) (k : CtxKey) (r : PassRun) (w : Draw) (b : BatchAt) (ps : List PrimOut) (s : State) : State :=
  match s.binPrims f k r.desc w b ps r.bins with
  | (some (.fault e, _), _, s) => s.frontFault f job e
  | (some (.full, rest), bins, s) =>
    let r := r.withBins bins
    let ws := r.flushWorks
    let s := s.modPass job fun _ => { r with phase := .flush, overflow := rest.map fun p => (b.draw, p), live := ws }
    let s := s.modFront f fun x => { x with core := { x.core with busy := true } }
    s.addReady (ws.map fun w => { job := job, kind := w })
  | (none, bins, s) =>
    let s := s.modPass job fun _ => { r.withBins bins with phase := .geometry, overflow := [], geom := r.geom.drop 1 }
    (s.endUnit (.front f) k).passOn f job k

/-! ## DIRECT rasterisation (R105, R112, R118, R130) -/

/-- The quads of a primitive in DIRECT, whose record lies at a place. -/
def directQuads (job : Nat) (r : PassRun) (b : BatchAt) (place : Nat) (p : PrimOut) : List Quad :=
  let seq := r.desc.seqOf b.draw b.inst p.primNo
  p.tiles.flatMap fun t => quadsOf job r.desc seq p.front place (r.inTile t) (r.quadPlaces t)

/-- The primitives of a batch counted as binning would have listed them (R112). -/
def countPrims (d : PassDesc) (w : Draw) (draw : Nat) (ps : List PrimOut) (b : Bins) (s : State) : Bins :=
  (ps.filter fun p => !p.tiles.isEmpty).foldl (fun (b : Bins) p =>
    match b.alloc none (primBytes (topoVerts w.topology) w.vtxDwords) with
    | none => b
    | some (off, b) => (s.binTiles 0 { fn := 0, id := 0 } d false none draw off p.tiles b).2.1) b

/-- Where the records of a DIRECT batch lie in its staging half, in 16-byte units: one after another from a free place on where the
half holds them all, else each at a free place; each wholly inside the half (log entry 36). -/
def directPlace (v total len before i : Nat) : Nat :=
  if total ≤ 65536 then Config.recordPlace v % (65536 - total + 1) + before
  else Config.recordPlace (v + i * 2 ^ 64) % (65536 - len + 1)

/-- The records of a DIRECT batch written into its staging half; answers each primitive's place, in 16-byte units from PB_ADDR
(R118). -/
def State.directRecords (f : Nat) (k : CtxKey) (d : PassDesc) (w : Draw) (b : BatchAt) (v total : Nat) : List PrimOut → Nat → State →
    Except (FaultKind × Bool × Nat) (List (PrimOut × Nat)) × State
  | [], _, s => (.ok [], s)
  | p :: ps, i, s =>
    let len := primBytes (topoVerts w.topology) w.vtxDwords / 16
    let place := (d.staging b.half - d.pbAddr) / 16 + directPlace v total len (i * len) i
    match s.put (.engine (.front f)) k (d.pbAddr + 16 * place) (d.recordOf w b p) with
    | (some e, s) => (.error e, s)
    | (none, s) =>
      match s.directRecords f k d w b v total ps (i + 1) with
      | (.error e, s) => (.error e, s)
      | (.ok rest, s) => (.ok ((p, place) :: rest), s)

/-- A DIRECT batch rasterised: its pixel groups become one pixel batch, its quads are expected at their slices in
ascending number (R105, R130). -/
def State.rasterBatch (f job : Nat) (k : CtxKey) (r : PassRun) (w : Draw) (b : BatchAt) (ps : List PrimOut) (s : State) : State :=
  let (v, s) := s.fresh
  let ps := ps.filter fun p => !p.tiles.isEmpty
  match s.directRecords f k r.desc w b v (ps.length * (primBytes (topoVerts w.topology) w.vtxDwords / 16)) ps 0 with
  | (.error e, s) => s.frontFault f job e
  | (.ok xs, s) =>
    let qs := xs.map fun x => directQuads job r b x.2 x.1
    let groups := qs.flatMap fun q => groupsOf b.draw q.length q
    let expect := (qs.flatMap id).map fun q => (r.sliceOf q.qx q.qy, { job := job, qx := q.qx, qy := q.qy, seq := q.seq : SliceExpect })
    let bins := countPrims r.desc w b.draw ps r.bins s
    let work := WorkKind.pixelBatch b.half
    let r := r.withBins bins
    let r := { r with geom := r.geom.drop 1, expect := r.expect ++ expect }
    let s := if groups.isEmpty then s.modPass job fun _ => r
      else (s.modPass job fun _ => { r with live := r.live ++ [work], pix := r.pix ++ [(b.half, groups)] }).addReady
        [{ job := job, kind := work }]
    (s.endUnit (.front f) k).passOn f job k

/-- GEOMETRY_BATCH_DONE: the front end takes the oldest batch, which the clusters have completed in a staging half, and assembles,
clips, culls and bins or rasterises its primitives (R90, R105, R107, R117). -/
def execGeometryBatchDone (f : Nat) (half : Nat) (s : State) : Res :=
  match s.headWork (.front f), s.fronts[f]?.bind (·.job) with
  | some (w, k), some job =>
    if w.job ≠ job then .next s
    else
      match s.passRun? job with
      | none => .next s
      | some r =>
        match r.phase, r.geom with
        | .geometry, (.geomBatch draw inst first count h, true) :: _ =>
          match r.desc.draws[draw]? with
          | none => .next s
          | some d =>
            if h ≠ half then .next s
            else
              let b : BatchAt := { draw := draw, inst := inst, first := first, count := count, half := half }
              match s.assembleBatch f k r d b with
              | (.error e, s) => .next (s.frontFault f job (e.1, false, e.2))
              | (.ok prims, s) =>
                let n := keptPrims prims
                let r := { r with prims := r.prims + n }
                let s' := if r.direct then s.rasterBatch f job k r d b prims else s.binBatch f job k r d b prims
                .next (if (s'.sluice.reports.length = s.sluice.reports.length) then
                  s'.modFront f fun x => { x with core := { x.core with work := x.core.work + n } } else s')
        | _, _ => .next s
  | _, _ => .next s

/-- FLUSH_TILES_STORED: the heads are zeroed, the heap is reset, and binning resumes (R116, steps 3 and 4). -/
def execFlushTilesStored (f : Nat) (s : State) : Res :=
  match s.headWork (.front f), s.fronts[f]?.bind (·.job) with
  | some (w, k), some job =>
    if w.job ≠ job then .next s
    else
      match s.passRun? job with
      | none => .next s
      | some r =>
        match r.phase, r.live, r.geom with
        | .flush, [], (.geomBatch draw inst first count half, _) :: _ =>
          match r.desc.draws[draw]? with
          | none => .next s
          | some d =>
            match s.zeroHeads f k r.desc r.tileW r.tileH with
            | (some e, s) => .next (s.frontFault f job e)
            | (none, s) =>
              let b : BatchAt := { draw := draw, inst := inst, first := first, count := count, half := half }
              let tiles := r.heads.map fun x => x.1
              let r := { r with heads := [], heap := r.desc.headsEnd r.tileW r.tileH, flushes := r.flushes + 1,
                                flushed := r.flushed ++ tiles.filter fun t => !(r.flushed.contains t) }
              let ps := r.overflow.map fun x => x.2
              let s' := s.binBatch f job k r d b ps
              .next (if (s'.sluice.reports.length = s.sluice.reports.length) then
                s'.modFront f fun x => { x with flushes := satInc x.flushes } else s')
        | _, _, _ => .next s
  | _, _ => .next s

/-! ## The end of a pass -/

/-- The statistics that a pass leaves in the header (R112, R113). -/
def PassRun.header (r : PassRun) : List Byte :=
  toLE 4 r.desc.signature.toNat ++ toLE 4 (1 + at' (b2n r.direct) 1) ++ toLE 4 r.desc.vertexCount ++ toLE 4 r.prims ++
    toLE 4 r.refs ++ toLE 4 (r.desc.tiles r.tileW r.tileH) ++ toLE 4 r.high ++ toLE 4 r.flushes ++
    toLE 4 (r.tileW + at' r.tileH 8)

/-- Whether every batch of a pass is complete, and no fragment of it is left. -/
def PassRun.finished (r : PassRun) : Bool :=
  r.batches.isEmpty && r.geom.isEmpty && r.live.isEmpty && r.pix.isEmpty && r.overflow.isEmpty && r.expect.isEmpty &&
    r.flying.isEmpty && (decide (r.phase = .tile) || (r.direct && decide (r.phase = .geometry)))

/-- In DIRECT, attachments that resolve are resolved from memory at the pass's end (log entry 51). -/
def State.resolveDirect (f : Nat) (k : CtxKey) (d : PassDesc) (a : Attachment) (s : State) : Acc :=
  let who := Requester.engine (.front f)
  if a.storeOp < 2 then (none, s)
  else
    inTurn (fun (p : Nat × Nat) (s : State) =>
      match (List.range d.samples).foldl (fun (acc : Except (FaultKind × Nat) (List (List Byte)) × State) smp =>
        match acc with
        | (.error e, s) => (.error e, s)
        | (.ok xs, s) =>
          match s.showSample who k d a p.1 p.2 smp with
          | (.error e, s) => (.error e, s)
          | (.ok bs, s) => (.ok (xs ++ [bs]), s)) (.ok [], s) with
      | (.error e, s) => (some (e.1, false, e.2), s)
      | (.ok xs, s) => s.resolvePixel who k d a xs p.1 p.2) d.areaPixels s

/-- An array keeps a tile network's weights no longer than its pass (R166). -/
def Array.endPass (job : Nat) (a : Array) : Array := if a.kept.elim false fun x => x.job == job then { a with kept := none } else a

/-- PASS_COMPLETE: every batch is complete; the statistics are written, and the pass's fence and reply follow (R105, R112). -/
def execPassComplete (f : Nat) (s : State) : Res :=
  match s.headWork (.front f), s.fronts[f]? with
  | some (w, k), some fe =>
    match s.passRun? w.job, s.job? w.job with
    | some r, some j =>
      if fe.job ≠ some w.job ∨ !r.finished ∨ (s.clusters.any fun c => c.slice.any fun x => x.job == w.job) ∨ j.outcome ≠ .running then
        .next s
      else
        match (if r.direct then inTurn (fun (ia : Nat × Attachment) (s : State) => s.resolveDirect f k r.desc ia.2) r.desc.attachments s
          else (none, s)) with
        | (some e, s) => .next (s.frontFault f w.job e)
        | (none, s) =>
          match s.putPb f k r.desc (bitOf fe.cfg.toNat 0) 0 r.header with
          | (some e, s) => .next (s.frontFault f w.job e)
          | (none, s) =>
            let s := s.modPass w.job fun r => { r with phase := .idle }
            let s := s.modFront f fun x => { x with job := none, passes := x.passes + 1 }
            let s : State := { s with arrays := s.arrays.map (Array.endPass w.job) }
            .next (((s.retire (.front f) k).endUnit (.front f) k).completeJob w.job (.front f))
    | _, _ => .next s
  | _, _ => .next s

end Sys2Proof.Machine
end

