-- ==== Sys2Proof/Machine/Texture.lean ====
section
/-! DEFINITION. Textures (R123 to R128): the texture descriptor, a texel read through the L1 and through its tile state table, and
FETCH. -/

namespace Sys2Proof.Machine

/-! ## Descriptors (R127) -/

/-- A texture descriptor. -/
structure TexDesc where
  base    : Nat
  width   : Nat
  height  : Nat
  layers  : Nat
  levels  : Nat
  dim     : Nat
  samples : Nat
  format  : Nat
  swizzle : Nat
  srgb    : Bool
  tst     : Nat

/-- A texture descriptor from its eight registers. -/
def parseTexture (t : Nat) : TexDesc :=
  { base := fld t 47 0, width := fld t 79 64 + 1, height := fld t 95 80 + 1, layers := fld t 107 96 + 1,
    levels := fld t 111 108 + 1, dim := fld t 114 112, samples := 2 ^ fld t 117 116, format := fld t 135 128,
    swizzle := fld t 147 136, srgb := bitOf t 148, tst := fld t 207 160 }

/-- The surface of a texture. -/
def TexDesc.surf (t : TexDesc) : Surf :=
  { base := t.base, width := t.width, height := if t.dim = 5 then 1 else t.height, depth := if t.dim = 2 then t.layers else 1,
    levels := t.levels, format := t.format }

/-- The layers or faces that a texture has; whether LAYERS counts cubes or faces of a cube array is not stated (log
entry 52). -/
def TexDesc.slices (t : TexDesc) (v : Nat) : Nat :=
  match t.dim with
  | 1 => t.layers
  | 3 => 6
  | 4 => if Config.texBit v then 6 * t.layers else t.layers
  | _ => 1

/-- The slice of a layer and a sample; the order of samples within layers is not stated (log entry 52). -/
def TexDesc.slice (t : TexDesc) (v layer smp : Nat) : Nat :=
  if t.samples = 1 then layer
  else if t.slices v = 1 then smp
  else Config.sampleTexel v % (t.slices v * t.samples)

/-- Whether a descriptor's codes are defined; ASTC is for 2D surfaces only (R126). -/
def TexDesc.known (t : TexDesc) : Bool := formatKnown t.format && decide (t.dim ≤ 5) && (decide (t.format < 0x40) || t.dim == 0)

/-- Whether the SRGB bit applies to the format (R126). -/
def TexDesc.asSrgb (t : TexDesc) : Bool := t.srgb && (t.format == 0x04 || (decide (0x40 ≤ t.format) && decide (t.format ≤ 0x4D)))

/-! ## Reading a texel -/

/-- The bytes of pieces read by a cluster as cacheable loads (R85, R94). -/
def texPieces (c fn : Nat) : List Piece → State → Except (FaultKind × Nat) (List Byte) × State
  | [], s => (.ok [], s)
  | p :: ps, s =>
    let a : LaneAcc := { lane := 0, va := p.va, tgt := p.tgt, pa := p.pa, cached := p.cacheable && decide (p.tgt ≠ .peer) }
    if s.linkFails p.tgt then (.error (.linkError, p.va), s)
    else if s.targetClosed p.tgt p.pa then (.error (.targetReset, p.va), s)
    else
      let hit := s.l1Answers c true p.len a
      match (if hit then (none, s) else s.checkUe p.tgt p.pa p.len) with
      | (some _, s) => (.error (.poison, p.va), s)
      | (none, s) =>
        let bs := s.l1Bytes c true a.cached p.tgt p.pa p.len
        let s := if hit then s
          else if a.cached then (s.fillLine c p.tgt p.pa p.va).countBytes fn p.tgt 128
          else (s.askAt p.tgt p.pa p.len).countBytes fn p.tgt p.len
        match texPieces c fn ps s with
        | (.error f, s) => (.error f, s)
        | (.ok rest, s) => (.ok (bs ++ rest), s)

/-- A read of a cluster's texture or traversal unit through the L1 (R128, R138). -/
def State.unitRead (c : Nat) (k : CtxKey) (va n : Nat) (s : State) : Except (FaultKind × Nat) (List Byte) × State :=
  match s.translate (.engine (.cluster c)) k va n needR with
  | (.error f, s) => (.error f, s)
  | (.ok ps, s) => texPieces c k.fn ps s

/-- Whether some bytes lie in an attachment of a pass of the context that is running. -/
def State.inAttachment (s : State) (k : CtxKey) (va n : Nat) : Bool :=
  s.jobs.any fun j => decide (j.key = k) && match j.kind with
    | .pass _ (some r) => decide (r.phase ≠ .idle) &&
        (r.desc.colours.take r.desc.rtCount ++ (if r.desc.depthEn || r.desc.stencilEn then [r.desc.depth] else [])).any fun a =>
          let u : Surf := { base := a.addr, width := r.desc.width, height := r.desc.height, depth := 1, levels := 1, format := a.format }
          spansMeet va n a.addr (u.sliceBytes * r.desc.samples)
    | _ => false

/-- The element of a texel, from the surface or from the clear slot of its state tile; of an attachment of a running pass it is
undefined: a free value (R123). -/
def State.readTexel (c : Nat) (k : CtxKey) (t : TexDesc) (slice l z x y : Nat) (s : State) :
    Except (FaultKind × Nat) (Nat × Nat × Nat) × State :=
  let (va, tx, ty) := t.surf.texel slice l z x y
  let n := formatBytes t.format
  let open_ := s.inAttachment k va n
  let take := fun (va : Nat) (s : State) =>
    match s.unitRead c k va n with
    | (.error f, s) => ((.error f : Except (FaultKind × Nat) (Nat × Nat × Nat)), s)
    | (.ok bs, s) =>
      if open_ then
        let (v, s) := s.fresh
        (.ok (sumN ((List.range 4).map fun i => Config.texWord (4 * v + i) % 2 ^ 32 * 2 ^ (32 * i)) % 2 ^ (8 * n), tx, ty), s)
      else (.ok (ofLE bs, tx, ty), s)
  if t.tst = 0 ∨ l ≠ 0 then take va s
  else
    match s.unitRead c k (t.tst + tstOffset t.width (x / 32) (y / 32)) 2 with
    | (.error f, s) => (.error f, s)
    | (.ok e, s) =>
      if tstHolds (ofLE e) (quadrant x y) then take va s else take (t.tst + 16 * tstIdx (ofLE e)) s

/-- An output channel of a texture from the channels of a texel (R127). -/
def TexDesc.swizzled (t : TexDesc) (v : Nat) (channel : Nat → Nat) (i : Nat) : Nat :=
  match fld t.swizzle (3 * i + 2) (3 * i) with
  | 4 => 0
  | 5 => if uintFormat t.format then 1 else 0x3F800000
  | 6 => Config.sampleWord (64 * v + i) % 2 ^ 32
  | 7 => Config.sampleWord (64 * v + i) % 2 ^ 32
  | c => channel c

/-- An output channel of a texture from an element. -/
def TexDesc.channel (t : TexDesc) (v e tx ty i : Nat) : Nat := t.swizzled v (texelChannel v t.format t.asSrgb e tx ty) i

/-- Four channels as one number, red lowest. -/
def fourWords (f : Nat → Nat) : Nat := sumN ((List.range 4).map fun i => f i % 2 ^ 32 * 2 ^ (32 * i))

/-! ## The instructions -/

def fetchShape : Shape :=
  { shape0 with dks := [0], s0 := { kind := .scalar, regs := 8, align := 8 }, s1 := { kind := .vector, regs := 5, align := 8 },
                dregs := 4, dalign := 4 }

/-- A lane's result, or its fault. -/
abbrev LaneTexel := Except (FaultKind × Nat) Nat × State

/-- The active lanes in ascending order; every fault is found before any effect (R94). -/
def texLanes (f : Nat → State → LaneTexel) : List Nat → State → List (Nat × Nat) × List LaneFault × State
  | [], s => ([], [], s)
  | l :: ls, s =>
    let r := f l s
    let (vs, fs, s) := texLanes f ls r.2
    match r.1 with
    | .ok v => ((l, v) :: vs, fs, s)
    | .error e => (vs, (l, e.1, e.2) :: fs, s)

/-- An instruction of the texture unit. -/
def State.texOp (sh : Shape) (w : HWord) (f : Issuer → Group → Nat → State → LaneTexel) (c slot : Nat) (s : State) : State :=
  s.issue sh (fun i g s =>
    let (vs, fs, s) := texLanes (f i g) (lanesOf (g.active w)) s
    match laneFault fs false false with
    | some e => .fault e s
    | none => .go ((g.putResult sh w fun l => laneValue vs l).advance w) s) c slot w

/-- One lane of FETCH: the texel that its integer coordinates name; zeros outside the surface (R128). -/
def fetchLane (w : HWord) (i : Issuer) (g : Group) (l : Nat) (s : State) : LaneTexel :=
  let src := g.srcs fetchShape w l
  let t := parseTexture src.a
  let at_ := fun (j : Nat) => fld src.b (32 * j + 31) (32 * j)
  let (v, s) := s.fresh
  if !t.known then (.ok (fourWords fun j => Config.sampleWord (64 * v + j)), s)
  else
    let lv := at_ 3
    let u := t.surf
    let wide := max 1 (u.width >>> lv)
    let high := if t.dim = 5 then 1 else max 1 (u.height >>> lv)
    let y := if t.dim = 5 then 0 else at_ 1
    let (layer, z) := if t.dim = 2 then (0, at_ 2) else if t.dim = 1 ∨ t.dim = 3 ∨ t.dim = 4 then (at_ 2, 0) else (0, 0)
    if wide ≤ at_ 0 ∨ high ≤ y ∨ max 1 (u.depth >>> lv) ≤ z ∨ t.slices v ≤ layer ∨ t.levels ≤ lv ∨ t.samples ≤ at_ 4 then (.ok 0, s)
    else
      match s.readTexel i.c i.run.key t (t.slice v layer (at_ 4)) lv z (at_ 0) y with
      | (.error f, s) => (.error f, s)
      | (.ok (e, tx, ty), s) => (.ok (fourWords fun j => t.channel v e tx ty j), s)

def execFetch (c g : Nat) (w : HWord) (s : State) : Res := .next (s.texOp fetchShape w (fetchLane w) c g)

end Sys2Proof.Machine
end

