-- ==== Sys2Proof/Machine/Sample.lean ====
section
/-! DEFINITION. SAMPLE (R127, R128): the sampler descriptor, the level of detail from the derivatives of a quad, the texels of a bilinear
filter under the address modes, compare and border. The filter is computed exactly and rounded freely; what the spec leaves open of it
is marked in log entry 38. -/

namespace Sys2Proof.Machine

/-! ## The sampler descriptor (R127) -/

structure Sampler where
  magF   : Nat
  minF   : Nat
  mip    : Nat
  addr   : List Nat
  aniso  : Nat
  cmp    : Nat
  border : Nat
  bias   : Rat
  minLod : Rat
  maxLod : Rat

/-- A sampler descriptor from its four registers. -/
def parseSampler (c : Nat) : Sampler :=
  let b := fld c 47 32
  { magF := fld c 1 0, minF := fld c 3 2, mip := fld c 5 4, addr := [fld c 8 6, fld c 11 9, fld c 14 12], aniso := fld c 17 15,
    cmp := fld c 21 18, border := fld c 23 22, bias := scaled (if b < 32768 then (b : Int) else (b : Int) - 65536) (-8),
    minLod := scaled (fld c 75 64 : Nat) (-8), maxLod := scaled (fld c 91 80 : Nat) (-8) }

/-- Whether a sampler's codes are defined. -/
def Sampler.known (p : Sampler) : Bool :=
  decide (p.magF < 2) && decide (p.minF < 2) && decide (p.mip < 3) && p.addr.all (fun x => decide (x < 5)) && decide (p.aniso < 5) &&
    decide (p.cmp < 9) && decide (p.border < 3)

/-! ## Coordinates -/

/-- The magnitude of a number. -/
def absR (q : Rat) : Rat := if q < 0 then -q else q

/-- The face of a cube map that a direction meets, in the order of R125: the axis of its largest component. -/
def cubeFace (d : Vec3) : Nat :=
  let big := fun (a b c : Rat) => decide (absR b ≤ absR a) && decide (absR c ≤ absR a)
  if big d.x d.y d.z then (if 0 ≤ d.x then 0 else 1)
  else if big d.y d.x d.z then (if 0 ≤ d.y then 2 else 3)
  else if 0 ≤ d.z then 4 else 5

/-- The coordinates of a direction on a face. -/
def faceCoords (f : Nat) (d : Vec3) : Option (Rat × Rat) :=
  let (s, t, m) := match f with
    | 0 => (-d.z, -d.y, absR d.x)
    | 1 => (d.z, -d.y, absR d.x)
    | 2 => (d.x, d.z, absR d.y)
    | 3 => (d.x, -d.z, absR d.y)
    | 4 => (d.x, -d.y, absR d.z)
    | _ => (-d.x, -d.y, absR d.z)
  if m = 0 then none else some ((s / m + 1) / 2, (t / m + 1) / 2)

/-- The normalised coordinates of a lane in a texture, on a face for a cube: none where one of them is no number. -/
def TexDesc.coords (t : TexDesc) (face : Nat) (word : Nat → Nat) : Option Vec3 :=
  if t.dim = 3 ∨ t.dim = 4 then
    match vecOf word with
    | none => none
    | some d => (faceCoords face d).map fun x => { x := x.1, y := x.2, z := 0 }
  else
    match exactOf (word 0), (if t.dim = 5 then some 0 else exactOf (word 1)), (if t.dim = 2 then exactOf (word 2) else some 0) with
    | some x, some y, some z => some { x := x, y := y, z := z }
    | _, _, _ => none

/-! ## The level of detail -/

/-- The base-2 logarithm of a positive number, to 76 places. -/
def log2Rat (q : Rat) : Rat :=
  let m := q.num.natAbs * 2 ^ 400 / q.den
  let l := Nat.log2 m
  scaled ((l : Int) - 400) 0 + scaled (log2Bits 76 ((m <<< elemPlaces) >>> l) 0 : Nat) (-76)

/-- The squared lengths in texels of level 0 of a step across a quad and of a step down it. -/
def TexDesc.steps (t : TexDesc) (a b c : Vec3) : Rat × Rat :=
  let u := t.surf
  let len := fun (p : Vec3) =>
    let x := p.x * (u.width : Nat)
    let y := p.y * (u.height : Nat)
    let z := p.z * (u.depth : Nat)
    x * x + y * y + z * z
  (len (b.sub a), len (c.sub a))

/-- The level of detail of the derivatives: the logarithm of the longer step; far below 0 where nothing changes. -/
def lodOf (s : Rat × Rat) : Rat := let m := max s.1 s.2; if m ≤ 0 then -1000 else log2Rat m / 2

/-- The level of detail after bias and clamp. -/
def Sampler.clampLod (p : Sampler) (l : Rat) : Rat := min (max (l + p.bias) p.minLod) p.maxLod

/-- The levels that a sample reads with their weights (R128). -/
def Sampler.levels (p : Sampler) (count : Nat) (l : Rat) : List (Nat × Rat) :=
  let level := fun (i : Int) => min (i.toNat) (count - 1)
  match p.mip with
  | 0 => [(0, 1)]
  | 1 => [(level (l + 1 / 2).floor, 1)]
  | _ =>
    let f := l - l.floor
    if f = 0 ∨ level l.floor = level (l.floor + 1) then [(level l.floor, 1)] else [(level l.floor, 1 - f), (level (l.floor + 1), f)]

/-! ## The texels of a filter -/

/-- A texel's place along an axis of n texels under an address mode; none on the border (R127). -/
def addrOf (mode n : Nat) (i : Int) : Option Nat :=
  let clamp := fun (j : Int) => (min (max j 0) ((n : Int) - 1)).toNat
  match mode with
  | 0 => some (i % (n : Int)).toNat
  | 1 =>
    let j := (i % (2 * n : Int)).toNat
    some (if j < n then j else 2 * n - 1 - j)
  | 2 => some (clamp i)
  | 3 => if 0 ≤ i ∧ i < n then some i.toNat else none
  | _ => some (clamp (if i < 0 then -1 - i else i))

/-- The texels along an axis with their weights: the one that holds the point, or the two whose centres enclose it; a texel of weight 0
is not read. -/
def axisTaps (linear : Bool) (mode n : Nat) (x : Rat) : List (Option Nat × Rat) :=
  if linear then
    let p := x * (n : Nat) - 1 / 2
    let f := p - p.floor
    if f = 0 then [(addrOf mode n p.floor, 1)] else [(addrOf mode n p.floor, 1 - f), (addrOf mode n (p.floor + 1), f)]
  else [(addrOf mode n (x * (n : Nat)).floor, 1)]

/-- A texel that a filter reads: level, place (none on the border) and weight. -/
structure Tap where
  level  : Nat
  place  : Option (Nat × Nat × Nat)
  weight : Rat

/-- The texels of a level: bilinear in its plane, the nearest slice of a 3D level (R128). -/
def TexDesc.levelTaps (t : TexDesc) (p : Sampler) (linear : Bool) (p3 : Vec3) (lw : Nat × Rat) : List Tap :=
  let u := t.surf
  let cube := t.dim == 3 || t.dim == 4
  let mode := fun (i : Nat) => if cube then 2 else p.addr.getD i 0
  let xs := axisTaps linear (mode 0) (max 1 (u.width >>> lw.1)) p3.x
  let ys := if t.dim = 5 then [(some 0, 1)] else axisTaps linear (mode 1) (max 1 (u.height >>> lw.1)) p3.y
  let zs := if t.dim = 2 then axisTaps false (mode 2) (max 1 (u.depth >>> lw.1)) p3.z else [(some 0, 1)]
  xs.flatMap fun x => ys.flatMap fun y => zs.map fun z =>
    let place := match x.1, y.1, z.1 with
      | some x, some y, some z => some (x, y, z)
      | _, _, _ => none
    { level := lw.1, place := place, weight := lw.2 * x.2 * y.2 * z.2 }

/-- All texels that a sample reads: nearest or bilinear as magnification or minification has it. -/
def TexDesc.taps (t : TexDesc) (p : Sampler) (lod : Rat) (p3 : Vec3) : List Tap :=
  let linear := (if lod ≤ 0 then p.magF else p.minF) == 1
  (p.levels t.levels lod).flatMap (t.levelTaps p linear p3)

/-- A channel of the border colour (R127). -/
def borderChannel (uint : Bool) (code ch : Nat) : Nat :=
  let one := if uint then 1 else 0x3F800000
  match code with
  | 0 => 0
  | 1 => if ch = 3 then one else 0
  | _ => one

/-- COMPARE: the reference against a texel (R127). -/
def compareTexel (cmp ref v : Nat) : Bool :=
  let x := f32.value ref
  let y := f32.value v
  match cmp with
  | 1 => false
  | 2 => fCompare 2 x y
  | 3 => fCompare 0 x y
  | 4 => fCompare 3 x y
  | 5 => fCompare 4 x y
  | 6 => fCompare 1 x y
  | 7 => fCompare 5 x y
  | _ => true

/-- The output words of a texel: compared with the reference where the sampler says so, then swizzled. -/
def TexDesc.words (t : TexDesc) (p : Sampler) (v ref : Nat) (channel : Nat → Nat) : List Nat :=
  (List.range 4).map fun i => t.swizzled v (fun ch =>
    if ch = 0 ∧ p.cmp ≠ 0 then (if compareTexel p.cmp ref (channel 0) then 0x3F800000 else 0) else channel ch) i

/-- The texels of a filter read in order: their output words with their weights, or the first fault. -/
def State.readTaps (c : Nat) (k : CtxKey) (t : TexDesc) (p : Sampler) (slice ref : Nat) : List Tap → State →
    Except (FaultKind × Nat) (List (List Nat × Rat)) × State
  | [], s => (.ok [], s)
  | x :: xs, s =>
    let (v, s) := s.fresh
    match (match x.place with
      | none => ((Except.ok (t.words p v ref (borderChannel (uintFormat t.format) p.border)) : Except (FaultKind × Nat) (List Nat)), s)
      | some (i, j, z) =>
        match s.readTexel c k t slice x.level z i j with
        | (.error f, s) => (.error f, s)
        | (.ok (e, tx, ty), s) => (.ok (t.words p v ref (texelChannel v t.format t.asSrgb e tx ty)), s)) with
    | (.error f, s) => (.error f, s)
    | (.ok ws, s) =>
      match State.readTaps c k t p slice ref xs s with
      | (.error f, s) => (.error f, s)
      | (.ok rest, s) => (.ok ((ws, x.weight) :: rest), s)

/-- The weighted sum of some words, one of its two neighbours as FP32; none where a word is no number. -/
def blendWords (away neg0 : Bool) : List (Nat × Rat) → Option Rat → Option Word
  | [], acc => acc.map (roundRat away neg0)
  | x :: xs, acc =>
    match exactOf x.1, acc with
    | some q, some a => blendWords away neg0 xs (some (a + q * x.2))
    | _, _ => none

/-- An output channel of a filter: a single texel's word as it is; no filtered value of integers or of words that are no numbers is
stated. -/
def TexDesc.filtered (t : TexDesc) (v : Nat) (taps : List (List Nat × Rat)) (i : Nat) : Nat :=
  let free := Config.sampleWord (64 * v + i) % 2 ^ 32
  match taps with
  | [x] => x.1.getD i 0
  | _ =>
    if uintFormat t.format then free
    else
      match blendWords (Config.texBit (64 * v + i)) (Config.texBit (64 * v + 8 + i)) (taps.map fun x => (x.1.getD i 0, x.2)) (some 0) with
      | some w => w.toNat
      | none => free

/-! ## SAMPLE (R128) -/

def sampleShape : Shape :=
  { fetchShape with mod := fun m => decide (m < 3), s1 := { kind := .vector, regs := 6, align := 8 },
                    s2 := { kind := .scalar, regs := 4, align := 4 } }

/-- The slice that a layer coordinate, a face and a free sample name: the nearest layer, brought into the texture's. -/
def TexDesc.layerSlice (t : TexDesc) (v face layer : Nat) : Option Nat :=
  let smp := Config.sampleTexel (64 * v) % max 1 t.samples
  let near := fun (n : Nat) => (exactOf layer).map fun q => (min (max (q + 1 / 2).floor 0) ((n : Int) - 1)).toNat
  match t.dim with
  | 1 => (near t.layers).map fun l => t.slice v l smp
  | 3 => some (t.slice v face smp)
  | 4 => (near (max 1 (t.slices v / 6))).map fun l => t.slice v (6 * l + face) smp
  | _ => some (t.slice v 0 smp)

/-- One lane of SAMPLE. A coordinate, a bias or a layer that is no number has no stated result, and neither has a sample that is
filtered anisotropically, of which the spec gives only how many slots it takes; its isotropic texels are read. -/
def sampleLane (w : HWord) (i : Issuer) (g : Group) (l : Nat) (s : State) : LaneTexel :=
  let src := fun (n : Nat) => g.srcs sampleShape w n
  let word := fun (n j : Nat) => fld (src n).b (32 * j + 31) (32 * j)
  let t := parseTexture (src l).a
  let p := parseSampler (src l).c
  let (v, s) := s.fresh
  let free := fourWords fun j => Config.sampleWord (64 * v + j)
  let face := match vecOf (word l) with
    | some d => cubeFace d
    | none => 0
  let at_ := fun (n : Nat) => t.coords face (word n)
  let q := l / 4 * 4
  let steps := match at_ q, at_ (q + 1), at_ (q + 2) with
    | some a, some b, some c => some (t.steps a b c)
    | _, _, _ => none
  let lod := match w.mode.toNat % 4 with
    | 0 => steps.map lodOf
    | 1 => match steps, exactOf (word l 4) with
      | some x, some b => some (lodOf x + b)
      | _, _ => none
    | _ => exactOf (word l 4)
  if !t.known ∨ !p.known then (.ok free, s)
  else
    match at_ l, lod, t.layerSlice v face (word l 3) with
    | some p3, some lod, some slice =>
      match s.readTaps i.c i.run.key t p slice (word l 5) (t.taps p (p.clampLod lod) p3) with
      | (.error f, s) => (.error f, s)
      | (.ok ws, s) =>
        let uneven := match steps with
          | some x => decide (x.1 ≠ x.2)
          | none => false
        if p.aniso ≠ 0 ∧ w.mode.toNat % 4 ≠ 2 ∧ uneven then (.ok free, s) else (.ok (fourWords (t.filtered v ws)), s)
    | _, _, _ => (.ok free, s)

/-- SAMPLE. -/
def execSample (c g : Nat) (w : HWord) (s : State) : Res := .next (s.texOp sampleShape w (sampleLane w) c g)

end Sys2Proof.Machine
end

