-- ==== Sys2Proof/Machine/Ray.lean ====
section
/-! DEFINITION. The ray instructions and the traversal unit (R132 to R138): the nodes, instances and leaves that a ray visits, its
stack, its hits and its results. Boxes and triangles are tested exactly; the order of a node's children, the rounding of results
and the visit of a box that is missed are free (log entries 53 and 138). -/

namespace Sys2Proof.Machine

/-! ## Shapes (R136) -/

def rayArea : SrcUse := { kind := .scalar, regs := 1, align := 1 }

def rayShape : Shape :=
  { shape0 with dks := [0], mod := fun m => decide (m < 16), s0 := { kind := .scalar, regs := 2, align := 2 },
                s1 := { kind := .vector, regs := 8, align := 8 }, s2 := rayArea, dregs := 8, dalign := 8 }

def rayresumeShape : Shape := { shape0 with dks := [0], s2 := rayArea, dregs := 8, dalign := 8 }

def rayacceptShape : Shape := { shape0 with s1 := vecSrc32, s2 := rayArea }
where vecSrc32 : SrcUse := { kind := .vector, regs := 1, align := 1 }

/-! ## Results -/

/-- A free word of the ray unit. -/
def rayFree (v i : Nat) : Word := BitVec.ofNat 32 (Config.rayWord (64 * v + i))

/-- A free bit of the ray unit. -/
def rayBit (v i : Nat) : Bool := bitOf (rayFree v i).toNat 0

/-- The state of a lane without a ray. -/
def noRay : RayLane :=
  { root := 0, world := [], object := [], flags := 0, mask := 0, status := 0, inst := none, todo := [], stack := [], overflowed := false,
    lost := false, hitFront := false, hit := [], cand := none, candFront := false, candHit := [], out := [] }

/-- Whether a lane has stopped for a callback. -/
def RayLane.pending (r : RayLane) : Bool := decide (2 ≤ r.status)

/-- The current tmax: that of the committed hit, else the ray's own (R134). -/
def RayLane.tmax (r : RayLane) : Word := (r.hit.head?).getD (r.world.getD 7 0)

/-- Whether tmin ≤ t < tmax (R134, R137). -/
def RayLane.inReach (r : RayLane) (t : Word) : Bool :=
  let x := f32.value t.toNat
  let lo := f32.value (r.world.getD 3 0).toNat
  let hi := f32.value r.tmax.toNat
  decide (x ≠ .nan) && decide (lo ≠ .nan) && decide (hi ≠ .nan) && !(fLess x lo) && fLess x hi

/-- The eight words of a lane's result: the candidate's for a callback, else the committed hit's; a miss describes nothing
(R136). -/
def RayLane.result (r : RayLane) (v : Nat) : List Word :=
  let front := if r.pending then r.candFront else if r.status = 1 then r.hitFront else rayBit v 0
  let body := if r.pending then r.candHit else r.hit
  BitVec.ofNat 32 (r.status + at' (b2n r.overflowed) 4 + at' (b2n front) 5) ::
    (List.range 7).map fun i => body.getD i (rayFree v (i + 1))

/-- A lane whose ray has finished or stopped: its result is kept, so that it can be answered again unchanged (R137). -/
def RayLane.settle (r : RayLane) (v : Nat) : RayLane := { r with out := r.result v }

/-- The place at which a ray's traversal begins. -/
def RayLane.rootRef (r : RayLane) : RayRef := { kind := .node, va := r.root, more := 0 }

/-- A traversal that is to begin again at the root, with the committed hit kept (R135, R138). -/
def RayLane.rewind (r : RayLane) : RayLane :=
  { r with inst := none, object := [], todo := [r.rootRef], stack := [], lost := false }

/-- Words as one number, lowest first. -/
def wordsLE (ws : List Word) : Nat := sumN ((enumFrom 0 ws).map fun x => x.2.toNat * 2 ^ (32 * x.1))

/-- The results of some lanes written to their registers. -/
def Group.putRays (g : Group) (w : HWord) (lanes : Word) : Group :=
  g.putVecs lanes (fun l => wordsLE (g.rays.getD l noRay).out) w.dst.toNat 8

/-! ## The ray state area (R137) -/

/-- A lane's record in the ray state area: the world-space ray, the object-space ray at a callback, undefined bytes. Whether the
object-space ray shows its own tmax or the current one is free. -/
def rayRecord (r : RayLane) (v : Nat) : List Byte :=
  (List.range 60).flatMap fun i =>
    toLE 4 ((if i < 8 then r.world.getD i 0
      else if i = 15 ∧ r.pending ∧ rayBit v i then r.tmax
      else if i < 16 ∧ r.pending then r.object.getD (i - 8) 0 else rayFree v i).toNat)

/-- The records of some lanes written; what lies past the workgroup's memory is dropped (log entry 30). -/
def State.putRecords (c wg area : Nat) (rays : List RayLane) (lanes : Word) (v : Nat) (s : State) : State :=
  s.modWg c wg fun x =>
    { x with lds := (lanesOf lanes).foldl (fun m l =>
        let a := area + 240 * l
        writeBytes a ((rayRecord (rays.getD l noRay) (64 * v + l)).take (x.bytes - a)) m) x.lds }

/-! ## Records (R132, R133) -/

/-- A field of a record. -/
def dword (bs : List Byte) (o : Nat) : Nat := ofLE (bs.drop o |>.take 4)

/-- An instance record read from its 64 bytes. -/
def parseInst (bs : List Byte) : InstRec :=
  let d := ofLE (bs.drop 0x30 |>.take 8)
  { root := fld d 47 0, mask := fld d 55 48, bits := fld d 63 56, id := dword bs 0x38 % 2 ^ 24, group := dword bs 0x3C }

/-- PRIM_ID and geometry index of a leaf, and its OPAQUE bit. -/
def leafWords (bs : List Byte) (second : Bool) : Nat × Nat × Bool :=
  let g := dword bs 0x38
  (dword bs (if second then 0x34 else 0x30), g % 2 ^ 24, bitOf g (if second then 25 else 24))

/-- Whether a block of a triangle leaf holds its second triangle. -/
def hasSecond (bs : List Byte) : Bool := bitOf (dword bs 0x38) 26

/-- A vertex of a triangle leaf. -/
def leafVertex (bs : List Byte) (j : Nat) : Option Vec3 := vecOf fun i => dword bs (12 * j + 4 * i)

/-- The three vertices of a triangle of a leaf, by their places. -/
def leafCorners (bs : List Byte) (second : Bool) : List Nat :=
  let x := dword bs 0x3C
  if second then [fld x 1 0, fld x 3 2, fld x 5 4] else [0, 1, 2]

/-- A signed byte. -/
def sbyte (n : Nat) : Int := (BitVec.ofNat 8 n).toInt

/-- One corner of a child's box: ORIGIN + Q × 2^EXP on each axis (R132). -/
def nodeCorner (bs : List Byte) (q : Nat) : Option Vec3 :=
  let axis := fun (i : Nat) =>
    (exactOf (dword bs (4 * i))).map fun o =>
      o + scaled (Int.ofNat ((bs.getD (q + i) 0).toNat)) (sbyte (bs.getD (0xC + i) 0).toNat)
  match axis 0, axis 1, axis 2 with
  | some x, some y, some z => some { x := x, y := y, z := z }
  | _, _, _ => none

/-- A child of a node: where it lies and what it is; kind 3 is an instance above the bottom level and a procedural leaf in it
(R132). -/
def nodeChild (bs : List Byte) (bottom : Bool) (i : Nat) : Option RayRef :=
  let k := (bs.getD (0x18 + i) 0).toNat
  let at_ := fun (kind : RayKind) (more : Nat) =>
    some ({ kind := kind, va := ofLE (bs.drop 0x10 |>.take 6) + 64 * fld k 5 0, more := more } : RayRef)
  let blocks := fld (bs.getD (0x1C + i) 0).toNat 2 0
  if !(bitOf (bs.getD 0xF 0).toNat i) then none
  else match fld k 7 6 with
    | 0 => none
    | 1 => at_ .node 0
    | 2 => at_ .tris blocks
    | _ => if bottom then at_ .procs blocks else at_ .inst 0

/-! ## Tests (R134) -/

/-- The exact ray of a lane at its present level, up to the current tmax; none where a word of it is no number. -/
def RayLane.exact (r : RayLane) : Option ExactRay :=
  let w := if r.inst.isSome then r.object else r.world
  match vecOf (fun i => (w.getD i 0).toNat), vecOf (fun i => (w.getD (4 + i) 0).toNat), boundOf (r.world.getD 3 0).toNat, boundOf r.tmax.toNat with
  | some o, some d, some lo, some hi => some { o := o, d := d, lo := lo, hi := hi }
  | _, _, _, _ => none

/-- Whether a lane's ray enters a box: a box that it meets is never missed; the outward rounding of the unit may report another
(R132: the bit `i` of a free number). -/
def RayLane.enters (r : RayLane) (v i : Nat) (lo hi : Option Vec3) : Bool :=
  match r.exact, lo, hi with
  | some x, some lo, some hi => x.meetsBox lo hi || rayBit v i
  | _, _, _ => rayBit v i

/-- A word of the object-space ray: the exact image under the instance's transform, rounded to one of its neighbours (R133). -/
def objectWord (v : Nat) (bs : List Byte) (world : List Word) (i : Nat) : Word :=
  let row := fun (j : Nat) => exactOf (dword bs (16 * (i % 4) + 4 * j))
  let x := fun (j : Nat) => exactOf (world.getD (4 * (i / 4) + j) 0).toNat
  if i % 4 = 3 then world.getD i 0
  else
    match row 0, row 1, row 2, row 3, x 0, x 1, x 2 with
    | some a, some b, some c, some d, some p, some q, some s =>
      roundRat (rayBit v (16 + i)) (rayBit v (24 + i)) (a * p + b * q + c * s + (if i < 4 then d else 0))
    | _, _, _, _, _, _, _ => rayFree v (16 + i)

/-- Where a lane's ray meets a triangle of a leaf: t, u, v, and whether it faces front. -/
def RayLane.meets (r : RayLane) (v : Nat) (bs : List Byte) (second : Bool) : Option (Word × Word × Word × Bool) :=
  let corner := fun (i : Nat) => leafVertex bs ((leafCorners bs second).getD i 0)
  match r.exact, corner 0, corner 1, corner 2 with
  | some x, some a, some b, some c =>
    (x.meetsTri a b c).map fun y =>
      let put := fun (i : Nat) (q : Rat) => roundRat (rayBit v (8 + i)) (rayBit v (11 + i)) q
      (put 0 y.1, put 1 y.2.1, put 2 y.2.2.1, y.2.2.2)
  | _, _, _, _ => if rayBit v 14 then some (rayFree v 15, rayFree v 16, rayFree v 17, rayBit v 18) else none

/-- Whether a hit is not ignored: tmin ≤ t < tmax. A bound that is a NaN has no stated meaning: a free bit. -/
def RayLane.reaches (r : RayLane) (v : Nat) (t : Word) : Bool :=
  match boundOf (r.world.getD 3 0).toNat, boundOf r.tmax.toNat with
  | some _, some _ => r.inReach t
  | _, _ => rayBit v 19

/-- Whether a triangle counts as opaque. A record that forces both ways has no stated meaning: a free bit. -/
def isOpaque (flags : BitVec 5) (i : InstRec) (leaf : Bool) (v : Nat) : Bool :=
  if bitOf flags.toNat 3 then true
  else if bitOf i.bits 0 ∧ bitOf i.bits 1 then rayBit v 40
  else if bitOf i.bits 0 then true
  else if bitOf i.bits 1 then false
  else leaf

/-- What stands for the record of a leaf that lies in no instance: nothing of it is stated. -/
def freeInst (v : Nat) : InstRec :=
  { root := 0, mask := 0xFF, bits := (rayFree v 45).toNat % 16, id := (rayFree v 46).toNat % 2 ^ 24, group := (rayFree v 47).toNat }

/-! ## Hits (R133, R134) -/

/-- A triangle hit taken: whether the traversal of the lane goes on. -/
def RayLane.takeTri (r : RayLane) (v : Nat) (x : RayRef) (leaf : List Byte) (second : Bool) (t u w : Word) (front : Bool) :
    Bool × RayLane :=
  let i := r.inst.getD (freeInst v)
  let (prim, geom, op) := leafWords leaf second
  let front := if bitOf i.bits 3 then !front else front
  let culled := !(bitOf i.bits 2) && ((bitOf r.flags.toNat 1 && !front) || (bitOf r.flags.toNat 2 && front))
  if culled ∨ !(r.reaches v t) then (true, r)
  else
    let body := [t, u, w] ++ [prim, geom, i.id, i.group].map (BitVec.ofNat 32)
    if isOpaque r.flags i op v then (!(bitOf r.flags.toNat 0), { r with hit := body, hitFront := front })
    else (false, { r with status := 2, cand := some x, candFront := front, candHit := body })

/-- The entry to a procedural leaf's box: the ray stops for a callback. -/
def RayLane.takeBox (r : RayLane) (v : Nat) (x : RayRef) (leaf : List Byte) : Bool × RayLane :=
  let i := r.inst.getD (freeInst v)
  let p := [dword leaf 0x18, dword leaf 0x1C % 2 ^ 24, i.id, i.group].map (BitVec.ofNat 32)
  (false, { r with status := 3, cand := some x, candFront := rayBit v 41, candHit := [rayFree v 42, rayFree v 43, rayFree v 44] ++ p })

/-! ## The walk (R135) -/

/-- An entry put on the stack of 16: on overflow the oldest is dropped. -/
def RayLane.push (x : RayRef) (r : RayLane) : RayLane :=
  if r.stack.length < 16 then { r with stack := x :: r.stack }
  else { r with stack := x :: r.stack.take 15, overflowed := true, lost := true }

/-- Elements in a free order. -/
def freeOrder {α : Type} (v : Nat) : Nat → List α → List α
  | 0, _ => []
  | _ + 1, [x] => [x]
  | n + 1, l =>
    let i := (rayFree v (4 + n)).toNat % max 1 l.length
    l[i]?.toList ++ freeOrder v n (l.eraseIdx i)

/-- What a lane visits next; a stack that empties after an overflow starts the traversal again from the root. -/
def RayLane.next (r : RayLane) : Option (RayRef × RayLane) :=
  match r.todo, r.stack with
  | x :: xs, _ => some (x, { r with todo := xs })
  | [], x :: xs => some (x, { r with stack := xs })
  | [], [] => if r.lost then some (r.rootRef, { r.rewind with todo := [] }) else none

/-- The blocks of a leaf after one of them. -/
def RayRef.rest (x : RayRef) : List RayRef := if x.more = 0 then [] else [{ x with va := x.va + 64, more := x.more - 1 }]

/-- One visit of a lane, with the 64 bytes at the place: whether the traversal goes on. -/
def RayLane.visit (r : RayLane) (v : Nat) (x : RayRef) (bs : List Byte) : Bool × RayLane :=
  match x.kind with
  | .node =>
    let kids := (List.range 4).filterMap fun i =>
      match nodeChild bs r.inst.isSome i with
      | none => none
      | some k => if r.enters v i (nodeCorner bs (0x20 + 6 * i)) (nodeCorner bs (0x23 + 6 * i)) then some k else none
    match freeOrder v kids.length kids with
    | [] => (true, r)
    | k :: ks => (true, { ks.foldr RayLane.push r with todo := k :: r.todo })
  | .inst =>
    let i := parseInst bs
    if i.mask &&& r.mask.toNat = 0 then (true, r)
    else
      let r := r.push { kind := .leave, va := 0, more := 0 }
      (true, { r with inst := some i, object := (List.range 8).map (objectWord v bs r.world), todo := { kind := .node, va := i.root, more := 0 } :: r.todo })
  | .tris =>
    let r := { r with todo := (if hasSecond bs then [{ x with kind := .second, more := 0 }] else []) ++ x.rest ++ r.todo }
    match r.meets v bs false with
    | none => (true, r)
    | some (t, u, w, front) => r.takeTri v x bs false t u w front
  | .second =>
    match r.meets v bs true with
    | none => (true, r)
    | some (t, u, w, front) => r.takeTri v x bs true t u w front
  | .procs =>
    let r := { r with todo := x.rest ++ r.todo }
    let corner := fun (o : Nat) => vecOf fun i => dword bs (o + 4 * i)
    if r.enters v 0 (corner 0) (corner 0xC) then r.takeBox v x bs else (true, r)
  | .leave => (true, { r with inst := none, object := [] })

/-- A 64-byte record read by the traversal unit: 64-byte aligned, through the L1, with the R right (R138). -/
def State.rayRead (c : Nat) (k : CtxKey) (va : Nat) (s : State) : Except (FaultKind × Nat) (List Byte) × State :=
  if va % 64 ≠ 0 then (.error (.misaligned, va), s) else s.unitRead c k va 64

/-- The walk of one lane's ray until it has finished, stopped for a callback or met a fault, in at most so many visits; nothing is
answered where these do not suffice. -/
def walkRay (c : Nat) (k : CtxKey) : Nat → RayLane → State → Option (Option (FaultKind × Nat) × RayLane × State)
  | 0, _, _ => none
  | n + 1, r, s =>
    match r.next with
    | none => some (none, { r with status := if r.hit.isEmpty then 0 else 1 }, s)
    | some (x, r) =>
      match (if x.kind = .leave then (.ok [], s) else s.rayRead c k x.va) with
      | (.error f, s) => some (some f, r, s)
      | (.ok bs, s) =>
        let (v, s) := s.fresh
        match r.visit v x bs with
        | (true, r) => walkRay c k n r s
        | (false, r) => some (none, if r.pending then r else { r with status := 1 }, s)

/-- A lane whose walk met a fault: it keeps its committed hit and goes back to the root; it is still to be resumed (R138). -/
def RayLane.failed (r : RayLane) : RayLane := { r.rewind with status := 2, cand := none }

/-- The traversing lanes taken in ascending order: the rays after the step, and the faults. -/
def raySteps (c : Nat) (k : CtxKey) (visits : Nat) : List Nat → List RayLane → State → Option (List RayLane × List LaneFault × State)
  | [], rays, s => some (rays, [], s)
  | l :: ls, rays, s =>
    match walkRay c k visits { rays.getD l noRay with cand := none, candHit := [], status := 0 } s with
    | none => none
    | some (some f, r, s) => (raySteps c k visits ls (setNth l r.failed rays) s).map fun x => (x.1, (l, f.1, f.2) :: x.2.1, x.2.2)
    | some (none, r, s) =>
      let (v, s) := s.fresh
      raySteps c k visits ls (setNth l (r.settle v) rays) s

/-! ## The instructions -/

/-- A traversal begins for some lanes: the group waits for the unit. -/
def Group.trace (g : Group) (resume : Bool) (op : BitVec 8) (w : HWord) (area : Nat) (lanes : Word) : Group :=
  { g with st := .tracing resume, pend := some { op := op, w := w, va := area, lanes := lanes } }

/-- The new ray of a lane. -/
def rayOf (src : Srcs) (flags : Nat) : RayLane :=
  RayLane.rewind
    { noRay with root := src.a, world := (List.range 8).map fun i => BitVec.ofNat 32 (fld src.b (32 * i + 31) (32 * i)),
                 flags := BitVec.ofNat 5 flags, mask := BitVec.ofNat 8 (fld src.c 31 24) }

/-- RAY: the rays of the active lanes start at the root (R136 to R138). -/
def execRay (c g : Nat) (w : HWord) (s : State) : Res :=
  .next (s.issue rayShape (fun i g s =>
    let act := g.active w
    let src := fun (l : Nat) => g.srcs rayShape w l
    let area := (src 0).c % 2 ^ 17
    if act = 0 then .go (g.advance w) s
    else if area % 16 ≠ 0 then .fault { kind := .misaligned, addr := area, lanes := act, write := false, atomic := false } s
    else
      let (v, s) := s.fresh
      let rays := laneIds.map fun l => if act.toNat.testBit l then rayOf (src l) w.mode.toNat else g.rays.getD l noRay
      .go ({ g with rays := rays }.trace false 0x74 w area act) (s.putRecords i.c g.wg area rays act v)) c g w)

/-- RAYRESUME: the lanes that stopped for a callback go on, their candidates rejected unless committed; the others answer
what they have. A lane that never started a ray has no stated result: a free one, which it keeps. -/
def execRayresume (c g : Nat) (w : HWord) (s : State) : Res :=
  .next (s.issue rayresumeShape (fun i g s =>
    let act := g.active w
    let area := (g.srcs rayresumeShape w 0).c % 2 ^ 17
    if area % 16 ≠ 0 ∧ act ≠ 0 then .fault { kind := .misaligned, addr := area, lanes := act, write := false, atomic := false } s
    else
      let (v, s) := s.fresh
      let rays := laneIds.map fun l =>
        let r := g.rays.getD l noRay
        if r.world.isEmpty ∧ r.out.isEmpty then { r with out := (List.range 8).map fun j => rayFree v (8 * l + j) } else r
      let go_ := maskBy fun l => act.toNat.testBit l && (rays.getD l noRay).pending
      let g := { g with rays := rays }
      if go_ = 0 then .go ((g.putRays w act).advance w) s
      else .go (g.trace true 0x75 w area act) (s.putRecords i.c g.wg area rays go_ v)) c g w)

/-- RAYACCEPT: the candidates of the active lanes are committed, a procedural one at the t given if it lies in reach
(R137); a ray that ends at its first committed hit has then finished. -/
def execRayaccept (c g : Nat) (w : HWord) (s : State) : Res :=
  .next (s.issue rayacceptShape (fun _ g s =>
    let (v, s) := s.fresh
    let act := g.active w
    let commit := fun (l : Nat) (r : RayLane) (hit : List Word) (front : Bool) =>
      let r := { r with hit := hit, hitFront := front, cand := none }
      if bitOf r.flags.toNat 0 then { r with status := 1 }.settle (64 * v + l) else r
    let accept := fun (l : Nat) (r : RayLane) =>
      if !(act.toNat.testBit l) ∨ r.cand.isNone then r
      else
        let t := BitVec.ofNat 32 (g.srcs rayacceptShape w l).b
        if r.status = 2 then commit l r r.candHit r.candFront
        else if r.inReach t then
          commit l r ([t, rayFree v (2 * l), rayFree v (2 * l + 1)] ++ r.candHit.drop 3) (rayBit v (64 + l))
        else r
    .go ({ g with rays := (enumFrom 0 g.rays).map fun (x : Nat × RayLane) => accept x.1 x.2 }.advance w) s) c g w)

/-- RAY_TRAVERSAL_DONE: every traversing lane's ray has finished or stopped for a callback, in at most so many visits each (R137);
a ray that needs more has not returned yet, and nothing happens. -/
def execRayTraversalDone (c g : Nat) (visits : Nat) (s : State) : Res :=
  match s.clusters[c]? with
  | none => .next s
  | some cl =>
    match cl.group? g, cl.run with
    | some g, some run =>
      match g.st, g.pend with
      | .tracing again, some p =>
        let lanes := (lanesOf p.lanes).filter fun l => !again || (g.rays.getD l noRay).pending
        match raySteps c run.key visits lanes g.rays s with
        | none => .next s
        | some (rays, fs, s) =>
          let g := { g with st := .running, pend := none, rays := rays }
          match laneFault fs false false with
          | some f => .next (s.groupFault c run g f)
          | none =>
            let (v, s) := s.fresh
            let s := s.putRecords c g.wg p.va rays (maskOf lanes) v
            .next (s.putGroup c ((g.putRays p.w p.lanes).advance p.w))
      | _, _ => .next s
    | _, _ => .next s

end Sys2Proof.Machine
end

