-- ==== Sys2Proof/Machine/Faults.lean ====
section
/-! DEFINITION. Fault reports, stops, parking and replay (R95, R96, R290, R291), and the completion of accesses (R311). -/

namespace Sys2Proof.Machine

/-! ## FAULT_REPORT -/

/-- A running layer of a job given up by an array (R163): the array keeps a grant, if it holds one, for its tile. -/
def Array.stopJob (job : Nat) (a : Array) : Array :=
  match a.layer with
  | some w =>
    if w.job = job then
      { a with layer := none, core := { a.core with ring := a.core.ring.drop 1, busy := false } }
    else a
  | none => a

/-- A ring without the works of a job that its engine has not begun. -/
def ringWithoutJob (job : Nat) (r : List RingEntry) : List RingEntry :=
  r.filter fun e => match e with
    | .work w _ => w.job != job
    | _ => true

/-- Every layer of a NET_RUN stopped: on the arrays, on the clusters, and those not yet dealt (R163). -/
def State.stopNet (job : Nat) (s : State) : State :=
  let mine := fun (cl : Cluster) => match cl.run with
    | some r => r.work.job == job
    | none => false
  let s := runAll (fun (x : Nat × Cluster) (s : State) => if mine x.2 then s.flushL1 x.1 else s) (enumFrom 0 s.clusters) s
  { s with
    clusters := s.clusters.map fun cl =>
      let core := { cl.core with ring := ringWithoutJob job cl.core.ring }
      if mine cl then { cl.empty with core := { core with busy := false } } else { cl with core := core }
    arrays := s.arrays.map fun a =>
      let a := a.stopJob job
      { a with core := { a.core with ring := ringWithoutJob job a.core.ring } }
    ctxs := s.ctxs.map fun c => { c with saved := c.saved.filter fun v => match v.run with
      | some r => r.work.job != job
      | none => true }
    sluice := { s.sluice with ready := s.sluice.ready.filter fun w => w.job != job } }

/-- The stop that Sluice sends to the clusters of the faulting kernel (R95, step 2). -/
def State.sendStops (job : Nat) (s : State) : State :=
  { s with clusters := s.clusters.map fun cl => match cl.run with
      | some r => if r.work.job = job then { cl with stopJob := some job } else cl
      | none => cl }

/-- FAULT_REPORT: Sluice takes a report that waits, records it and sends the stop (R95, step 2). A fault of a NET_RUN first stops
its layers, and is recorded once their accesses are complete (R163). -/
def execFaultReport (i : Nat) (s : State) : Res :=
  match s.sluice.reports[i]? with
  | none => .next s
  | some r =>
    if !(s.procUp 1) ∨ s.fatal then .next s
    else
      let s := match r.job with
        | some j => if r.source = 1 then s.stopNet j else s
        | none => s
      if r.source = 1 ∧ s.layersInFlight r.key then .next s
      else
        let s := s.modSluice fun l => { l with reports := l.reports.eraseIdx i }
        let s := (s.recordFault r).2
        .next (match r.job with
          | some j => if parkingSource r.source then s.sendStops j else s
          | none => s)

/-! ## Parking -/

/-- KERNEL_STOP: the groups of the kernel park at their next instruction boundary (R95, step 3). -/
def execKernelStop (c : Nat) (s : State) : Res :=
  match s.clusters[c]? with
  | none => .next s
  | some cl =>
    match cl.stopJob, cl.run with
    | some j, some r =>
      .next (s.modCluster c fun cl =>
        { cl with stopJob := none, groups := if r.work.job = j then cl.groups.map fun g => { g with parked := true } else cl.groups })
    | some _, none => .next (s.modCluster c fun cl => { cl with stopJob := none })
    | none, _ => .next s

/-- Whether a group is past the effect of what it issued: it does not trace (R95, step 3). -/
def Group.atBoundary (g : Group) : Bool :=
  g.stopped && match g.st with
    | .tracing _ => false
    | _ => true

/-- Whether every group of the faulting kernels of a context is parked, with no stop and no report on its way. -/
def State.allParked (s : State) (k : CtxKey) : Bool :=
  !(s.sluice.reports.any fun r => decide (r.key = k)) &&
    s.clusters.all fun cl => match cl.run with
      | none => true
      | some r =>
        match s.job? r.work.job with
        | none => true
        | some j =>
          decide (j.key ≠ k) || !j.hasFault || (cl.stopJob.isNone && cl.groups.all Group.atBoundary)

/-- GROUPS_PARKED: step 4 of R95; an episode that is not eligible now loses the context (R291). -/
def execGroupsParked (fn ctx : Nat) (s : State) : Res :=
  let k : CtxKey := { fn := fn, id := ctx }
  match s.ctx? k with
  | none => .next s
  | some c =>
    match c.episode with
    | none => .next s
    | some e =>
      if !e.waiting ∨ !(s.allParked k) ∨ !(s.procUp 1) then .next s
      else
        let s := s.modCtx k fun c => { c with episode := some { e with waiting := false } }
        .next (if e.eligible then s else s.lose k)

/-! ## CTX_REPLAY (R96) -/

/-- A parked group goes on: a faulting one with its instruction again, one at a breakpoint after it. Its traversals were discarded:
rays that stopped for a callback go back to the root (R138). -/
def Group.replay (g : Group) : Group :=
  let g := { g with parked := false, rays := g.rays.map fun (r : RayLane) => if r.pending then r.rewind else r }
  match g.st with
  | .faulted .breakpoint =>
    let g := match g.pend with
      | some p => g.advance p.w
      | none => g
    { g with st := .running, pend := none }
  | .faulted _ => { g with st := .running }
  | _ => g

/-- The groups of a context resumed, on clusters and in save areas; clusters and slices go on. -/
def State.replayGroups (k : CtxKey) (s : State) : State :=
  let mine := fun (cl : Cluster) => match cl.run with
    | some r => decide (r.key = k)
    | none => false
  let s := { s with
    clusters := s.clusters.map fun cl =>
      if mine cl then { cl with stopJob := none, groups := cl.groups.map Group.replay } else cl
    ctxs := s.ctxs.map fun c =>
      if c.key = k then { c with saved := c.saved.map fun v => { v with groups := v.groups.map Group.replay } } else c }
  let s := runAll (fun (x : Nat × Cluster) (s : State) => if mine x.2 then s.proceed x.1 else s) (enumFrom 0 s.clusters) s
  runAll (fun (i : Nat) (s : State) => s.drainSlice i 1025) (List.range 48) s

/-- The CTX_REPLAY packet (R278). -/
def ctxReplaySpec : OpSpec :=
  { opcode := 0x14, assigned := true, may := mayAny, mailbox := false, job := false, lostOk := false, len := fun _ => 8,
    reserved := fun _ => [(0x00, 31, 10), (0x04, 95, 0)] }

/-- CTX_REPLAY at its own checks (R96, R291). -/
def ctxReplay (p : Pk) (s : State) : Verdict :=
  match s.named p (p.f 0 9 0) 0x00 false with
  | .error (st, d) => .reply st d s
  | .ok c =>
    if c.st ≠ .faulted then .reply stNotPermitted 0 s
    else if (c.episode.elim false fun e => e.waiting) then .hold .faulted
    else
      let s := (s.endEpisode c.key).modCtx c.key fun c => { c with st := .active }
      .reply stOk 0 (s.replayGroups c.key)

def execCtxReplay (src : Src) (p : Packet) (s : State) : Res := .next (s.takePacket ctxReplaySpec ctxReplay src p)

/-! ## ACCESS_COMPLETE (R94, R311, R412) -/

/-- The fault that the error of an array's or a front end's access is. -/
def State.accessFault (e : Engine) (a : Access) (f : FaultKind) (s : State) : State :=
  match e with
  | .array i =>
    match s.arrays[i]?.bind (·.layer) with
    | some w => match w.kind with
      | .layer l => s.netFault w.job l (engineIsland e) f a.write false a.va
      | _ => s
    | none => s
  | .front i =>
    match s.fronts[i]?.bind (·.job) with
    | some j => s.frontFault i j (f, a.write, a.va)
    | none => s
  | _ => s

/-- ACCESS_COMPLETE: an access of an engine leaves the count of its epoch. A cluster's read across the link answers the group
that waits for it. -/
def execAccessComplete (e : Engine) (epoch : BitVec 8) (how : AccessEnd) (s : State) : Res :=
  let mine := fun (a : Access) => decide (a.who = .engine e) && decide (a.epoch = epoch)
  match s.flight.find? mine with
  | none => .next s
  | some a =>
    if s.neverEnds a.key.fn how ∨ (a.tag.any fun t => s.pcie.reqs.any fun r => r.tag == t && !r.issued) then .next s else
    let s := { s with flight := dropFirst mine s.flight }
    let log := fun (s : State) => s.logEnd a.key.fn how
    match a.tag, e with
    | some tag, .cluster c =>
      match s.pcie.reqs.find? fun r => r.tag == tag with
      | none => .next s
      | some r =>
        let s := s.endRequest tag
        match r.owner with
        | .group _ slot => .next (((log s).groupAnswered c slot tag (faultOf how)).orphanFault r.orphan (faultOf how))
        | _ => .next (log s)
    | _, .copy i =>
      match faultOf how with
      | none => .next s
      | some _ => chunkEnd i how (some a) s
    | _, _ =>
      match faultOf how with
      | none => .next s
      | some f => .next ((log s).accessFault e a f)

end Sys2Proof.Machine
end

