-- ==== Sys2Proof/Machine/Power.lean ====
section
/-! DEFINITION. Operating points, the loops of Weir, emergencies, A2, ageing and replans (R322 to R341), and POWER_VOTE
(R342). -/

namespace Sys2Proof.Machine

/-! ## Operating points (R322, R323) -/

/-- An emergency is in force (R335). -/
def State.emergency (s : State) : Bool := s.weir.powerEmerg || s.weir.thermEmerg

/-- The detail of an emergency: 1 power, 2 thermal, 1 when both apply (R336). -/
def State.emergencyDetail (s : State) : Nat := if s.weir.powerEmerg then 1 else 2

/-- The point at which an island is to run (R323, R325, R326, R373). -/
def State.pointOf (s : State) (i : Island) : Nat :=
  if onComputeDie i.id ∧ s.emergency then 0
  else if i.drooped then 0
  else if s.weir.clamped ∧ (regulated i.id ∨ isCopyIsland i.id) then 0
  else if regulated i.id ∨ isCopyIsland i.id then min i.thermCap (if onComputeDie i.id then min 7 s.weir.cap else 7)
  else 7

/-- The limit of a supply in mV: a regulator stays at or below 0.85 V (R398). -/
def supplyLimit : Nat := 850

/-- An island at a point: its frequency, and for a regulated island a voltage inside the limits of the point, which starts
at V_MAX (log entry 61). A change of frequency counts (R391). -/
def Island.moveTo (k : Nat) (i : Island) : Island :=
  match i.plan[k]? with
  | none => i
  | some p =>
    let f := if regulated i.id ∨ isCopyIsland i.id then p.freqKHz else i.freqKHz
    { i with
      point := k
      freqKHz := f
      changes := if f = i.freqKHz then i.changes else i.changes + 1
      mv := if regulated i.id ∧ k ≠ i.point then min p.vMax supplyLimit else i.mv }

/-- An island moved at once to the point that R323 gives it; an island without power moves when it powers on. -/
def State.settle' (sel : Island → Bool) (s : State) : State :=
  { s with islands := s.islands.map fun i =>
      if sel i && !i.a2 && !i.off && !i.inReset then i.moveTo (s.pointOf i) else i }

/-- Compute-die islands clamped by hardware (R334, R335). -/
def State.clampCompute (s : State) : State := s.settle' fun i => onComputeDie i.id

/-- POINT_CHANGE: an island reaches its point (R323). -/
def execPointChange (island : Nat) (s : State) : Res := .next (s.settle' fun i => i.id == island)

/-! ## Emergencies (R335) -/

/-- The power cap that the end of the emergencies restores is the one at the begin of the first. -/
def Weir.noteCap (w : Weir) : Weir := if w.powerEmerg || w.thermEmerg then w else { w with capAtStart := w.cap }

/-- A power emergency begins. -/
def State.beginPower (s : State) : State :=
  if s.weir.powerEmerg then s
  else (s.modWeir fun w => { w.noteCap with powerEmerg := true, powerEvents := satInc w.powerEvents }).clampCompute

/-- A thermal emergency begins: every thermal cap is at most 3. -/
def State.beginThermal (s : State) : State :=
  if s.weir.thermEmerg then s
  else
    let s := s.modWeir fun w => { w.noteCap with thermEmerg := true, thermEvents := satInc w.thermEvents, coolSince := none }
    ({ s with islands := s.islands.map fun i => { i with thermCap := min i.thermCap 3 } } : State).clampCompute

/-- A deferred or paused activation goes on when no emergency remains (R370). -/
def State.resumeActivation (s : State) : State :=
  if s.emergency then s
  else s.modLevee fun v => match v.activation with
    | .deferred => { v with activation := .running }
    | .paused => { v with activation := .running }
    | _ => v

/-- An emergency ended: with none left the power cap returns to its value at the begin, and an activation goes on. -/
def State.emergencyOver (s : State) : State :=
  if s.emergency then s else (s.modWeir fun w => { w with cap := w.capAtStart, below := 0, over110 := 0 }).resumeActivation

/-- PWR_ALERT_N low for 1 µs (R334). -/
def execPwrAlert (s : State) : Res :=
  let s := s.modWeir fun w => { w with alertLow := true }
  .next (if s.aon.mode = .a then s.beginPower else s)

/-- PWR_ALERT_N high: the count of 10 ms begins (R335). -/
def execPwrAlertRelease (s : State) : Res :=
  .next (if s.weir.alertLow then s.modWeir fun w => { w with alertLow := false, alertHighAt := s.now } else s)

/-- The end of a power emergency: PWR_ALERT_N high for 10 ms, the last 10 windows within the limit (R335). -/
def execPowerEmergencyEnd (s : State) : Res :=
  let w := s.weir
  if !w.powerEmerg ∨ w.alertLow ∨ s.now < w.alertHighAt + 10000 ∨ w.okWindows < 10 ∨ !(s.procUp 2) then .next s
  else .next ((s.modWeir fun w => { w with powerEmerg := false }).emergencyOver)

/-- The power limit in mW (R333, R357): settings outside 25 to 60 W act as the nearer limit. -/
def Weir.limitMw (w : Weir) : Nat := 250 * max 100 (min 240 (fld w.pwrLimit.toNat 8 0))

/-- POWER_WINDOW: a window of 1 ms ends with an average (R333). Outside an emergency Weir moves the cap; three windows in a row
above 110 % of the limit at cap 0 begin a power emergency. A PWR_ALERT_N that a boot or a wake finds low begins one too. -/
def execPowerWindow (mw : Nat) (s : State) : Res :=
  if s.aon.mode ≠ .a ∨ !(s.procUp 2) then .next s
  else
    let lim := s.weir.limitMw
    let s := if s.weir.alertLow then s.beginPower else s
    let s := s.modWeir fun w =>
      { w with lastMw := mw, window := (mw :: w.window).take 1000, okWindows := if mw ≤ lim then w.okWindows + 1 else 0 }
    if s.emergency then .next s
    else
      let s := s.modWeir fun w =>
        let excess := if w.cap = 0 ∧ lim * 11 < mw * 10 then w.over110 + 1 else 0
        let w := { w with over110 := excess }
        if lim < mw then { w with cap := w.cap - 1, below := 0 }
        else if mw * 10 ≤ lim * 9 then
          (if 4 ≤ w.below + 1 ∧ w.cap < 7 then { w with cap := w.cap + 1, below := 0 } else { w with below := w.below + 1 })
        else { w with below := 0 }
      .next (if 3 ≤ s.weir.over110 then s.beginPower else s)

/-! ## Temperature (R327 to R329) -/

/-- The thresholds of WEIR_THERM_CFG. -/
def Weir.throttleC (w : Weir) : Int := Int.ofNat (fld w.thermCfg.toNat 7 0)
def Weir.emergC (w : Weir) : Int := Int.ofNat (fld w.thermCfg.toNat 15 8)
def Weir.tripC (w : Weir) : Int := Int.ofNat (fld w.thermCfg.toNat 23 16)

/-- Whether a sensor covers an island's thermal cap (R327, R329): clusters, arrays, front ends, bank groups and system cache
islands by their own sensors; every I/O-die sensor covers the copy engines. -/
def sensorCovers (k id : Nat) : Bool :=
  if id < 0x30 then k == id / 2
  else if id < 0x39 then k == id - 0x30 + 24
  else if 0x40 ≤ id ∧ id < 0x48 then k == id - 0x40 + 40
  else if 0x48 ≤ id ∧ id < 0x4C then k == id - 0x48 + 48
  else if 0x50 ≤ id ∧ id < 0x54 then k == id - 0x50 + 33
  else isCopyIsland id && decide (52 ≤ k) && decide (k < 64)

/-- A trip begins: a thermal emergency, the clocks of the compute die stopped, THERM_N asserted (R335, R406). -/
def State.beginTrip (s : State) : State :=
  let s := s.beginThermal
  if s.weir.trip then s
  else (s.modWeir fun w => { w with trip := true, trips := satInc w.trips }).modAon fun a => { a with thermN := false }

/-- A trip ends: the clocks restart, THERM_N is released; the time limits of compute-die resets begin (R380). -/
def State.endTrip (s : State) : State :=
  let s := (s.modWeir fun w => { w with trip := false }).modAon fun a => { a with thermN := true }
  { s with resets := s.resets.map fun r => if r.islands.any onComputeDie && r.kind != 8 then { r with startedAt := s.now } else r }

/-- SENSOR_SAMPLE: the 64 sensors are read (R327, R335). They are off in S3 and without power. -/
def execSensorSample (temps : List Int) (s : State) : Res :=
  if s.aon.mode = .s3 ∨ s.aon.mode = .off ∨ s.aon.mode = .wakingS3 then .next s
  else
    let w := s.weir
    let s := s.modWeir fun w => { w with temps := takePad 0 64 temps }
    let ts := s.weir.temps
    let s := if ts.any fun t => decide (w.tripC ≤ t) then s.beginTrip
      else if s.weir.trip && ts.all fun t => decide (t + 10 ≤ w.tripC) then s.endTrip else s
    let s := if ts.any fun t => decide (w.emergC ≤ t) then s.beginThermal else s
    let cool := ts.all fun t => decide (t + 10 ≤ w.emergC)
    .next (s.modWeir fun w => { w with coolSince := if cool then some (w.coolSince.getD s.now) else none })

/-- The end of a thermal emergency: every sensor 10 °C below EMERG_C for 100 ms, and no trip (R335). -/
def execThermalEmergencyEnd (s : State) : Res :=
  let w := s.weir
  let cooled : Bool := match w.coolSince with
    | some t => decide (t + 100000 ≤ s.now)
    | none => false
  if !w.thermEmerg ∨ w.trip ∨ !cooled ∨ !(s.procUp 2) then .next s
  else .next ((s.modWeir fun w => { w with thermEmerg := false }).emergencyOver)

/-- The sensors that cover an island, as their readings. -/
def State.sensorsOf (s : State) (id : Nat) : List Int :=
  (enumFrom 0 s.weir.temps).filterMap fun x => if sensorCovers x.1 id then some x.2 else none

/-- THERMAL_CAP_LOWER: the islands that a sensor at or above THROTTLE_C covers lose one point of their cap (R329). -/
def execThermalCapLower (s : State) : Res :=
  if !(s.procUp 2) ∨ s.aon.mode ≠ .a then .next s
  else
    .next { s with islands := s.islands.map fun i =>
      if (s.sensorsOf i.id).any fun t => decide (s.weir.throttleC ≤ t) then { i with thermCap := i.thermCap - 1 } else i }

/-- THERMAL_CAP_RISE: the cap of an island whose sensors read 5 °C below THROTTLE_C rises by one point, to at most 3 during a
thermal emergency (R329, R335). -/
def execThermalCapRise (s : State) : Res :=
  if !(s.procUp 2) ∨ s.aon.mode ≠ .a then .next s
  else
    let top := if s.weir.thermEmerg then 3 else 7
    .next { s with islands := s.islands.map fun i =>
      let ts := s.sensorsOf i.id
      if !ts.isEmpty && (ts.all fun t => decide (t + 5 ≤ s.weir.throttleC)) && decide (i.thermCap < top) then
        { i with thermCap := i.thermCap + 1 }
      else i }

/-! ## Droop and trim (R324, R325) -/

/-- DROOP_STRETCH: a stretched cycle counts as one cycle, so nothing changes (R15, R324). -/
def execDroopStretch (_island : Nat) (s : State) : Res := .next s

/-- SEVERE_DROOP: a regulated island drops to point 0 for 1 ms (R325). -/
def execSevereDroop (island : Nat) (s : State) : Res :=
  if !(regulated island) ∨ !(s.islandUp island) then .next s
  else
    let s := (s.modIsland island fun i => { i with drooped := true }).settle' fun i => i.id == island
    .next (s.modWeir fun w => { w with droops := satInc w.droops })

/-- SEVERE_DROOP_END: the island returns through the loops (R325). -/
def execSevereDroopEnd (island : Nat) (s : State) : Res := .next (s.modIsland island fun i => { i with drooped := false })

/-- VOLTAGE_TRIM: the regulator steps 5 mV towards the slack of the running point, between its V_MIN and V_MAX (R324). -/
def execVoltageTrim (island : Nat) (slack : Int) (s : State) : Res :=
  if !(regulated island) ∨ !(s.islandUp island) then .next s
  else
    .next (s.modIsland island fun i => match i.plan[i.point]? with
      | none => i
      | some p =>
        let v := if p.slack < slack then i.mv - 5 else if slack < p.slack then i.mv + 5 else i.mv
        { i with mv := max p.vMin (min (min p.vMax supplyLimit) v) })

/-! ## A2 (R331) -/

/-- Whether a unit holds nothing of any context and has no access outstanding (R331). -/
def State.unitBare (s : State) (e : Engine) : Bool :=
  (match s.engine? e with
    | some c => c.ring.isEmpty && !c.busy && c.sw.isNone
    | none => false) &&
  s.flight.all (fun a => decide (a.who ≠ .engine e)) &&
  (match e with
    | .cluster i => match s.clusters[i]? with
      | some c => c.groups.isEmpty && c.tiles.isEmpty && c.run.isNone &&
          s.pcie.reqs.all fun r => match r.owner with
            | .group c _ => c != i
            | .order c _ => c != i
            | _ => true
      | none => false
    | .array i => match s.arrays[i]? with
      | some a => a.grant.isNone && a.kept.isNone && a.layer.isNone
      | none => false
    | .front i => match s.fronts[i]? with
      | some f => f.job.isNone
      | none => false
    | .copy i => match s.copies[i]? with
      | some c => c.job.isNone && c.chunk.isNone
      | none => false)

/-- What a unit loses with its power: range cache entries, L1 lines, tile memory (R331). -/
def State.forget (e : Engine) (s : State) : State :=
  let s := s.modEngine e fun c => { c with cache := [] }
  match e with
  | .cluster i => s.modCluster i fun c => { c with l1 := [], tileMem := [] }
  | _ => s

/-- A2_ENTRY: a unit that has been idle long enough is powered off (R331); the command stands for the time (log entry 155). -/
def execA2Entry (e : Engine) (s : State) : Res :=
  if !(bitOf s.weir.cfg.toNat 18) ∨ !(s.enabled e) ∨ !(s.islandUp (engineIsland e)) ∨ !(s.unitBare e) then .next s
  else .next ((s.forget e).modIsland (engineIsland e) fun i => { i with a2 := true })

/-- The way groups powered in A: 0 to SC_GROUPS_MAX (R332). -/
def State.wayGroups (s : State) : BitVec 4 := BitVec.ofNat 4 (2 ^ (fld s.weir.cfg.toNat 17 16 + 1) - 1)

/-- Every slice has the way groups of R332 again; a group that powers up starts empty. -/
def State.wakeWays (s : State) : State :=
  let s := s.modWeir fun w => { w with scIdle := false }
  s.modSc fun c => { c with slices := c.slices.map fun x => { x with ways := x.ways ||| s.wayGroups, cleaning := none } }

/-- A request powers the unit on, at the point that its plan and limits now give (R19, R331, R340). The first dispatch
after every unit was in A2 powers the way groups up (R332). -/
def State.wakeUnit (e : Engine) (s : State) : State :=
  let id := engineIsland e
  match s.island? id with
  | none => s
  | some i =>
    if !i.a2 ∨ i.off ∨ i.inReset then s
    else
      let s := (s.modIsland id fun i => { i with a2 := false }).settle' fun i => i.id == id
      if s.weir.scIdle then s.wakeWays else s

/-- A2_WAKE. -/
def execA2Wake (e : Engine) (s : State) : Res := .next (s.wakeUnit e)

/-! ## Ageing (R337 to R341) -/

/-- A replan of every island joins the waiting ones. -/
def State.scheduleReplan (s : State) : State :=
  s.modWeir fun w => { w with retryReplan := false, replans := w.replans ++ [{ island := 0xFF, origin := none }] }

/-- ACTIVE_HOUR: an hour in A passes: the counts rise and are logged; a replan that is due starts (R337, R338). -/
def execActiveHour (s : State) : Res :=
  if s.aon.mode ≠ .a then .next s
  else
    let s := s.modWeir fun w => { w with hours := w.hours + 1, sinceReplan := w.sinceReplan + 1 }
    let s := s.logWrite 0x01 (hoursPayload s.weir)
    let due := (decide (500 ≤ s.weir.sinceReplan) || s.weir.retryReplan) && !(s.weir.replans.any fun r => r.origin.isNone)
    .next (if due then s.scheduleReplan else s)

/-- The points that a replan derives from FMAX (R338, R339, R398). Point 7 is nominal, or FMAX rounded down to 25 MHz; what else
the points hold is free within the limits that the spec sets (log entry 62). -/
def derivePlan (k id fmax : Nat) : List PlanPoint :=
  let nominal := nominalOf id
  let top := if (regulated id ∨ isCopyIsland id) ∧ fmax < nominal then fmax / 25000 * 25000 else nominal
  (List.range 8).map fun j =>
    let w (n : Nat) : Nat := Config.planWord k id (4 * j + n)
    let vMax := w 1 % (supplyLimit + 1)
    { freqKHz := if j = 7 then top else if regulated id ∨ isCopyIsland id then w 0 % (top + 1) else nominal,
      vMax := vMax, vMin := w 2 % (vMax + 1), slack := Int.ofNat (w 3) }

/-- The islands of a replan with their measured FMAX, in kHz, in ascending order of ID. -/
def State.replanned (s : State) (k island : Nat) (fmax : List Nat) : List Island :=
  let ids := (s.islands.map (·.id)).filter fun id => s.islandUsable id && (island == 0xFF || id == island)
  s.islands.map fun i =>
    match ids.idxOf? i.id with
    | some n =>
      let f := fmax.getD n i.fmax
      { i with fmax := f, plan := derivePlan k i.id f }
    | none => i

/-- A replan's outcome goes to the packet that asked for it. -/
def State.replyReplan (o : Option Origin) (status detail : Nat) (s : State) : State :=
  match o with
  | some o => s.replyBy o 0x64 status detail
  | none => s

/-- REPLAN_DONE: the measurements of the replan at the head, its log write and its application (R338, R339). It waits for the
flash while FW_STAGE programs a slot (R393). -/
def execReplanDone (fmax : List Nat) (logOk : Bool) (s : State) : Res :=
  match s.weir.replans with
  | [] => .next s
  | r :: rest =>
    if s.levee.staging.isSome ∨ !(s.procUp 2) ∨ s.aon.mode ≠ .a then .next s
    else
      let s := s.modWeir fun w => { w with replans := rest }
      let (k, s) := s.fresh
      let isl := s.replanned k r.island fmax
      let version := s.weir.planVersion + 1
      let log := if logOk then (appendLog 0x02 (planPayload isl version) true s.log).bind fun l => appendLog 0x03 (agePayload isl) true l
        else none
      match log with
      | none =>
        let s := if r.origin.isNone then s.modWeir fun w => { w with retryReplan := true } else s
        .next (s.replyReplan r.origin stNoResource 0x10)
      | some l =>
        let s := { s with log := l, islands := isl }
        let s := (s.modWeir fun w => { w with planVersion := version, sinceReplan := 0 }).marginFlags
        let s := s.settle' fun _ => true
        .next (s.replyReplan r.origin stOk version.toNat)

/-- The MARGIN_REPLAN packet (R278, R282). -/
def marginReplanSpec : OpSpec :=
  { opcode := 0x06, assigned := true, may := mayPf0, mailbox := false, job := false, lostOk := false, len := fun _ => 8,
    reserved := fun _ => [(0x00, 31, 8), (0x04, 95, 0)] }

/-- MARGIN_REPLAN at its own checks (R336, R341); it is held while Weir is down (R373). -/
def marginReplan (p : Pk) (s : State) : Verdict :=
  let id := p.f 0 7 0
  if !(s.procUp 2) then .hold .other
  else if id ≠ 0xFF ∧ !(s.islandUsable id) then .reply stBadParam 0x00 s
  else if s.emergency then .reply stEmergency s.emergencyDetail s
  else .owed (s.modWeir fun w => { w with replans := w.replans ++ [{ island := id, origin := some p.origin }] })

def execMarginReplan (src : Src) (p : Packet) (s : State) : Res := .next (s.takePacket marginReplanSpec marginReplan src p)

/-- WEIR_DOWN_CLAMP: with Weir down for 10 ms every regulated island and copy engine goes to point 0 (R373). -/
def execWeirDownClamp (s : State) : Res :=
  match s.procs[2]? with
  | none => .next s
  | some p =>
    if s.procUp 2 ∨ s.now < p.downSince + 10000 ∨ s.aon.mode ≠ .a then .next s
    else .next ((s.modWeir fun w => { w with clamped := true }).settle' fun _ => true)

/-! ## Votes (R342) -/

/-- The POWER_VOTE packet (R278, R282). -/
def powerVoteSpec : OpSpec :=
  { opcode := 0x60, assigned := true, may := mayAny, mailbox := false, job := false, lostOk := false, len := fun _ => 8,
    reserved := fun _ => [(0x00, 31, 2), (0x04, 95, 0)] }

/-- POWER_VOTE at its own checks. -/
def powerVote (p : Pk) (s : State) : Verdict :=
  let v := p.f 0 1 0
  if v = 3 then .reply stBadParam 0x00 s else .reply stOk 0 (s.modFun p.fn fun f => { f with vote := v })

def execPowerVote (src : Src) (p : Packet) (s : State) : Res := .next (s.takePacket powerVoteSpec powerVote src p)

end Sys2Proof.Machine
end

