-- ==== Sys2Proof/Machine/Measure.lean ====
section
/-! DEFINITION. The measurement blocks and the identity key's signature (R254, R366). -/

namespace Sys2Proof.Machine

/-- The image of a processor. -/
def State.runningImage (s : State) (p : Nat) : Option FwImage :=
  match s.procs[p]? with
  | some r => r.image
  | none => none

/-- The digest of processor p's running image. -/
def State.imageDigest (s : State) (p : Nat) : List Byte :=
  match s.runningImage p with
  | some i => takePad 0 32 i.digest
  | none => List.replicate 32 0

/-- The bytes of measurement number i that the spec does not give (log entry 64), of some facts. -/
def measured (i : Nat) (facts : List Nat) : List Byte := (List.range 32).map (Config.measureByte (i :: facts))

/-- The facts of the public OTP state. -/
def State.otpFacts (s : State) : List Nat :=
  let v := s.levee
  v.otpKeys.flatMap (fun k => match k with
    | some bs => 1 :: bs.map (·.toNat)
    | none => [0]) ++ [v.otpRevoked.toNat, v.otpSvn] ++ s.part.spare

/-- The facts of the levee windows and the protected mask. -/
def State.leveeFacts (s : State) : List Nat :=
  s.funs.flatMap (fun f => f.dramWin.flatMap (fun w => [w.1, w.2]) ++ [f.rsvMask.toNat]) ++ [s.levee.protMask.toNat]

/-- The eight measurements: RELEASE and digest. -/
def State.measurements (s : State) : List (Word × List Byte) :=
  let image (p : Nat) : Word × List Byte := ((match s.runningImage p with
    | some i => i.release
    | none => 0), s.imageDigest p)
  [(0, measured 1 []), image 0, image 1, image 2, image 3, (0, measured 6 [b2n s.part.inlineEcc, s.part.rateMts, Config.bootLinkCfg.toNat]),
   (0, measured 7 s.otpFacts), (0, measured 8 s.leveeFacts)]

/-- A signature of the identity key over some bytes (log entry 64). -/
def signature (bs : List Byte) : List Byte := (List.range 384).map (Config.signatureByte bs)

end Sys2Proof.Machine
end

