-- ==== Sys2Proof/Machine/Doe.lean ====
section
/-! DEFINITION. The DOE mailboxes: DOE Discovery and SPDM 1.2 as Levee answers it (R254, R255). The layouts of the messages are
those of the protocols that R254 names (log entry 76). -/

namespace Sys2Proof.Machine

/-! ## DOE Discovery -/

/-- The answer to a discovery index: DOE Discovery itself is 0, CMA/SPDM is 1; a further index names nothing. -/
def discoveryAnswer (req : List Byte) : List Byte :=
  match (req.getD 0 0).toNat with
  | 0 => toLE 2 0x0001 ++ toLE 1 0 ++ toLE 1 1
  | 1 => toLE 2 0x0001 ++ toLE 1 1 ++ toLE 1 0
  | _ => toLE 2 0xFFFF ++ toLE 1 0 ++ toLE 1 0

/-! ## SPDM 1.2 -/

/-- An SPDM error: its code. -/
def spdmError (code : Nat) : List Byte := toLE 1 0x12 ++ toLE 1 0x7F ++ toLE 1 code ++ toLE 1 0

/-- The certificate chain of slot 0. -/
def certChain : List Byte := (List.range Config.certLen).map Config.certByte

/-- The digest of the certificate chain. -/
def certDigest : List Byte := sha256 certChain

def spdmVersion : List Byte := toLE 4 0x0410 ++ toLE 2 0x0100 ++ toLE 2 0x1200

/-- CERT_CAP, CHAL_CAP, MEAS_CAP with signature and MEAS_FRESH_CAP; data objects of up to 4 KiB. -/
def spdmCapabilities : List Byte :=
  toLE 2 0x6112 ++ toLE 2 0 ++ toLE 1 0 ++ [Config.spdmByte 0] ++ toLE 2 0 ++ toLE 4 0x36 ++ toLE 4 4096 ++ toLE 4 4096

/-- The algorithms that both sides support: SHA-256 measurements, RSASSA-3072, SHA-256. -/
def spdmAlgorithms (req : List Byte) : List Byte :=
  let asym := ofLE ((req.drop 8).take 4) &&& 4
  let hash := ofLE ((req.drop 12).take 4) &&& 1
  let meas := ofLE ((req.drop 6).take 1) &&& 1
  toLE 2 0x6312 ++ toLE 2 0 ++ toLE 2 36 ++ toLE 1 meas ++ toLE 1 0 ++ toLE 4 (2 * meas) ++ toLE 4 asym ++ toLE 4 hash ++
    List.replicate 12 0 ++ toLE 2 0 ++ toLE 2 0

def spdmDigests : List Byte := toLE 2 0x0112 ++ toLE 1 0 ++ toLE 1 1 ++ certDigest

/-- A portion of the certificate chain. -/
def spdmCertificate (req : List Byte) : List Byte :=
  let slot := (req.getD 2 0).toNat % 16
  let off := ofLE ((req.drop 4).take 2)
  let len := ofLE ((req.drop 6).take 2)
  if slot ≠ 0 ∨ Config.certLen ≤ off then spdmError 0x01
  else
    let n := min (min len 4080) (Config.certLen - off)
    toLE 2 0x0212 ++ toLE 1 0 ++ toLE 1 0 ++ toLE 2 n ++ toLE 2 (Config.certLen - off - n) ++ (certChain.drop off).take n

/-- 32 bytes that Levee draws. -/
def nonce (k : Nat) : List Byte := (List.range 32).map (Config.nonceByte k)

/-- A measurement block: index, specification, size, value type and digest. -/
def measurementBlock (m : Nat × Word × List Byte) : List Byte :=
  toLE 1 m.1 ++ toLE 1 1 ++ toLE 2 35 ++ [Config.spdmByte m.1] ++ toLE 2 32 ++ m.2.2

/-- What a signature of SPDM 1.2 covers: the prefix of the version, the context of the message, which fills 36 bytes from the right,
and the digest of the transcript (log entry 76). -/
def spdmSigned (context transcript : List Byte) : List Byte :=
  let version : List Byte := [0x64, 0x6D, 0x74, 0x66, 0x2D, 0x73, 0x70, 0x64, 0x6D, 0x2D, 0x76, 0x31, 0x2E, 0x32, 0x2E, 0x2A]
  (List.replicate 4 version).flatten ++ List.replicate (36 - context.length) 0 ++ context ++ sha256 transcript

/-- The bytes of "responder-challenge_auth signing". -/
def challengeContext : List Byte :=
  [0x72, 0x65, 0x73, 0x70, 0x6F, 0x6E, 0x64, 0x65, 0x72, 0x2D, 0x63, 0x68, 0x61, 0x6C, 0x6C, 0x65, 0x6E, 0x67, 0x65, 0x5F, 0x61, 0x75,
   0x74, 0x68, 0x20, 0x73, 0x69, 0x67, 0x6E, 0x69, 0x6E, 0x67]

/-- The bytes of "responder-measurements signing". -/
def measureContext : List Byte :=
  [0x72, 0x65, 0x73, 0x70, 0x6F, 0x6E, 0x64, 0x65, 0x72, 0x2D, 0x6D, 0x65, 0x61, 0x73, 0x75, 0x72, 0x65, 0x6D, 0x65, 0x6E, 0x74, 0x73,
   0x20, 0x73, 0x69, 0x67, 0x6E, 0x69, 0x6E, 0x67]

/-- The answer to CHALLENGE: slot 0 only. The signature covers what negotiated the version, capabilities and algorithms, the
certificates read, and the challenge. -/
def State.spdmChallenge (s : State) (f : Fun) (k : Nat) (req : List Byte) : List Byte :=
  if req.getD 2 0 ≠ 0 then spdmError 0x01
  else
    let summary := if req.getD 3 0 = 0 then [] else sha256 ((enumFrom 1 s.measurements).flatMap measurementBlock)
    let body := toLE 2 0x0312 ++ toLE 1 0 ++ toLE 1 1 ++ certDigest ++ nonce k ++ summary ++ toLE 2 0
    body ++ signature (spdmSigned challengeContext (f.spdmVca ++ f.spdmCerts ++ req ++ body))

/-- The answer to GET_MEASUREMENTS: the number of blocks, all of them or one, signed on request, with slot 0 only. The signature covers
what negotiated the version, capabilities and algorithms, and the measurements asked for since the last one. -/
def State.spdmMeasurements (s : State) (f : Fun) (k : Nat) (req : List Byte) : List Byte :=
  let op := (req.getD 3 0).toNat
  let sign := bitOf (req.getD 2 0).toNat 0
  let all := enumFrom 1 s.measurements
  let chosen := if op = 0 then [] else if op = 0xFF then all else all.filter fun m => m.1 == op
  if (op ≠ 0 ∧ chosen.isEmpty) ∨ (sign ∧ (req.getD 36 0).toNat % 16 ≠ 0) then spdmError 0x01
  else
    let record := chosen.flatMap measurementBlock
    let body := toLE 2 0x6012 ++ toLE 1 (if op = 0 then all.length else 0) ++ toLE 1 0 ++ toLE 1 chosen.length ++
      toLE 3 record.length ++ record ++ nonce k ++ toLE 2 0
    body ++ (if sign then signature (spdmSigned measureContext (f.spdmVca ++ f.spdmMeas ++ req ++ body)) else [])

/-- Levee's answer to an SPDM request. A request of another version, or one that is not supported, is answered with an error. -/
def State.spdmAnswer (s : State) (f : Fun) (k : Nat) (req : List Byte) : List Byte :=
  let code := (req.getD 1 0).toNat
  if code = 0x84 then spdmVersion
  else if req.getD 0 0 ≠ 0x12 then spdmError 0x41
  else if code = 0xE1 then spdmCapabilities
  else if code = 0xE3 then spdmAlgorithms req
  else if code = 0x81 then spdmDigests
  else if code = 0x82 then spdmCertificate req
  else if code = 0x83 then s.spdmChallenge f k req
  else if code = 0xE0 then s.spdmMeasurements f k req
  else spdmError 0x07

/-- The transcripts of a function after an exchange: the negotiation from GET_VERSION on; the digests and certificates read since
the last CHALLENGE; the measurements since the last signature, while nothing else is asked. An error is no part of them. -/
def Fun.spdmHeard (req rsp : List Byte) (f : Fun) : Fun :=
  let code := (req.getD 1 0).toNat
  let both := req ++ rsp
  if rsp.getD 1 0 = 0x7F then f
  else if code = 0x84 then { f with spdmVca := both, spdmCerts := [], spdmMeas := [] }
  else if code = 0xE1 ∨ code = 0xE3 then { f with spdmVca := f.spdmVca ++ both, spdmMeas := [] }
  else if code = 0x81 ∨ code = 0x82 then { f with spdmCerts := f.spdmCerts ++ both, spdmMeas := [] }
  else if code = 0x83 then { f with spdmCerts := [], spdmMeas := [] }
  else { f with spdmMeas := if bitOf (req.getD 2 0).toNat 0 then [] else f.spdmMeas ++ both }

/-! ## The mailboxes (R255) -/

/-- Levee answers the request of one function. -/
def State.answerDoe (fn : Nat) (s : State) : State :=
  match s.funs[fn]?, (s.funs[fn]?).bind (·.doeReq) with
  | some f, some (ty, req) =>
    let (k, s) := s.fresh
    let rsp := if ty = 0 then discoveryAnswer req else s.spdmAnswer f k req
    let heard := fun (f : Fun) => if ty = 0 then f else f.spdmHeard req rsp
    (s.modFun fn fun f => heard { f with doeReq := none, doeRsp := rsp }).modLevee fun v =>
      { v with doeOrder := v.doeOrder.filter fun x => x != fn }
  | _, _ => s

/-- Levee serves the waiting requests of the four functions in their order of arrival. -/
def State.serveDoe (s : State) : State :=
  if s.procUp 3 && !s.fatal then runAll State.answerDoe s.levee.doeOrder s else s

/-- A data object arrives at a function's mailbox. A mailbox that is busy takes none; one of more than 4 KiB, its 8-byte header
included, is discarded and sets the Error bit. -/
def State.doeObject (fn ty : Nat) (req : List Byte) (s : State) : State :=
  match s.funs[fn]? with
  | none => s
  | some f =>
    if f.doeReq.isSome then s
    else if 4088 < req.length then s.modFun fn fun f => { f with doeError := true }
    else
      ((s.modFun fn fun f => { f with doeReq := some (ty, req), doeRsp := [] }).modLevee fun v =>
        { v with doeOrder := v.doeOrder ++ [fn] }).serveDoe

/-- An SPDM request by its code. -/
def State.spdmObject (fn code : Nat) (req : List Byte) (s : State) : State :=
  if (req.getD 1 0).toNat = code then s.doeObject fn 1 req else s

/-- An Abort clears the request of its function, its response and its Error bit. -/
def State.doeAbort (fn : Nat) (s : State) : State :=
  (s.modFun fn fun f => { f with doeReq := none, doeRsp := [], doeError := false }).modLevee fun v =>
    { v with doeOrder := v.doeOrder.filter fun x => x != fn }

end Sys2Proof.Machine
end

