-- ==== Sys2Proof/Machine/Firmware.lean ====
section
/-! DEFINITION. Images in memory, FW_STAGE and FW_ACTIVATE with the handovers (R361, R367 to R370), crashes and restarts of the
firmware processors (R371 to R373), and ATTEST (R366). -/

namespace Sys2Proof.Machine

/-! ## Images (R361, R363) -/

/-- The reserved fields of an image's header are 0. Bit 7 of offset 0x008, which the table does not list, is reserved
(R7). -/
def headerClean (h : List Byte) : Bool :=
  let d (o : Nat) : Nat := ofLE ((h.drop o).take 4)
  let z (o n : Nat) : Bool := ((h.drop o).take n).all fun b => b == 0
  decide (fld (d 4) 7 2 = 0) && decide (fld (d 4) 31 24 = 0) && decide (fld (d 8) 7 7 = 0) && decide (fld (d 8) 31 13 = 0) &&
    z 0x60 32 && z 0x204 124

/-- An image read from its 512 KiB of a slot, with what its bytes say about its signature and digests. -/
def parseImage (bs : List Byte) : FwImage :=
  let h := bs.take 1024
  let d (o : Nat) : Nat := ofLE ((h.drop o).take 4)
  let part (o n : Nat) : List Byte := (bs.drop o).take n
  let iram := d 0x10
  let data := d 0x14
  let irD := part 0x20 32
  { formatOk := decide (d 0 = 0x4D575244) && decide (iram ≤ 262144) && decide (data ≤ 131072) && headerClean h
    proc := fld (d 4) 1 0
    handoverVer := fld (d 4) 15 8
    handoverMin := fld (d 4) 23 16
    svn := fld (d 8) 6 0
    keySlot := fld (d 8) 9 8
    revoke := BitVec.ofNat 3 (fld (d 8) 12 10)
    release := BitVec.ofNat 32 (d 0x0C)
    keyHash := sha256 (part 0x80 388)
    signatureOk := rsaVerify (part 0x80 384) (d 0x200) (part 0x280 384) (sha256 (part 0 0x280))
    digestOk := decide (sha256 (part 0x400 iram) = irD) && decide (sha256 (part (0x400 + iram) data) = part 0x40 32)
    iramDigest := irD
    digest := sha256 (part 0 (0x400 + iram + data)) }

/-- The four images of 2 MiB laid out as a slot (R360). -/
def parseBundle (bs : List Byte) : List FwImage := (List.range 4).map fun p => parseImage ((bs.drop (0x80000 * p)).take 0x80000)

/-- A slot of images replaced. -/
def Levee.setSlot (b : Bool) (imgs : List FwImage) (v : Levee) : Levee :=
  if b then { v with slotB := imgs } else { v with slotA := imgs }

/-! ## Processors that come back (R372, R373) -/

/-- The replies that waited for Headgate, in completion order (R373). -/
def State.flushBacklog (s : State) : State :=
  runAll (fun (e : Entry) (s : State) => s.putReply e) s.backlog { s with backlog := [] }

/-- The waits whose fences lie in the device, evaluated (R300). -/
def State.resolveLocal (s : State) : State :=
  runAll (fun (u : Queue) (s : State) => match s.waitPlace u with
    | some (t, _) => if t = .dram ∨ t = .reservoir then s.resolveWait u.fn u.q 0x63 else s
    | none => s) s.queues s

/-- What waited for a processor goes on when it runs again (R368, R373). -/
def State.procReturns (p : Nat) (s : State) : State :=
  match p with
  | 0 => s.flushBacklog
  | 1 => s.resolveLocal
  | 2 => (s.modWeir fun w => { w with clamped := false }).settle' fun _ => true
  | 3 => s.serveDoe
  | _ => s

/-! ## FW_STAGE (R367) -/

/-- No activation is running, deferred or paused. -/
def Levee.still (v : Levee) : Bool := decide (v.activation = .none)

/-- Whether the handover versions of two images overlap. -/
def handoverMeets (a b : FwImage) : Bool := decide (a.handoverMin ≤ b.handoverVer) && decide (b.handoverMin ≤ a.handoverVer)

/-- The first processor whose running image cannot hand over to the new one. -/
def State.handoverFail (s : State) (imgs : List FwImage) : Option Nat :=
  (List.range 4).find? fun p => match imgs[p]?, s.runningImage p with
    | some a, some b => !(handoverMeets a b)
    | _, _ => true

/-- The FW_STAGE packet (R278, R282). -/
def fwStageSpec : OpSpec :=
  { opcode := 0x04, assigned := true, may := mayPf0, mailbox := false, job := false, lostOk := false, len := fun _ => 8,
    reserved := fun _ => [(0x00, 63, 48), (0x08, 63, 32)] }

/-- The bytes of an image bundle in memory: none where they are not covered by R ranges or cannot be read (log entry 65). -/
def State.stageBytes (k : CtxKey) (va : Nat) (s : State) : Option (List Byte) × State :=
  if va % 4096 ≠ 0 then (none, s)
  else
    match s.readVa .headgate k va 0x200000 with
    | (.ok bs, s) => (some bs, s)
    | (.error _, s) => (none, s)

/-- FW_STAGE's checks on the four images. -/
def State.stageImages (o : Origin) (imgs : List FwImage) (s : State) : Verdict :=
  match s.firstFail imgs [0, 1, 2, 3] with
  | some (p, r) => .reply stVerifyFail (r + at' p 8) (s.modLevee fun v => { v with bootFail := failCode r p !v.activeSlot })
  | none =>
    if !(oneSvn imgs) then .reply stVerifyFail 6 s
    else
      match s.handoverFail imgs with
      | some p => .reply stVerifyFail (7 + at' p 8) s
      | none =>
        .owed (s.modLevee fun v => { v with staged := false, staging := some (o, imgs), recordSeq := v.recordSeq + 1 })

/-- FW_STAGE at its own checks; it is held while Levee is down (R373). -/
def fwStage (p : Pk) (s : State) : Verdict :=
  match p.key with
  | none => .reply stNotPermitted 0 s
  | some k =>
    if !(s.procUp 3) then .hold .other
    else if p.f 8 31 0 ≠ 0x200000 then .reply stBadParam 0x08 s
    else
      match s.stageBytes k (p.f 0 47 0) with
      | (none, s) => .reply stBadParam 0x00 s
      | (some bs, s) =>
        if s.levee.staging.isSome ∨ !s.levee.still then .reply stNotPermitted 2 s
        else s.stageImages p.origin (parseBundle bs)

def execFwStage (src : Src) (p : Packet) (s : State) : Res := .next (s.takePacket fwStageSpec fwStage src p)

/-- FW_STAGE_WRITTEN: the slot that is not ACTIVE is programmed and read back, or that failed (R367). Log writes that waited are
made (R393). -/
def execFwStageWritten (ok : Bool) (s : State) : Res :=
  match s.levee.staging with
  | none => .next s
  | some (o, imgs) =>
    if !(s.procUp 3) then .next s
    else if ok then
      let s := s.modLevee fun v =>
        { v.setSlot (!v.activeSlot) imgs with staged := true, staging := none, recordSeq := v.recordSeq + 1 }
      .next ((s.replyBy o 0x65 stOk 0).logDrain)
    else
      let s := s.spoilSlot
      .next ((s.replyBy o 0x65 stNoResource 0x10).logDrain)

/-! ## FW_ACTIVATE (R368 to R370) -/

/-- The order of the handovers: Weir, Sluice, Headgate, Levee. -/
def handoverOrder : List Nat := [2, 1, 0, 3]

/-- The processor after p in some order. -/
def nextIn (p : Nat) : List Nat → Option Nat
  | a :: b :: rest => if a = p then some b else nextIn p (b :: rest)
  | _ => none

/-- The processor that is to be handed back next: the last replaced one (R369). -/
def State.lastReplaced (s : State) : Option Nat :=
  handoverOrder.reverse.find? fun p => match s.procs[p]? with
    | some r => r.newImage
    | none => false

/-- The outcome of an activation: as the reply of FW_ACTIVATE, or as an event when it was deferred (R270, R272). -/
def State.activationOutcome (status detail : Nat) (s : State) : State :=
  match s.levee.actOrigin with
  | none => s
  | some o => if s.levee.actDeferred then s.deferredEvent o 0x65 status detail else s.replyHg o status detail

/-- The activation is over. -/
def Levee.rest (v : Levee) : Levee :=
  { v with activation := .none, nextProc := 0, actOrigin := none, actDeferred := false, crashed := false, failReason := 0,
           backOrigin := none }

/-- Every processor replaced that had to be is handed back: the cancelling packet and the activation get their outcome
(R369, R370). -/
def State.endHandBack (s : State) : State :=
  let v := s.levee
  let s := match v.backOrigin with
    | some o => (s.activationOutcome stNotPermitted 4).replyHg o stOk 0
    | none => s.activationOutcome stVerifyFail v.failReason
  s.modLevee Levee.rest

/-- The replaced processors are handed back in reverse order, or nothing remains to be. -/
def State.handBack (s : State) : State :=
  match s.lastReplaced with
  | some p => s.modLevee fun v => { v with activation := .handingBack, nextProc := p }
  | none => s.endHandBack

/-- The activation fails at processor p with a reason (R369). -/
def State.failActivation (p reason : Nat) (s : State) : State :=
  (s.modLevee fun v => { v with failReason := reason + at' p 8 }).handBack

/-- After the fourth handover: the slot record, R362 and the outcome (R368). -/
def State.endActivation (s : State) : State :=
  let s := s.modLevee fun v => { v with activeSlot := !v.activeSlot, staged := false, recordSeq := v.recordSeq + 1 }
  let s : State := { s with procs := s.procs.map fun r => { r with newImage := false } }
  (s.applyOtp.activationOutcome stOk 0).modLevee Levee.rest

/-- The next processor's handover follows, or the activation pauses in an emergency (R370). -/
def State.nextHandover (p : Nat) (s : State) : State :=
  match nextIn p handoverOrder with
  | none => s.endActivation
  | some n =>
    let s := s.modLevee fun v => { v with nextProc := n, crashed := false }
    if !s.emergency then s
    else
      let s := s.modLevee fun v => { v with activation := .paused }
      match s.levee.actOrigin with
      | some o =>
        if s.levee.actDeferred then s
        else
          let s := s.modLevee fun v => { v with actDeferred := true }
          let s := match o.src with
            | .queue fn q => s.modQueue fn q fun u => { u with deferred := u.deferred + 1 }
            | .mailbox _ => s
          s.replyHg o stDeferred s.emergencyDetail
      | none => s

/-- The FW_ACTIVATE packet (R278, R282). -/
def fwActivateSpec : OpSpec :=
  { opcode := 0x05, assigned := true, may := mayPf0, mailbox := false, job := false, lostOk := false, len := fun _ => 8,
    reserved := fun _ => [(0x00, 31, 1), (0x04, 95, 0)] }

/-- An activation begins with Weir. -/
def State.beginActivation (o : Origin) (a : Activation) (s : State) : State :=
  s.modLevee fun v =>
    { v.rest with activation := a, nextProc := 2, actOrigin := some o, actDeferred := decide (a = .deferred) }

/-- FW_ACTIVATE with CANCEL 0 (R368, R370). -/
def State.activate (o : Origin) (s : State) : Verdict :=
  if !s.levee.staged then .reply stNotPermitted 1 s
  else if !s.levee.still then .reply stNotPermitted 2 s
  else if s.emergency then .deferred 0x62 s.emergencyDetail (s.beginActivation o .deferred)
  else .owed (s.beginActivation o .running)

/-- FW_ACTIVATE with CANCEL 1 (R370). -/
def State.cancelActivation (o : Origin) (s : State) : Verdict :=
  match s.levee.activation with
  | .deferred => .reply stOk 0 ((s.activationOutcome stNotPermitted 4).modLevee Levee.rest)
  | .paused =>
    let s := s.modLevee fun v => { v with backOrigin := some o }
    .owed (s.handBack)
  | .none => .reply stNotPermitted 3 s
  | .running => .reply stNotPermitted 3 s
  | .handingBack => .reply stNotPermitted 3 s

/-- FW_ACTIVATE at its own checks; it is held while Levee is down (R373). -/
def fwActivate (p : Pk) (s : State) : Verdict :=
  if !(s.procUp 3) then .hold .other
  else if p.f 0 0 0 = 0 then s.activate p.origin
  else s.cancelActivation p.origin

def execFwActivate (src : Src) (p : Packet) (s : State) : Res := .next (s.takePacket fwActivateSpec fwActivate src p)

def execFwActivateCancel (src : Src) (p : Packet) (s : State) : Res := .next (s.takePacket fwActivateSpec fwActivate src p)

/-- Whether a processor is the one whose handover is due. -/
def State.handoverDue (s : State) (p : Nat) : Bool :=
  decide (s.levee.activation = .running ∨ s.levee.activation = .handingBack) && s.levee.nextProc == p

/-- No engine has a switch in progress. -/
def State.noSwitch (s : State) : Bool :=
  s.engines.all fun e => match s.engine? e with
    | some c => c.sw.isNone
    | none => true

/-- The image that processor p is handed: the staged one, or when it is handed back that of the ACTIVE slot. -/
def State.handoverImage (s : State) (p : Nat) : Option FwImage :=
  let v := s.levee
  (v.slot (if v.activation = .handingBack then v.activeSlot else !v.activeSlot))[p]?

/-- HANDOVER_POINT: the processor whose turn it is halts at its handover point and the next image is loaded and hashed (R359,
R368). -/
def execHandoverPoint (s : State) : Res :=
  let proc := s.levee.nextProc
  if !(s.handoverDue proc) ∨ !(s.procUp proc) ∨ (proc = 1 ∧ !s.noSwitch) then .next s
  else
    let d := match s.handoverImage proc with
      | some i => i.iramDigest
      | none => []
    .next (s.modProc proc fun r => { r with paused := true, downSince := s.now, iramDigest := d })

/-- The paused processor runs with an image. -/
def State.takeOver (p : Nat) (img : Option FwImage) (isNew : Bool) (s : State) : State :=
  let d := match img with
    | some i => i.iramDigest
    | none => []
  (s.modProc p fun r => { r with paused := false, newImage := isNew, image := img, iramDigest := d }).procReturns p

/-- HANDOVER_DONE: the image that was loaded runs, or it does not (R368, R369). -/
def execHandoverDone (proc : Nat) (how : FwEnd) (s : State) : Res :=
  let paused : Bool := match s.procs[proc]? with
    | some r => r.paused
    | none => false
  if !(s.handoverDue proc) ∨ !paused then .next s
  else
    let img := s.handoverImage proc
    let old := (s.levee.slot s.levee.activeSlot)[proc]?
    match s.levee.activation, how with
    | .handingBack, .ok => .next ((s.takeOver proc img false).handBack)
    | .handingBack, .digest => .next s.allFatal
    | .handingBack, .importFail => .next s.allFatal
    | _, .ok => .next ((s.takeOver proc img true).nextHandover proc)
    | _, .digest => .next ((s.takeOver proc old false).failActivation proc 5)
    | _, .importFail => .next ((s.takeOver proc old false).failActivation proc 8)

/-! ## Crashes and restarts (R371 to R373) -/

/-- The old image of the processor whose handover is due crashed before its handover point: the first time the step is tried once
more, the second time the activation fails, with a reason that the spec does not state (log entry 63). -/
def State.crashInActivation (p : Nat) (s : State) : State :=
  if !(s.handoverDue p) ∨ s.levee.activation ≠ .running then s
  else if !s.levee.crashed then s.modLevee fun v => { v with crashed := true }
  else
    let (k, s) := s.fresh
    s.failActivation p (if Config.fwBit k then 5 else 8)

/-- The image of the ACTIVE slot loaded into a processor with full verification (R371 step 3). -/
def State.reloadProc (p : Nat) (s : State) : State :=
  match (s.levee.slot s.levee.activeSlot)[p]? with
  | none => s.allFatal
  | some img =>
    let r := s.verify img p
    if r ≠ 0 then (s.modLevee fun v => { v with bootFail := failCode r p v.activeSlot }).allFatal
    else s.modProc p fun x => { x with image := some img, iramDigest := img.iramDigest, newImage := false }

/-- A processor crashes and its restart begins, with its caches invalidated (R62, R371). -/
def State.crash (p : Nat) (ramOk : Bool) (s : State) : State :=
  let now := s.now
  let s := s.modProc p fun r =>
    { r with up := false, cached := false, restarts := satInc r.restarts, downSince := now, times := (now :: r.times).filter fun t => decide (now < t + 10000000) }
  let many : Bool := match s.procs[p]? with
    | some r => decide (4 ≤ r.times.length)
    | none => false
  if many then s.allFatal
  else (if ramOk then s else s.reloadProc p).crashInActivation p

/-- WATCHDOG_EXPIRY: `ramOk` says that the hash of instruction RAM is the processor's digest register (R371). -/
def execWatchdogExpiry (proc : Nat) (ramOk : Bool) (s : State) : Res :=
  .next (if s.procUp proc ∧ !s.fatal ∧ s.aon.mode ≠ .s1 then s.crash proc ramOk else s)

/-- PROCESSOR_EXCEPTION: an exception, or an uncorrectable error in the processor's own RAMs (R371). -/
def execProcessorException (proc : Nat) (ramOk : Bool) (s : State) : Res :=
  .next (if s.procUp proc ∧ !s.fatal ∧ s.aon.mode ≠ .s1 then s.crash proc ramOk else s)

/-- PROCESSOR_RESTART_DONE: the processor has rebuilt its state and runs (R371 step 4, R372). -/
def execProcessorRestartDone (proc : Nat) (s : State) : Res :=
  match s.procs[proc]? with
  | none => .next s
  | some r =>
    if r.up ∨ r.image.isNone ∨ s.fatal ∨ s.resets.any (fun x => x.kind == 8) then .next s
    else .next ((s.modProc proc fun r => { r with up := true, cached := true }).procReturns proc)

/-! ## ATTEST (R366) -/

/-- The first 448 bytes of the report. -/
def State.reportBody (s : State) (fn : Nat) (nonce : List Byte) : List Byte :=
  toLE 4 0x54535441 ++ toLE 4 (832 + at' 8 16) ++ toLE 4 fn ++ toLE 4 (s.levee.otpSvn + at' s.levee.otpRevoked.toNat 8) ++
    takePad 0 32 nonce ++ List.replicate 16 0 ++
    (enumFrom 1 s.measurements).flatMap fun m =>
      toLE 4 m.1 ++ toLE 4 m.2.1.toNat ++ List.replicate 8 0 ++ m.2.2

/-- The ATTEST packet (R278, R282). -/
def attestSpec : OpSpec :=
  { opcode := 0x63, assigned := true, may := mayAny, mailbox := false, job := false, lostOk := false, len := fun _ => 16,
    reserved := fun _ => [(0x00, 63, 48), (0x08, 63, 32)] }

/-- ATTEST at its own checks; it is held while Levee is down (R373). -/
def attest (p : Pk) (s : State) : Verdict :=
  match p.key with
  | none => .reply stNotPermitted 0 s
  | some k =>
    if !(s.procUp 3) then .hold .other
    else if p.f 8 31 0 < 832 then .reply stBadParam 0x08 s
    else
      match s.translate .headgate k (p.f 0 47 0) 832 needW with
      | (.error _, s) => .reply stBadParam 0x00 s
      | (.ok ps, s) =>
        let b := s.reportBody p.fn ((p.bytes.drop 16).take 32)
        .replyBy 0x65 stOk 832 0 (putPieces k.fn ps (b ++ signature b) s).2

def execAttest (src : Src) (p : Packet) (s : State) : Res := .next (s.takePacket attestSpec attest src p)

end Sys2Proof.Machine
end

