-- ==== Sys2Proof/Machine/WriteBack.lean ====
section
/-! DEFINITION. What the lines of the system cache that leave it send over the host link (R56, R65, R232), and the cleaning of the
whole cache (R344, R380). -/

namespace Sys2Proof.Machine

/-- The runs of set bits: where each begins, and its length. -/
def bitRuns : Nat → List Bool → List (Nat × Nat)
  | _, [] => []
  | i, b :: bs =>
    let rest := bitRuns (i + 1) bs
    if !b then rest
    else
      match rest with
      | (j, n) :: more => if j = i + 1 then (i, n + 1) :: more else (i, 1) :: rest
      | [] => [(i, 1)]

/-- The valid bytes of a HOST line that leaves the cache go over the link, a posted write for each run of them (R232). -/
def State.sendValid (t : Target) (line : Nat) (valid : BitVec 128) (s : State) : State :=
  if t ≠ .host then s
  else
    runAll (fun (r : Nat × Nat) (s : State) => s.postBy (fun _ _ => false) (s.rd .host (128 * line + r.1) r.2) (128 * line + r.1))
      (bitRuns 0 ((List.range 128).map fun i => valid.toNat.testBit i)) s

/-- A HOST line's write-back over the link, when the array shows it whole; a line that is poison goes poisoned (R65, R232). -/
def State.wroteBack (l : ScLine) (err : ArrayError) (s : State) : State :=
  if l.tgt ≠ .host ∨ err = .tagParity ∨ err = .uncorrectable then s
  else if l.poison then s.say (.write (l.line / 2 ^ 57) (128 * l.line % 2 ^ 64) (s.rd .host (128 * l.line) 128) true)
  else s.sendValid .host l.line l.valid

/-- The system cache is cleaned and is then empty (R344, R380): a dirty HOST line goes over the link (R232). -/
def State.cleanAll (s : State) : State :=
  let s := runAll (fun (x : Slice) (s : State) =>
    let s := runAll (fun (l : ScLine) (s : State) => if l.dirty then s.wroteBack l .none else s) (x.lines ++ x.victims ++ x.evicting) s
    runAll (fun (b : CoalLine) (s : State) => s.sendValid b.tgt b.line b.valid) x.coal s) s.sc.slices s
  s.modSc fun c => { c with slices := c.slices.map fun _ => resetSlice }

end Sys2Proof.Machine
end

