-- ==== Sys2Proof/Machine/Recovery.lean ====
section
/-! DEFINITION. Reset domains (R377 to R383): RESET_DOMAIN, FLR, HOT_RESET, RESET_COMPLETE, RESET_LIMIT_EXPIRY, and the service
states (R384). -/

namespace Sys2Proof.Machine

/-! ## Domains (R377) -/

/-- The engines of a domain. A tenant domain has those that hold one of its contexts. -/
def State.domainEngines (s : State) (kind : Nat) (units : List Nat) : List Engine :=
  match kind with
  | 1 => units.map Engine.cluster
  | 2 => units.map Engine.array
  | 3 => units.map Engine.copy
  | 4 => units.map Engine.front
  | 5 => s.engines.filter fun e => onComputeDie (engineIsland e)
  | 6 => s.engines.filter fun e => isCopyIsland (engineIsland e)
  | 7 => s.engines.filter fun e => match s.holder e with
    | some k => units.contains k.fn
    | none => false
  | _ => s.engines

/-- Whether an entry of an engine ring belongs to a context. -/
def RingEntry.of (k : CtxKey) : RingEntry → Bool
  | .work _ x => decide (x = k)
  | .wait _ _ x => decide (x = k)
  | .switch out into => decide (out = some k) || decide (into = some k)

/-- Whether an engine holds a context, holds an entry of it, or has an access of it in flight. -/
def State.engineTouches (s : State) (e : Engine) (k : CtxKey) : Bool :=
  (match s.engine? e with
    | some c => decide (c.holder = some k) || c.ring.any (RingEntry.of k)
    | none => false) ||
  s.flight.any fun a => decide (a.who = .engine e) && decide (a.key = k)

/-- The contexts in a domain. -/
def State.ctxsIn (s : State) (kind : Nat) (units : List Nat) : List CtxKey :=
  let es := s.domainEngines kind units
  (s.ctxs.map (·.key)).filter fun k => match kind with
    | 7 => units.contains k.fn
    | 8 => true
    | _ => es.any fun e => s.engineTouches e k

/-- The islands of a domain. -/
def State.domainIslands (s : State) (kind : Nat) (units : List Nat) : List Nat :=
  if kind = 8 then (s.islands.map (·.id)).filter fun id => s.islandUsable id && id != 0x7F
  else (s.domainEngines kind units).map engineIsland

/-- The functions whose tenant is in a domain as a whole. -/
def domainFns (kind : Nat) (units : List Nat) : List Nat := if kind = 8 then [0, 1, 2, 3] else if kind = 7 then units else []

/-- The KIND to which a reset escalates when it is not of a group of engines (R377, R381). -/
def parentKind : Nat → Nat
  | 1 => 5
  | 2 => 5
  | 3 => 6
  | 4 => 5
  | _ => 8

/-! ## The loss (R379) -/

/-- The requests on the link of a group or an engine of an island. -/
def ReqOwner.onIsland (ids : List Nat) : ReqOwner → Bool
  | .group c _ => ids.contains c
  | .order c _ => ids.contains c
  | _ => false

/-- A reset takes a context that is being destroyed: it counts as lost, and its teardown goes on from step 3 (R303). -/
def State.restartTeardown (k : CtxKey) (s : State) : State :=
  (s.dropReqs fun r => decide (r.owner = .teardown k)).modCtx k fun c =>
    { c with teardown := c.teardown.map fun t =>
        { t with drained := false, flushTag := none, fences := if t.drained then [] else t.fences } }

/-- A context in the domain becomes LOST; what it had running ends with the reset's status. Its waits and held packets are
answered when the reset has completed. A context that is being destroyed stays so (R303). -/
def State.loseForReset (n : Nat) (k : CtxKey) (s : State) : State :=
  let s := s.modCtx k fun c => { c with st := .lost, episode := c.episode.map fun e => { e with waiting := false } }
  ((s.endJobs k fun _ => .reset n).endWork k).disown k

/-- A reset of a function's context or of its tenant: the service state is RECOVERY, but TEST lasts until a reset of the tenant
(R384). -/
def State.recover (fn : Nat) (tenant : Bool) (s : State) : State :=
  s.modFun fn fun f =>
    { f with service := if f.service = .test ∧ !tenant then .test else .recovery, cumResets := f.cumResets + 1 }

/-- The accesses of a tenant reset's islands are abandoned (R380 step 3). -/
def State.abandon (fns ids : List Nat) (s : State) : State :=
  let onIsland (w : Requester) : Bool := match w with
    | .engine e => ids.contains (engineIsland e)
    | _ => false
  let s : State := { s with
    flight := s.flight.filter fun a => !(fns.contains a.key.fn) && !(onIsland a.who)
    copies := (enumFrom 0 s.copies).map fun x =>
      if ids.contains (engineIsland (.copy x.1)) then { x.2 with chunk := none, dest := [], job := none, orphan := none } else x.2 }
  s.dropReqs fun r => r.owner.onIsland ids

/-- Every access of the device is abandoned; what waited for one of the device's own reads waits for its drain again. -/
def State.abandonAll (s : State) : State :=
  let s : State := { s with
    flight := []
    copies := s.copies.map fun c => { c with chunk := none, dest := [], job := none, orphan := none }
    ctxs := s.ctxs.map fun c => { c with
      unmaps := c.unmaps.map fun u => { u with drained := false, flushTag := none }
      teardown := c.teardown.map fun t =>
        { t with drained := false, flushTag := none, escalated := some 8, fences := if t.drained then [] else t.fences } } }
  { s.modPcie fun p => { p with reqs := [], held := [] } with
    dram := s.dram.map fun c => { c with retraining := false, waiting := [] } }

/-- The functions of a tenant or device reset go to RESETTING (R380 step 1). -/
def State.functionsResetting (fns : List Nat) (s : State) : State :=
  runAll (fun fn (s : State) => s.setFnState fn .resetting) fns s

/-! ## The begin of a reset (R380, steps 1 to 3) -/

/-- A reset begins in its domain: `r` brings the kind, the units, the KIND named, who waits for it, and the islands and lost
contexts of the resets that it takes over. -/
def State.beginReset (r : Reset) (s : State) : State :=
  let ks := s.ctxsIn r.kind r.units
  let fresh := ks.filter fun k => match s.ctx? k with
    | some c => decide (c.st = .active) || decide (c.st = .faulted)
    | none => false
  let dying := ks.filter fun k => (s.ctx? k).any fun c => decide (c.st = .destroying)
  let ids := (r.islands ++ s.domainIslands r.kind r.units).eraseDups
  let fns := domainFns r.kind r.units
  let touched := (fns ++ (fresh ++ dying).map (·.fn)).eraseDups
  let s := runAll State.restartTeardown dying (runAll (State.loseForReset r.named) fresh s)
  let s := runAll (fun fn (s : State) => s.recover fn (fns.contains fn)) touched s
  let s : State := { s with
    jobs := s.jobs.map fun j => if touched.contains j.key.fn then { j with sinceReset := false } else j
    islands := s.islands.map fun i => if ids.contains i.id then { i with inReset := true, off := i.off || r.kind == 7 } else i }
  let s := if r.kind = 7 then s.abandon fns ids else if r.kind = 8 then s.cleanAll.abandonAll.selfRefresh else s
  let s : State := if r.kind = 8 then { s with procs := s.procs.map fun p => { p with up := false, cached := false, downSince := s.now } } else s
  let s := s.functionsResetting fns
  let ts := if r.kind < 7 then (ks.map (·.fn)).eraseDups else fns
  let r : Reset := { r with islands := ids, lost := r.lost ++ fresh ++ dying, startedAt := s.now, tenants := ts }
  { s with resets := s.resets ++ [r] }

/-! ## Resets that meet (R383) -/

/-- Whether a reset in progress is the one of a domain: the same KIND with the unit among its own. -/
def Reset.same (r : Reset) (kind : Nat) (units : List Nat) : Bool := r.kind == kind && units.all fun u => r.units.contains u

/-- Whether a domain lies inside one that is being reset. -/
def State.insideReset (s : State) (kind : Nat) (units : List Nat) (r : Reset) : Bool :=
  if kind = 8 then false
  else match r.kind with
    | 5 => kind == 1 || kind == 2 || kind == 4
    | 6 => kind == 3
    | 7 => decide (kind < 7) && ((s.domainEngines kind units).map engineIsland).any fun i => r.islands.contains i
    | 8 => true
    | _ => false

/-- Whether a reset in progress lies inside a larger domain. -/
def Reset.insideDomain (r : Reset) (kind : Nat) (units : List Nat) : Bool :=
  match kind with
  | 5 => r.kind == 1 || r.kind == 2 || r.kind == 4
  | 6 => r.kind == 3
  | 7 => decide (r.kind < 7) && r.tenants.any fun t => units.contains t
  | 8 => decide (r.kind < 8)
  | _ => false

/-- Two resets of the same KIND by different tenants' units become one set (R381). -/
def Reset.absorb (a b : Reset) : Reset :=
  { a with waiters := a.waiters ++ b.waiters, lost := a.lost ++ b.lost, islands := a.islands ++ b.islands,
           begunAt := min a.begunAt b.begunAt }

/-- A reset is taken: it joins the reset of its own or of a larger domain; otherwise it takes over the smaller ones and
begins. -/
def State.takeReset (r : Reset) (s : State) : State :=
  if s.resets.any fun x => x.same r.kind r.units then
    let join (x : Reset) : Reset :=
      x.absorb { r with waiters := r.waiters.map fun w => (w.1, if w.2 = r.kind then x.named else w.2) }
    { s with resets := modFirst (fun x => x.same r.kind r.units) join s.resets }
  else if s.resets.any fun x => s.insideReset r.kind r.units x then
    { s with resets := modFirst (fun x => s.insideReset r.kind r.units x) (fun x => x.absorb r) s.resets }
  else
    let inner := s.resets.filter fun x => x.insideDomain r.kind r.units
    let s : State := { s with resets := s.resets.filter fun x => !(x.insideDomain r.kind r.units) }
    s.beginReset (inner.foldl Reset.absorb r)

/-- A reset as it is named: one domain, with the packet that waits for it, if any. -/
def State.named' (s : State) (kind unit : Nat) (o : Option Origin) (fromLink : Bool) : Reset :=
  { kind := kind, units := [unit], named := kind, namedUnit := unit, fromLink := fromLink,
    waiters := match o with
      | some o => [(o, kind)]
      | none => [],
    islands := [], lost := [], tenants := [], startedAt := s.now, begunAt := s.now }

/-- The RESET_DOMAIN packet (R278, R282): PF0 names any domain, another function its own tenant only (R378). -/
def resetDomainSpec : OpSpec :=
  { opcode := 0x70, assigned := true, may := fun p _ => p.fn == 0 || (p.f 0 3 0 == 7 && p.f 0 15 8 == p.fn),
    mailbox := false, job := false, lostOk := false, len := fun _ => 8,
    reserved := fun _ => [(0x00, 7, 4), (0x00, 31, 16), (0x04, 95, 0)] }

/-- Whether a KIND has a unit in this part (R14, R377, R378). -/
def State.unitExists (s : State) (kind unit : Nat) : Bool :=
  match kind with
  | 1 => s.enabled (.cluster unit)
  | 2 => s.enabled (.array unit)
  | 3 => decide (unit < 4)
  | 4 => decide (unit < 4)
  | 7 => decide (unit < 4)
  | _ => decide (unit = 0)

/-- RESET_DOMAIN at its own checks. -/
def resetDomain (p : Pk) (s : State) : Verdict :=
  let kind := p.f 0 3 0
  let unit := p.f 0 15 8
  if kind = 0 ∨ 8 < kind then .reply stBadParam 0x00 s
  else if !(s.unitExists kind unit) then .reply stBadParam 0x01 s
  else .owed (s.takeReset (s.named' kind unit (some p.origin) false))

def execResetDomain (src : Src) (p : Packet) (s : State) : Res := .next (s.takePacket resetDomainSpec resetDomain src p)

/-- A function's configuration space at its reset values (R233, R378). -/
def Fun.configReset (f : Fun) : Fun :=
  { f with cfgSpace := [], timeoutUs := 50000, noTimeout := false, d3hot := false, bar2Log2 := 28, doeReq := none,
           doeError := false, doeRsp := [], pme := false, aerMask := resetFun.aerMask, aerSeverity := resetFun.aerSeverity,
           aerCorrMask := resetFun.aerCorrMask }

/-- Whether the device has a host link and functions that answer: not without power, not in S3 (R378). -/
def State.linkSide (s : State) : Bool :=
  s.pcie.linkUp && !(decide (s.aon.mode = .off) || decide (s.aon.mode = .s3) || decide (s.aon.mode = .wakingS3))

/-- FLR: the tenant domain of the function is reset (R233); its vote is 0 (R342). -/
def State.flr (fn : Nat) (s : State) : State :=
  if 4 ≤ fn ∨ !s.linkSide ∨ s.fatal then s
  else
    let s := s.modFun fn fun f => { f.configReset with vote := 0 }
    ({ s with levee := { s.levee with doeOrder := s.levee.doeOrder.filter fun x => x != fn } }.takeReset
      (s.named' 7 fn none true))

/-- HOT_RESET: a Hot Reset, or a link-down that the device did not cause, resets the device while it is in A or S1 (R378). -/
def execHotReset (s : State) : Res :=
  let m := s.aon.mode
  if s.fatal ∨ !(m = .a ∨ m = .s1 ∨ m = .enteringS1 ∨ m = .leavingS1) then .next s
  else
    let s := s.modAon fun a => { a with mode := .a, wakePending := none }
    let s : State := { s with funs := s.funs.map Fun.configReset, levee := { s.levee with doeOrder := [] } }
    .next ((s.takeReset (s.named' 8 0 none true)).modPcie fun p =>
      { p with linkUp := false, rate := 0, width := 0, l0pWidth := 0, pm := 0, held := [] })

/-! ## Completion (R380, steps 4 to 6) -/

/-- Whether no access of the engines of a domain remains outstanding (R380 step 3). -/
def State.domainQuiet (s : State) (es : List Engine) : Bool :=
  s.flight.all (fun a => es.all fun e => decide (a.who ≠ .engine e)) &&
    s.pcie.reqs.all (fun r => !(r.owner.onIsland (es.map engineIsland))) &&
    es.all fun e => match e with
      | .copy i => match s.copies[i]? with
        | some c => c.chunk.isNone
        | none => true
      | _ => true

/-- A unit out of reset; its translation epoch goes on (R311). -/
def State.resetUnit (e : Engine) (s : State) : State :=
  let keep (c : EngineCore) : EngineCore := { resetEngine with epoch := c.epoch }
  match e with
  | .cluster i => s.modCluster i fun c => { resetCluster with core := keep c.core }
  | .front i => s.modFront i fun c => { resetFront with core := keep c.core }
  | .array i => s.modArray i fun c => { resetArray with core := keep c.core }
  | .copy i => s.modCopy i fun c => { resetCopy with core := keep c.core }

/-- An island out of reset: its counter starts at 0 (R15). -/
def Island.fresh (i : Island) : Island :=
  { i with counter := 0, changes := 0, a2 := false, off := false, inReset := false, drooped := false }

/-- Islands leave reset at the points that Weir gives them. -/
def State.freeIslands (ids : List Nat) (s : State) : State :=
  let s : State := { s with islands := s.islands.map fun i => if ids.contains i.id then i.fresh else i }
  s.settle' fun i => ids.contains i.id

/-- A function after a reset of its tenant or of the device: its FN_ and MSI-X registers are at their reset values, the service
state is RECOVERY; the windows, the vote and the configuration space stay (R233, R377). -/
def Fun.afterReset (f : Fun) : Fun :=
  { resetFun with
    st := f.st, dramWin := f.dramWin, rsvMask := f.rsvMask, service := .recovery, vote := f.vote, d3hot := f.d3hot,
    bar2Log2 := f.bar2Log2, cfgSpace := f.cfgSpace, timeoutUs := f.timeoutUs, noTimeout := f.noTimeout,
    pme := f.pme, aerUncorr := f.aerUncorr, aerCorr := f.aerCorr, aerMask := f.aerMask, aerSeverity := f.aerSeverity,
    aerCorrMask := f.aerCorrMask, aerHeader := f.aerHeader, doeReq := f.doeReq, doeError := f.doeError,
    doeRsp := f.doeRsp }

/-- The packets that wait for a commit of a block that a device reset clears. -/
def State.commitWaiters (s : State) : List Origin :=
  s.sluice.armed.toList ++
    s.pipes.flatMap (fun p => p.waiters) ++
    s.camera.ports.flatMap fun t => t.chans.flatMap fun c => c.waiters

/-- Every block but the always-on ones at its reset values (R377, R380). The firmware's journals keep stages, activations and
replans (R372); the memories and DRAM's training stay. -/
def State.deviceRegisters (s : State) : State :=
  let v := s.levee
  let w := s.weir
  { s with
    rsv := { resetRsv with outBank := s.rsv.outBank, groupAlert := s.rsv.groupAlert }
    sc := resetSc
    clusters := s.clusters.map fun c => { resetCluster with core := { resetEngine with epoch := c.core.epoch } }
    fronts := s.fronts.map fun c => { resetFront with core := { resetEngine with epoch := c.core.epoch } }
    arrays := s.arrays.map fun c => { resetArray with core := { resetEngine with epoch := c.core.epoch } }
    copies := s.copies.map fun c => { resetCopy with core := { resetEngine with epoch := c.core.epoch } }
    nsRestarts := 0
    nsMissed := 0
    sluice := resetSluice s.part.clEnable s.part.nsEnable s.now
    pipes := s.pipes.map fun p => { resetPipe with hpd := p.hpd, epoch := p.epoch }
    camera := { resetCamera with epoch := s.camera.epoch }
    hgPackets := 0
    hgNext := 0
    hgServing := none
    hgCache := []
    levee := { v with bootFail := 0, fallback := false, noImage := false, cfgBad := false, wakeFail := false }
    procs := s.procs.map fun p => { p with up := p.image.isSome, cached := p.image.isSome, restarts := 0, times := [] }
    weir := { resetWeir with
      planVersion := w.planVersion, hours := w.hours, sinceReplan := w.sinceReplan, replans := w.replans,
      retryReplan := w.retryReplan, belowNominal := w.belowNominal, fixedLow := w.fixedLow, alertLow := w.alertLow,
      alertHighAt := w.alertHighAt }
    aon := { s.aon with thermN := true }
    pcie := { resetPcie with linkUp := s.pcie.linkUp, rate := s.pcie.rate, width := s.pcie.width,
                             l0pWidth := s.pcie.l0pWidth, pm := s.pcie.pm, nextTag := s.pcie.nextTag } }

/-- The jobs that a completed reset ended say the KIND at which it completed (R379). -/
def JobOutcome.completedAt (kind : Nat) : JobOutcome → JobOutcome
  | .reset n => if n = kind then .reset kind else .escalated kind
  | o => o

/-- A job packet held at the head of a queue of a lost context ends with the reset's status (R379). -/
def State.endHeldJob (r : Reset) (u : Queue) (s : State) : State :=
  match u.held with
  | none => s
  | some h =>
    match h.fence with
    | none => s
    | some f =>
      let k : CtxKey := { fn := u.fn, id := u.ctx }
      let o := packetOrigin h.pkt (.queue u.fn u.q) h.opcode
      let own := decide (r.named = r.kind)
      let s := (s.passHead u.fn u.q (4 * h.pkt.len.toNat)).setError k f (if own then 3 else 4) none o
      (s.reply (s.entry o 0x62 (if own then stReset else stResetEscalated) r.kind (packetValue h.opcode h.pkt)))

/-- What the lost contexts of a completed reset are owed, the started jobs of a queue before what is held behind them (R293,
R379; log entry 106). -/
def State.answerLost (r : Reset) (k : CtxKey) (s : State) : State :=
  let s :=
    if !(s.procUp 0) then s
    else runAll (fun (j : Job) (s : State) => if j.key = k ∧ j.outcome ≠ .running ∧ s.jobIdle j.id then s.writeEnd j else s) s.jobs s
  let s := s.loseWaits k
  runAll (State.endHeldJob r) (s.queuesOf k) s

/-- The payload of a RESET entry of the flash log: KIND named, KIND completed (0xFF for FATAL), duration in microseconds,
requesting function (0xFF for none) (R392; log entry 60). -/
def Reset.logBytes (r : Reset) (completed now : Nat) : List Byte :=
  toLE 1 r.named ++ toLE 1 completed ++ toLE 4 (now - r.begunAt) ++ toLE 1 (match r.waiters with
    | (o, _) :: _ => srcFn o.src
    | [] => if r.named = 7 then r.namedUnit else 0xFF)

/-- The packets that waited for a reset are answered: ST_OK when it completed in the domain named (R381, R383). -/
def State.answerWaiters (r : Reset) (s : State) : State :=
  runAll (fun (w : Origin × Nat) (s : State) =>
    if w.2 = r.kind then s.replyHg w.1 stOk 0 else s.replyHg w.1 stResetEscalated r.kind) r.waiters s

/-- The functions of a reset are READY again (R380 step 6). -/
def State.functionsBack (fns : List Nat) (s : State) : State :=
  runAll (fun fn (s : State) => (s.modFun fn Fun.afterReset).setFnState fn .ready) fns s

/-- A reset completes: the units and registers of its domain are at their reset values, MSI-X Enable of its functions is
clear, and Headgate writes what is owed (R379, R380). -/
def State.completeReset (r : Reset) (s : State) : State :=
  let fns := domainFns r.kind r.units
  let commits := if r.kind = 8 then s.commitWaiters else []
  let s := if r.kind = 8 then s.deviceRegisters.refreshResumes
    else runAll State.resetUnit (s.engines.filter fun e => r.islands.contains (engineIsland e)) s
  let s : State := if r.kind = 5 then { s with nsRestarts := 0, nsMissed := 0 } else s
  let s := s.freeIslands r.islands
  let s : State := { s with jobs := s.jobs.map fun j => if r.lost.contains j.key then { j with outcome := j.outcome.completedAt r.kind } else j }
  let touched := (fns ++ r.lost.map (·.fn)).eraseDups
  let s : State := { s with jobs := s.jobs.map fun j => if touched.contains j.key.fn then { j with sinceReset := false } else j }
  let s := if r.kind = 8 ∧ s.weir.alertLow then s.beginPower else s
  let s := if r.kind = 8 then (s.procReturns 0).serveDoe else s
  let s := runAll (fun fn (s : State) => s.modFun fn fun f => { f with msixEnable := false }) fns s
  let s := runAll (State.answerLost r) (r.lost.filter fun k => (s.ctx? k).any fun c => decide (c.st = .lost)) s
  let s := runAll (fun (o : Origin) (s : State) =>
    if r.named = 8 then s.replyHg o stReset 8 else s.replyHg o stResetEscalated 8) commits s
  let s := (s.answerWaiters r).functionsBack fns
  if r.kind ≠ r.named then s.logWrite 0x05 (r.logBytes r.kind s.now) else s

/-- Whether a reset may complete or run out: the time of a compute-die domain does not begin during a trip (R335, R380). -/
def State.resetHeld (s : State) (r : Reset) : Bool := s.weir.trip && r.kind != 8 && r.kind != 7 && r.islands.any onComputeDie

/-- RESET_COMPLETE: reset number i completes when nothing that its domain waits for is outstanding. -/
def execResetComplete (i : Nat) (s : State) : Res :=
  match s.resets[i]? with
  | none => .next s
  | some r =>
    if s.fatal ∨ s.resetHeld r ∨ (r.kind < 7 ∧ !(s.domainQuiet (s.engines.filter fun e => r.islands.contains (engineIsland e)))) then .next s
    else .next ({ s with resets := s.resets.eraseIdx i }.completeReset r)

/-! ## Escalation (R381) -/

/-- The reset to which one that overran its limit widens. -/
def Reset.wider (r : Reset) : Reset :=
  if r.kind = 5 ∨ r.kind = 6 then
    if r.tenants.isEmpty then { r with kind := 8, units := [0] } else { r with kind := 7, units := r.tenants }
  else { r with kind := parentKind r.kind, units := [0] }

/-- RESET_LIMIT_EXPIRY: 2 ms have passed and the reset has not completed. Out of DEVICE there is only FATAL. -/
def execResetLimitExpiry (i : Nat) (s : State) : Res :=
  match s.resets[i]? with
  | none => .next s
  | some r =>
    if s.fatal ∨ s.resetHeld r ∨ s.now < r.startedAt + 2000 then .next s
    else if r.kind = 8 then .next ((s.logWrite 0x05 (r.logBytes 0xFF s.now)).allFatal)
    else .next ({ s with resets := s.resets.eraseIdx i }.takeReset r.wider)

/-! ## Service states (R384) -/

/-- Whether a function's registers take a write of the host: the device is not FATAL, the link is up and the function is not in
D3hot (R242, R382). -/
def State.regsLive (s : State) (fn : Nat) : Bool :=
  !s.fatal && s.linkSide && match s.funs[fn]? with
    | some f => !f.d3hot
    | none => false

end Sys2Proof.Machine
end

