-- ==== Sys2Proof/Machine/Reservoir.lean ====
section
/-! DEFINITION. The Reservoir's banks, atomic units and scrubber (R38 to R47, R70), what a requester is told of a failed
access, and the completions and AER records of a function (R242). -/

namespace Sys2Proof.Machine

/-! ## Completions and AER (R242) -/

/-- An Unsupported Request logged as advisory non-fatal: bit 20 of the uncorrectable status and bit 13 of the correctable one, and
a correctable error message where neither is masked. Where software has made it fatal it is no advisory (log entry 73). -/
def State.aerAdvisory (fn : Nat) (s : State) : State :=
  if s.aerFatal fn 20 then s.aerUncorrectable fn 20
  else
    let s := (s.aerStatus fn 20).modFun fn fun f => { f with aerCorr := f.aerCorr ||| BitVec.ofNat 32 (2 ^ 13) }
    if s.aerMasked fn 20 || (s.funs[fn]?).any fun f => f.aerCorrMask.toNat.testBit 13 then s else s.say (.aer fn 13 0)

/-- A completion with data; a poisoned one sets Uncorrectable Internal Error (bit 22) and is counted (R242). -/
def State.completeData (fn : Nat) (bs : List Byte) (poisoned : Bool) (s : State) : State :=
  let s := s.say (.data fn bs poisoned)
  if poisoned then (s.modFun fn fun f => { f with poisonSent := satInc f.poisonSent }).aerUncorrectable fn 22 else s

/-! ## What a requester is told -/

/-- The virtual address of a physical one in a context; 0 where no range of the context reaches it. -/
def State.virtualOf (s : State) (k : CtxKey) (t : Target) (pa : Nat) : Nat :=
  let at0 := fun (e : RangeEntry) => busPlace k.fn e.tgt e.base
  match (s.ctx? k).bind fun c => c.ranges.find? fun e => decide (e.tgt = t) && decide (at0 e ≤ pa) && decide (pa < at0 e + e.bytes) with
  | some e => e.start + (pa - at0 e)
  | none => 0

/-- The job that an engine works for. -/
def State.engineJob (s : State) : Engine → Option Nat
  | .cluster i => (s.clusters[i]?.bind (·.run)).map (·.work.job)
  | .front i => s.fronts[i]?.bind (·.job)
  | .array i => (s.arrays[i]?.bind (·.layer)).map (·.job)
  | .copy i => s.copies[i]?.bind (·.job)

/-- The SOURCE of an engine's faults (R289). -/
def engineSource : Engine → Nat
  | .cluster _ => 0
  | .array _ => 1
  | .copy _ => 3
  | .front _ => 4

/-- An access of an engine failed: a fault of its job (R38, R43, R44, R59, R94). -/
def State.engineFault (e : Engine) (kind : FaultKind) (write atomic : Bool) (t : Target) (pa : Nat) (s : State) : State :=
  match (s.engineJob e).bind s.job? with
  | none => s
  | some j =>
    let va := s.virtualOf j.key t pa
    let plain := s.report
      { kind := kind, source := engineSource e, write := write, atomic := atomic, island := engineIsland e, address := va,
        loc := 0, lanes := 0, job := some j.id, origin := j.origin, key := j.key, restart := false,
        stamp := s.count (engineIsland e) }
    match e with
    | .front i => s.frontFault i j.id (kind, write, va)
    | .array i =>
      match s.arrays[i]?.bind (·.layer) with
      | some w => match w.kind with
        | .layer l => s.netFault j.id l (engineIsland e) kind write atomic va
        | _ => plain
      | none => plain
    | .copy i => s.copyFault i j kind write va ((s.copies[i]?.bind (·.chunk)).getD 0)
    | .cluster _ => plain

/-- A layer read of a pipe met an uncorrectable error (R208). -/
def State.readUe (p : Nat) (s : State) : State := s.modPipe p fun u => { u with readUe := satInc u.readUe }

/-- The pipe whose flat layer the compositor writes (R214). -/
def State.flatPipe (s : State) : Option Nat := (enumFrom 0 s.pipes).findSome? fun x => if x.2.flatWrite.isSome then some x.1 else none

/-- An access that failed, as its requester takes it: an engine's job faults; a pipe counts the line, and the compositor counts it
for the pipe whose layers it folds (R208; log entry 115). -/
def State.accessFailed (who : Requester) (kind : FaultKind) (write atomic : Bool) (t : Target) (pa : Nat) (s : State) : State :=
  match who with
  | .engine e => s.engineFault e kind write atomic t pa
  | .pipe p => if kind = .poison ∧ !write then s.readUe p else s
  | .compositor => if kind = .poison ∧ !write then (s.flatPipe.elim s fun p => s.readUe p) else s
  | _ => s

/-- Data returned to a requester: a completion for the host, else the memory's own answer. -/
def State.answer (who : Requester) (bs : List Byte) (poisoned : Bool) (s : State) : State :=
  match who with
  | .host fn => s.completeData fn bs poisoned
  | _ => s.say (.served who bs poisoned)

/-! ## RESERVOIR_ACCESS and RESERVOIR_ATOMIC -/

/-- The errors that lie in a span of words. -/
def hitsIn (a n : Nat) (errs : List EccHit) : List EccHit :=
  errs.filter fun h => spansMeet a n (wordBase h.addr) 8

/-- The errors that a write meets: those of words it covers in part only (R44). -/
def hitsPartly (a n : Nat) (errs : List EccHit) : List EccHit :=
  (hitsIn a n errs).filter fun h => !(decide (a ≤ wordBase h.addr) && decide (wordBase h.addr + 8 ≤ a + n))

/-- The island of a bank group is not there: the culvert toward it is closed (R20). -/
def State.bankClosed (s : State) (a : Nat) : Bool := !(s.islandThere (0x40 + (s.placement a).1))

/-- A read at a bank (R41, R43). -/
def State.bankRead (who : Requester) (a n : Nat) (errs : List EccHit) (s : State) : State :=
  let s := s.takeHits .reservoir (hitsIn a n errs)
  if s.mem.poisoned .reservoir a n then
    ((s.countUes .reservoir a n).answer who (s.rd .reservoir a n) true).accessFailed who .poison false false .reservoir a
  else s.answer who (s.rd .reservoir a n) false

/-- A write at a bank (R41, R44). -/
def State.bankWrite (who : Requester) (a : Nat) (bs : List Byte) (errs : List EccHit) (s : State) : State :=
  let s := s.takeHits .reservoir (hitsPartly a bs.length errs)
  let (bad, s) := s.wr .reservoir a bs
  let s := match who with
    | .host _ => s
    | _ => s.spanWritten .reservoir a bs.length
  match bad, who with
  | none, _ => s
  | some _, .host fn => s.aerUncorrectable fn 22
  | some w, _ => s.accessFailed who .poison true false .reservoir w

/-- RESERVOIR_ACCESS: one access of up to 128 bytes within one 128-byte line (R40). -/
def execReservoirAccess (who : Requester) (write : Bool) (addr len : Nat) (data : List Byte) (errs : List EccHit) (s : State) : Res :=
  let n := min len (128 - addr % 128)
  if s.rsvBytes < addr + n then
    match who with
    | .engine e => .next (s.engineFault e .reservoirLimit write false .reservoir addr)
    | _ => .fault .reservoirAddress
  else if s.bankClosed addr then .next (s.accessFailed who .targetReset write false .reservoir addr)
  else if write then .next (s.bankWrite who addr (takePad 0 n data) errs)
  else .next (s.bankRead who addr n errs)

/-- One read-modify-write at a point of coherence: the old value is answered (R42, R59). -/
def State.atomicAt (who : Requester) (t : Target) (a code n : Nat) (x cmp : BitVec 64) (s : State) : State :=
  let (v, s) := s.fresh
  let old := s.rd t a n
  let (_, new) := atomWord code n v (ofLE old) [(0, x.toNat % 2 ^ (8 * n), cmp.toNat % 2 ^ (8 * n))]
  ((s.wr' t a (toLE n new)).spanWritten t a n).answer who old false

/-- Whether the atomic units have an operation (R42, R101): FP operations work on 32 bits. -/
def atomicOk (op : BitVec 4) (wide : Bool) : Bool := op.toNat != 15 && !(wide && decide (10 ≤ op.toNat))

/-- RESERVOIR_ATOMIC: a word with an uncorrectable error is not changed, and the access faults as a read does (R42). A code that
names no operation does nothing. -/
def execReservoirAtomic (who : Requester) (op : BitVec 4) (wide : Bool) (addr : Nat) (x cmp : BitVec 64) (errs : List EccHit)
    (s : State) : Res :=
  let n := if wide then 8 else 4
  if s.rsvBytes < addr + n then
    match who with
    | .engine e => .next (s.engineFault e .reservoirLimit false true .reservoir addr)
    | _ => .fault .reservoirAddress
  else if !(atomicOk op wide) then .next s
  else if addr % n ≠ 0 then .next (s.accessFailed who .misaligned false true .reservoir addr)
  else if s.bankClosed addr then .next (s.accessFailed who .targetReset false true .reservoir addr)
  else
    let s := s.takeHits .reservoir (hitsIn addr n errs)
    if s.mem.poisoned .reservoir addr n then
      .next (((s.countUes .reservoir addr n).answer who (s.rd .reservoir addr n) true).accessFailed who .poison false true .reservoir addr)
    else .next (s.atomicAt who .reservoir addr op.toNat n x cmp)

/-! ## SCRUB_LINE (R45, R46) -/

/-- The words of a line with a correctable error, and those with an uncorrectable one. -/
def scrubWords (ue : List Nat) (a n : Nat) (errs : List EccHit) : List Nat × List Nat :=
  let hits := hitsIn a n errs
  let bad := (hits.filter (·.uncorrectable)).foldl (fun l h => addWord (wordBase h.addr) l) (wordsIn ue a n)
  let good := (hits.filter fun h => !h.uncorrectable).foldl (fun l h => addWord (wordBase h.addr) l) []
  (good.filter fun w => !(bad.contains w), bad)

/-- The scrubber's threshold and its most doublings (R45, R70). -/
def Rsv.threshold (r : Rsv) : Nat := fld r.scrubCfg.toNat 31 24
def Rsv.maxDoublings (r : Rsv) : Nat := min 6 (fld r.scrubCfg.toNat 23 20)

/-- The scrubber's count after a line: past the threshold the rate doubles (R45). -/
def Rsv.countLine (n : Nat) (r : Rsv) : Rsv :=
  let ce := r.ce + n
  if r.threshold < ce ∧ r.doublings < r.maxDoublings then { r with doublings := r.doublings + 1, ce := 0, raised := true }
  else { r with ce := ce }

/-- The end of a pass (R45, R46). -/
def Rsv.endPass (r : Rsv) : Rsv :=
  { r with
    doublings := if !r.raised ∧ r.ce ≤ r.threshold / 4 ∧ 0 < r.doublings then r.doublings - 1 else r.doublings
    passCount := r.passCount + 1, s1Pass := false, line := 0, ce := 0, raised := false, cePrev := r.ceThis, ceThis := [] }

/-- SCRUB_LINE: the next line is read, corrected and rewritten. The scrubber stands still outside the A states (R47) and while
the line's bank group is not there. -/
def execScrubLine (errs : List EccHit) (s : State) : Res :=
  let a := 128 * s.rsv.line
  let lines := s.rsvBytes / 128
  if s.aon.mode ≠ .a ∨ lines = 0 ∨ s.bankClosed a then .next s
  else
    let (good, bad) := scrubWords s.mem.rsvUe a 128 errs
    let s := s.modMem fun m => { m with rsvUe := bad.foldl (fun l w => addWord w l) m.rsvUe }
    let s := runAll (fun (w : Nat) (s : State) => s.rsvError w false true) good s
    let s := runAll (fun (w : Nat) (s : State) => s.rsvError w true true) bad s
    let twice := good.filter fun w => s.rsv.cePrev.contains w
    let alert := twice.foldl (fun (m : BitVec 8) w => m ||| BitVec.ofNat 8 (2 ^ (s.placement w).1)) s.rsv.groupAlert
    let s := s.modRsv fun r => { r with active := true, groupAlert := alert, ceThis := r.ceThis ++ good }
    let s := s.modRsv (Rsv.countLine good.length)
    .next (s.modRsv fun r => if lines ≤ r.line + 1 then r.endPass else { r with line := r.line + 1 })

end Sys2Proof.Machine
end

