-- ==== Sys2Proof/Machine/Dram.lean ====
section
/-! DEFINITION. The LPDDR5X channels: placement, inline ECC, patrol, refresh and retraining (R64 to R68). -/

namespace Sys2Proof.Machine

/-- The channel of a DRAM address (R64). -/
def channelOf (pa : Nat) : Nat := fld pa 10 8 ^^^ fld pa 18 16

/-- The subchannel of a DRAM address, and its bank (R64). -/
def subchannelOf (pa : Nat) : Nat := fld pa 7 7
def dramBankOf (pa : Nat) : Nat := fld pa 14 11 ^^^ fld pa 22 19

/-- The slice of an address (R49). -/
def sliceOf (pa : Nat) : Nat := fld pa 10 7

/-- A line of the system cache that holds an address, changed. -/
def State.modScLine (t : Target) (line : Nat) (f : ScLine → ScLine) (s : State) : State :=
  s.modSlice (line % 16) fun x => { x with lines := x.lines.map fun l => if l.tgt = t ∧ l.line = line then f l else l }

/-! ## DRAM_ACCESS (R65) -/

/-- A read at a channel: correctable words are corrected, counted and logged; when the read allocates, the line is marked
dirty, else the corrected line is written back at once. Uncorrectable words, and an uncorrectable link error, poison the data
and an allocated line. -/
def State.dramRead (q : DramReq) (s : State) : State :=
  let errs := if s.part.inlineEcc then hitsIn q.addr q.len q.errs else []
  let fixed := (errs.filter fun h => !h.uncorrectable).filter fun h => !(s.mem.dramUe.contains (wordBase h.addr))
  let s := s.takeHits .dram ((errs.filter (·.uncorrectable)) ++ fixed)
  let s := s.modSc fun c => if q.link = .corrected ∧ s.part.linkEcc then { c with linkEcc := satInc c.linkEcc } else c
  let bad := s.mem.poisoned .dram q.addr q.len || (q.link == .uncorrectable && s.part.linkEcc)
  let s := s.countUes .dram q.addr q.len
  let s := if q.allocates then
      s.modScLine .dram (q.addr / 128) fun l => { l with dirty := l.dirty || !fixed.isEmpty, poison := l.poison || bad }
    else s
  s.say (.dramData q.addr (s.rd .dram q.addr q.len) bad)

/-- The valid bytes of a write merged into what memory holds. -/
def State.mergeValid (s : State) (a : Nat) (bs : List Byte) (valid : List Bool) : List Byte :=
  (List.zip (s.rd .dram a bs.length) (List.zip bs valid)).map fun x => if x.2.2 then x.2.1 else x.1

/-- Whether every byte of a word is written with its valid bit set. -/
def wordWhole (w a : Nat) (valid : List Bool) : Bool :=
  (List.range 8).all fun i => decide (a ≤ w + i) && valid.getD (w + i - a) false

/-- Whether some byte of a word is written. -/
def wordTouched (w a : Nat) (valid : List Bool) : Bool :=
  (List.range 8).any fun i => decide (a ≤ w + i) && valid.getD (w + i - a) false

/-- A write at a channel: a word written whole loses its error; a partly valid word is read and merged with inline ECC on, and
an uncorrectable error found by that read stays in the merged word, is counted and logged, and nobody faults. -/
def State.dramWrite (q : DramReq) (s : State) : State :=
  let bs := takePad 0 q.len q.data
  let valid := takePad false q.len q.valid
  let words := (List.range (q.len / 8 + 2)).map fun i => wordBase q.addr + 8 * i
  let part := words.filter fun w => wordTouched w q.addr valid && !(wordWhole w q.addr valid)
  let errs := if s.part.inlineEcc then q.errs.filter fun h => part.contains (wordBase h.addr) else []
  let s := s.takeHits .dram (errs.filter fun h => h.uncorrectable || !(s.mem.dramUe.contains (wordBase h.addr)))
  let s := runAll (fun (w : Nat) (s : State) => s.dramError w true false) (part.filter fun w => s.mem.dramUe.contains w) s
  let ue := s.mem.dramUe.filter fun w => !(words.contains w && wordWhole w q.addr valid)
  let merged := s.mergeValid q.addr bs valid
  { s with mem := { s.mem with dram := writeBytes q.addr merged s.mem.dram, dramUe := ue } }

/-- A channel serves an access. -/
def State.channelServes (q : DramReq) (s : State) : State :=
  if q.write then s.dramWrite q else s.dramRead q

/-- Whether a channel serves: its island is there and its devices do not refresh themselves (R63, R351). -/
def State.channelRuns (s : State) (ch : Nat) : Bool :=
  s.islandThere (0x58 + ch) && (s.dram[ch]?).all fun c => !c.selfRefresh

/-- DRAM_ACCESS: while its channel retrains, an access waits in the channel island's queue (R68). A channel that does not serve
takes none. -/
def execDramAccess (write : Bool) (addr len : Nat) (data : List Byte) (valid : List Bool) (errs : List EccHit) (link : LinkEcc)
    (allocates : Bool) (s : State) : Res :=
  let q : DramReq := ⟨write, addr, len, data, valid, errs, link, allocates⟩
  let ch := channelOf addr
  if s.dramBytes < addr + len then .fault .dramAddress
  else
    match s.dram[ch]? with
    | some c =>
      if !(s.channelRuns ch) then .next s
      else if c.retraining then .next (s.modChannel ch fun c => { c with waiting := c.waiting ++ [q] })
      else .next (s.channelServes q)
    | none => .next s

/-! ## Refresh and retraining (R67, R68) -/

/-- DRAM_REFRESH: a per-bank refresh of the channel in service, or a refresh-management command, which the channel gives only when
the memory's mode registers require it (R63, R67). -/
def execDramRefresh (r : RefreshOp) (s : State) : Res :=
  match r with
  | .perBank ch => .next (if s.channelRuns ch then s.modChannel ch fun c => { c with refreshes := c.refreshes + 1 } else s)
  | .management ch => .next (if s.channelRuns ch && s.part.rfm then s.modChannel ch fun c => { c with rfms := c.rfms + 1 } else s)

/-- MR4_POLL: the channel takes the refresh rate that MR4 reports. -/
def execMr4Poll (ch rate : Nat) (s : State) : Res :=
  .next (if s.channelRuns ch then s.modChannel ch fun c => { c with refreshRate := rate } else s)

/-- DQS_OSCILLATOR_CHECK: the drift of a subchannel against the limits of the boot configuration. -/
def execDqsOscillatorCheck (sub drift : Nat) (s : State) : Res :=
  .next (if !(s.channelRuns (sub / 2)) then s else s.modChannel (sub / 2) fun c =>
    if s.part.hardLimit ≤ drift then { c with hardPending := true }
    else if s.part.softLimit ≤ drift then
      { c with softPending := true, softSince := if c.softPending then c.softSince else s.now }
    else c)

/-- Whether a RESERVED slot of the active table is open (R68). -/
def State.reservedOpen (s : State) : Bool := s.sluice.openSlots.any fun x => x.2.1.cls == 0

/-- RETRAINING: one channel at a time. At the hard limit it runs at once; below it, when no RESERVED slot runs or after 1 s. -/
def execRetraining (ch : Nat) (s : State) : Res :=
  match s.dram[ch]? with
  | none => .next s
  | some c =>
    let soft := c.softPending && (!s.reservedOpen || decide (c.softSince + 1000000 ≤ s.now))
    if !(s.channelRuns ch) ∨ s.dram.any (·.retraining) ∨ !(c.hardPending || soft) then .next s
    else
      let s := s.modChannel ch fun c => { c with retraining := true, hardPending := false, softPending := false }
      .next (s.modSc fun x =>
        let n := x.retrain.toNat
        let hard : BitVec 16 := BitVec.ofNat 16 (fld n 31 16)
        let low : BitVec 16 := BitVec.ofNat 16 (fld n 15 0)
        let (hard, low) := if c.hardPending then (satInc hard, low) else (hard, satInc low)
        { x with retrain := BitVec.ofNat 32 (at' hard.toNat 16 + low.toNat) })

/-- The accesses that waited for a channel's retraining proceed in order (R68). -/
def State.retrained (ch : Nat) (s : State) : State :=
  match s.dram[ch]? with
  | none => s
  | some c => runAll State.channelServes c.waiting (s.modChannel ch fun c => { c with retraining := false, waiting := [] })

/-! ## PATROL (R66) -/

/-- PATROL: the next line of DRAM; correctable errors are corrected, uncorrectable ones stay, and both are counted and logged. -/
def execPatrol (errs : List EccHit) (s : State) : Res :=
  let a := s.sc.patrolAt
  let busy : Bool := !(s.channelRuns (channelOf a)) || (s.dram[channelOf a]?).any (·.retraining)
  if !s.part.inlineEcc ∨ fld s.sc.patrolCfg.toNat 15 0 = 0 ∨ s.aon.mode ≠ .a ∨ busy ∨ s.dramBytes < a + 128 then .next s
  else
    let (good, bad) := scrubWords s.mem.dramUe a 128 errs
    let s := s.modMem fun m => { m with dramUe := bad.foldl (fun l w => addWord w l) m.dramUe }
    let s := runAll (fun (w : Nat) (s : State) => s.dramError w false true) good s
    let s := runAll (fun (w : Nat) (s : State) => s.dramError w true true) bad s
    .next (s.modSc fun c => { c with patrolAt := if a + 256 ≤ s.dramBytes then a + 128 else 0 })

end Sys2Proof.Machine
end

