-- ==== Sys2Proof/Machine/HeithInt.lean ====
section
/-! DEFINITION. The integer instructions, moves, exchanges between lanes and predicate instructions of Heith (R101 to
R103). -/

namespace Sys2Proof.Machine

/-! ## Arithmetic (0x10 to 0x17) -/

def execIadd (c g : Nat) (w : HWord) (s : State) : Res := .next (s.alu int2 (fun x => x.a + x.b) c g w)

def execIsub (c g : Nat) (w : HWord) (s : State) : Res := .next (s.alu int2 (fun x => x.a + (2 ^ 32 - x.b)) c g w)

def execImul (c g : Nat) (w : HWord) (s : State) : Res := .next (s.alu int2 (fun x => x.a * x.b) c g w)

/-- IMULHI: signed when MOD [0] is 1 (R101). -/
def execImulhi (c g : Nat) (w : HWord) (s : State) : Res :=
  .next (s.alu int2Signed (fun x =>
    if bitOf w.mode.toNat 0 then word32 (sgn x.a * sgn x.b / 2 ^ 32) else x.a * x.b / 2 ^ 32) c g w)

def execImuladd (c g : Nat) (w : HWord) (s : State) : Res := .next (s.alu int3 (fun x => x.a * x.b + x.c) c g w)

/-- Whether a is below b, signed when MOD [0] is 1. -/
def belowBy (w : HWord) (a b : Nat) : Bool :=
  if bitOf w.mode.toNat 0 then decide (sgn a < sgn b) else decide (a < b)

def execImin (c g : Nat) (w : HWord) (s : State) : Res :=
  .next (s.alu int2Signed (fun x => if belowBy w x.b x.a then x.b else x.a) c g w)

def execImax (c g : Nat) (w : HWord) (s : State) : Res :=
  .next (s.alu int2Signed (fun x => if belowBy w x.a x.b then x.b else x.a) c g w)

/-- IABS: no result is stated for the most negative number, whose magnitude no 32-bit signed number holds. -/
def execIabs (c g : Nat) (w : HWord) (s : State) : Res :=
  .next (s.aluFree int1 (fun k x => if x.a = 2 ^ 31 then Config.intFree k else (sgn x.a).natAbs) c g w)

/-! ## Bits (0x18 to 0x22) -/

def execAnd (c g : Nat) (w : HWord) (s : State) : Res := .next (s.alu int2 (fun x => x.a &&& x.b) c g w)

def execOr (c g : Nat) (w : HWord) (s : State) : Res := .next (s.alu int2 (fun x => x.a ||| x.b) c g w)

def execXor (c g : Nat) (w : HWord) (s : State) : Res := .next (s.alu int2 (fun x => x.a ^^^ x.b) c g w)

def execNot (c g : Nat) (w : HWord) (s : State) : Res := .next (s.alu int1 (fun x => 2 ^ 32 - 1 - x.a) c g w)

def execShl (c g : Nat) (w : HWord) (s : State) : Res := .next (s.alu int2 (fun x => x.a <<< (x.b % 32)) c g w)

/-- SHR: arithmetic when MOD [0] is 1 (R101). -/
def execShr (c g : Nat) (w : HWord) (s : State) : Res :=
  .next (s.alu int2Signed (fun x =>
    if bitOf w.mode.toNat 0 then word32 (sgn x.a / 2 ^ (x.b % 32)) else x.a >>> (x.b % 32)) c g w)

/-- FLDX: the field at offset SRC1 of width SRC2. No result is stated for a field that reaches past bit 31. -/
def execFldx (c g : Nat) (w : HWord) (s : State) : Res :=
  .next (s.aluFree int3 (fun k x =>
    if x.b + x.c ≤ 32 then (x.a >>> x.b) % 2 ^ x.c else Config.intFree k) c g w)

/-- FLDI: SRC0's low bits put into SRC2 at the offset and width of SRC1. No result is stated for a field that reaches
past bit 31. -/
def execFldi (c g : Nat) (w : HWord) (s : State) : Res :=
  .next (s.aluFree int3 (fun k x =>
    let o := fld x.b 4 0
    let n := fld x.b 12 8
    if o + n ≤ 32 then x.c - (((x.c >>> o) % 2 ^ n) <<< o) + ((x.a % 2 ^ n) <<< o) else Config.intFree k) c g w)

def execBitcnt (c g : Nat) (w : HWord) (s : State) : Res := .next (s.alu int1 (fun x => popCount 32 x.a) c g w)

def execLeadz (c g : Nat) (w : HWord) (s : State) : Res := .next (s.alu int1 (fun x => leadingZeros 32 x.a) c g w)

def execBitrev (c g : Nat) (w : HWord) (s : State) : Res := .next (s.alu int1 (fun x => reverseBits 32 x.a 0) c g w)

/-! ## 64 bits, compares, selection (0x23 to 0x27) -/

/-- The shape of IADD64: register pairs. -/
def iadd64Shape : Shape := { int1 with s0 := src64, s1 := src64, dregs := 2, dalign := 2 }

def execIadd64 (c g : Nat) (w : HWord) (s : State) : Res := .next (s.alu iadd64Shape (fun x => x.a + x.b) c g w)

/-- The shape of IMULADDW: 32 by 32 plus a pair. -/
def imuladdwShape : Shape := { int2 with s2 := src64, dregs := 2, dalign := 2 }

/-- IMULADDW: unsigned (log entry 25). -/
def execImuladdw (c g : Nat) (w : HWord) (s : State) : Res := .next (s.alu imuladdwShape (fun x => x.a * x.b + x.c) c g w)

/-- The shape of ICMP: NUM and NAN are for FP only (R101). -/
def icmpShape : Shape := { int2 with dks := [2], mod := fun m => decide (m % 8 < 6) }

/-- ICMP: unsigned when MOD [3] is 1 (R101). -/
def execIcmp (c g : Nat) (w : HWord) (s : State) : Res :=
  let m := w.mode.toNat
  .next (s.compare icmpShape (fun x =>
    if bitOf m 3 then iCompare (m % 8) (Int.ofNat x.a) (Int.ofNat x.b) else iCompare (m % 8) (sgn x.a) (sgn x.b)) c g w)

/-- The shape of PICK: SRC2 is a predicate. -/
def pickShape : Shape := { int2 with s2 := srcPred }

def execPick (c g : Nat) (w : HWord) (s : State) : Res :=
  .next (s.alu pickShape (fun x => if x.c = 1 then x.a else x.b) c g w)

def execMov (c g : Nat) (w : HWord) (s : State) : Res := .next (s.alu int1 (fun x => x.a) c g w)

/-! ## Special values, lanes and predicates -/

/-- The shape of SVAL (R102, R103). With a scalar destination a selector in a vector or predicate register is that of lane 0 (log
entry 135). -/
def svalShape : Shape := { shape0 with dks := [0, 1], s0 := src32 }

/-- A special value (R102). The lane number of a scalar destination and other selectors have no stated value. -/
def specialValue (s : State) (i : Issuer) (g : Group) (scalar : Bool) (k l sel : Nat) : Nat :=
  match sel with
  | 0 => if scalar then Config.intFree k else l
  | 1 => g.part
  | 2 => engineIsland (.cluster i.c)
  | 3 => (s.count (engineIsland (.cluster i.c))).toNat % 2 ^ 32
  | 4 => (s.count (engineIsland (.cluster i.c))).toNat / 2 ^ 32
  | _ => Config.intFree k

def execSval (c g : Nat) (w : HWord) (s : State) : Res :=
  .next (s.issue svalShape (fun i g s =>
    let (v, s) := s.fresh
    .go ((g.putResult svalShape w fun l =>
      specialValue s i g (w.dk == 1) (64 * v + 2 * l) l (g.srcs svalShape w l).a).advance w) s) c g w)

/-- The shape of XLANE. -/
def xlaneShape : Shape := { shape0 with dks := [0], mod := fun m => decide (m < 4), s0 := src32, s1 := src32 }

/-- The source lane of XLANE (R101); a lane outside 0 to 31 is the lane's own. -/
def xlaneSource (m l b : Nat) : Nat :=
  let t : Int := match m with
    | 0 => b
    | 1 => Int.ofNat l - Int.ofNat b
    | 2 => Int.ofNat l + Int.ofNat b
    | _ => Int.ofNat (l ^^^ b)
  if 0 ≤ t ∧ t < 32 then t.toNat else l

def execXlane (c g : Nat) (w : HWord) (s : State) : Res :=
  .next (s.issue xlaneShape (fun _ g s =>
    .go ((g.putResult xlaneShape w fun l =>
      (g.srcs xlaneShape w (xlaneSource w.mode.toNat l (g.srcs xlaneShape w l).b)).a).advance w) s) c g w)

/-- The shape of PREDUCE: MASK alone writes a scalar (R101, R103). -/
def preduceShape (w : HWord) : Shape :=
  { shape0 with dks := if w.mode = 2 then [1] else [2], mod := fun m => decide (m < 3), s0 := srcPred }

/-- PREDUCE: ALL and ANY reduce over the active lanes (log entry 26); MASK is the source's 32 bits. -/
def execPreduce (c g : Nat) (w : HWord) (s : State) : Res :=
  .next (s.issue (preduceShape w) (fun _ g s =>
    let act := g.active w
    let p := g.pred w.src0.toNat
    if w.mode = 2 then .go ((g.putSca w.dst.toNat p.toNat).advance w) s
    else
      let yes := if w.mode = 0 then decide (p &&& act = act) else decide (p &&& act ≠ 0)
      .go ((g.putPred w.dst.toNat act (if yes then 0xFFFFFFFF else 0)).advance w) s) c g w)

/-- The shape of PXFER: a predicate to a scalar, or a scalar to a predicate. -/
def pxferShape (w : HWord) : Shape :=
  { shape0 with dks := [1, 2], s0 := if w.dk = 1 then srcPred else { kind := .scalar, regs := 1, align := 1 } }

def execPxfer (c g : Nat) (w : HWord) (s : State) : Res :=
  .next (s.issue (pxferShape w) (fun _ g s =>
    if w.dk = 1 then .go ((g.putSca w.dst.toNat (g.pred w.src0.toNat).toNat).advance w) s
    else .go ((g.putPred w.dst.toNat (g.active w) (BitVec.ofNat 32 (g.sreg w.src0.toNat))).advance w) s) c g w)

/-- The shape of PLOGIC. -/
def plogicShape : Shape := { shape0 with dks := [2], mod := fun m => decide (m < 4), s0 := srcPred, s1 := srcPred }

def execPlogic (c g : Nat) (w : HWord) (s : State) : Res :=
  .next (s.issue plogicShape (fun _ g s =>
    let a := g.pred w.src0.toNat
    let b := g.pred w.src1.toNat
    let v := if w.mode = 0 then a &&& b else if w.mode = 1 then a ||| b else if w.mode = 2 then a ^^^ b else a &&& ~~~b
    .go ((g.putPred w.dst.toNat (g.active w) v).advance w) s) c g w)

/-- The shape of LREDUCE. -/
def lreduceShape : Shape := { shape0 with dks := [1], mod := fun m => decide (m < 3), s0 := src32 }

/-- The smaller or the larger of signed words. -/
def reduceBy (smaller : Bool) : List Nat → Nat
  | [] => 0
  | [a] => a
  | a :: as => let b := reduceBy smaller as
    if smaller then (if sgn b < sgn a then b else a) else (if sgn a < sgn b then b else a)

/-- LREDUCE: over the active lanes, which are all lanes, since a scalar destination names P0 (R78). -/
def execLreduce (c g : Nat) (w : HWord) (s : State) : Res :=
  .next (s.issue lreduceShape (fun _ g s =>
    let vs := (lanesOf (g.active w)).map fun l => (g.srcs lreduceShape w l).a
    let v := if w.mode = 0 then sumN vs else reduceBy (w.mode == 1) vs
    .go ((g.putSca w.dst.toNat v).advance w) s) c g w)

end Sys2Proof.Machine
end

