-- ==== Sys2Proof/Machine/NetNum.lean ====
section
/-! DEFINITION. The numbers of the Nersovo engine: element formats and rows (R142 to R145), accumulation (R167, R168), the epilogue
(R148, R149) and the conversion to the output format (R169). -/

namespace Sys2Proof.Machine

/-! ## Formats (R142) -/

/-- Element bits of a format; 0 for a code that is not listed. -/
def netBits (f : Nat) : Nat :=
  match f with
  | 0x01 => 8 | 0x02 => 8 | 0x03 => 4 | 0x04 => 32 | 0x10 => 8 | 0x11 => 8 | 0x18 => 16 | 0x19 => 16 | 0x1A => 32
  | 0x20 => 8 | 0x21 => 8 | 0x22 => 6 | 0x23 => 6 | 0x24 => 4 | 0x25 => 8
  | _ => 0

/-- Whether a code is listed. -/
def netKnown (f : Nat) : Bool := netBits f != 0

/-- Whether a format is an MX format. -/
def isMx (f : Nat) : Bool := decide (0x20 ≤ f) && decide (f ≤ 0x25)

/-- Whether a format holds integers. -/
def isInt (f : Nat) : Bool := decide (1 ≤ f) && decide (f ≤ 4)

/-- The class F8. -/
def isF8 (f : Nat) : Bool := [0x10, 0x11, 0x20, 0x21, 0x22, 0x23, 0x25].contains f

/-- The class H. -/
def isH (f : Nat) : Bool := f == 0x18 || f == 0x19

/-- A value of a small float without infinities: sign, exponent and fraction widths, bias. -/
def miniVal (eb mb bias raw : Nat) : FVal :=
  let neg := bitOf raw (eb + mb)
  let e := fld raw (eb + mb - 1) mb
  let m := raw % 2 ^ mb
  if e = 0 then .fin neg m (1 - Int.ofNat bias - Int.ofNat mb) false
  else .fin neg (2 ^ mb + m) (Int.ofNat e - Int.ofNat bias - Int.ofNat mb) false

/-- E5M2 is a format of IEEE 754's kind. -/
def e5m2 : Fmt := { eb := 5, mb := 2 }

/-- An integer element. -/
def intElem (f raw : Nat) : Int :=
  match f with
  | 0x02 => Int.ofNat (raw % 256)
  | _ => signedOf (netBits f) raw

/-- An element's own value; an MX scale is not in it. -/
def elemVal (f raw : Nat) : FVal :=
  match f with
  | 0x10 => if raw % 128 = 127 then .nan else miniVal 4 3 7 raw
  | 0x11 => e5m2.value raw
  | 0x18 => f16.value raw
  | 0x19 => bf16.value raw
  | 0x1A => f32.value raw
  | 0x20 => if raw % 128 = 127 then .nan else miniVal 4 3 7 raw
  | 0x21 => e5m2.value raw
  | 0x22 => miniVal 3 2 3 raw
  | 0x23 => miniVal 2 3 1 raw
  | 0x24 => miniVal 2 1 1 raw
  | 0x25 => let v := signedOf 8 raw; .fin (decide (v < 0)) v.natAbs (-6) false
  | _ => fOfInt (intElem f raw)

/-! ## Rows (R143 to R145) -/

/-- A length rounded up to 16 bytes. -/
def pad16 (n : Nat) : Nat := ceilDiv n 16 * 16

/-- Bytes of the scales of a row of K elements. -/
def scaleBytes (f n : Nat) : Nat := if isMx f then pad16 (ceilDiv n 32) else 0

/-- Elements that a row stores: an MX row is padded to whole blocks. -/
def storedElems (f n : Nat) : Nat := if isMx f then ceilDiv n 32 * 32 else n

/-- Bytes of a row of K elements, without the padding at its end. -/
def rowLen (f n : Nat) : Nat := scaleBytes f n + ceilDiv (storedElems f n * netBits f) 8

/-- Bytes of a row as it lies in memory. -/
def rowBytes (f n : Nat) : Nat := pad16 (rowLen f n)

/-- Bytes of the kept elements of a sparse row. -/
def keptBytes (f n : Nat) : Nat := pad16 (n / 2 * netBits f / 8)

/-- Bytes of a weight row. -/
def weightRowBytes (f n : Nat) (sparse : Bool) : Nat :=
  if sparse then scaleBytes f n + keptBytes f n + pad16 (n / 8) else rowBytes f n

/-- The bits of an element of a row. -/
def rawElem (f n row k : Nat) : Nat := row / 2 ^ (8 * scaleBytes f n + k * netBits f) % 2 ^ netBits f

/-- The scale of an element's block; 1 for a format without scales. -/
def scaleOf (f row k : Nat) : FVal :=
  if isMx f then
    let b := row / 2 ^ (8 * (k / 32)) % 256
    if b = 0xFF then .nan else .fin false 1 (Int.ofNat b - 127) false
  else fOne

/-- The logical elements of a weight row that are kept, with their bits: all of them, or two of every four (R145). -/
def weightElems (f n : Nat) (sparse : Bool) (row : Nat) : List (Nat × Nat) :=
  if sparse then
    let meta_ := 8 * (scaleBytes f n + keptBytes f n)
    (List.range (n / 4)).flatMap fun g =>
      let ix := row / 2 ^ (meta_ + 4 * g) % 16
      [(4 * g + ix % 4, rawElem f n row (2 * g)), (4 * g + ix / 4, rawElem f n row (2 * g + 1))]
  else (List.range n).map fun k => (k, rawElem f n row k)

/-! ## Accumulation -/

/-- The limits of INT32. -/
def int32Max : Int := 2147483647
def int32Min : Int := -2147483648

/-- Integers summed two at a time, each sum saturated to INT32, in an order that is free; and whether a sum saturated. The
fuel is their number. -/
def satTree (k : Nat) : Nat → List Int → Int × Bool
  | 0, vs => (vs.headD 0, false)
  | n + 1, vs =>
    if vs.length ≤ 1 then (vs.headD 0, false)
    else
      let i := Config.treePick k (2 * n) % vs.length
      let rest := vs.eraseIdx i
      let j := Config.treePick k (2 * n + 1) % rest.length
      let exact := vs.getD i 0 + rest.getD j 0
      let r := satTree k n (clampInt int32Min int32Max exact :: rest.eraseIdx j)
      (r.1, r.2 || decide (exact < int32Min) || decide (int32Max < exact))

/-- An INT32 sum, and whether it saturated (R167). The order of the additions is not stated (log entry 22); it matters to no
sum whose positive and negative parts both stay in INT32. -/
def intSum (k : Nat) (ps : List Int) : Int × Bool :=
  let p := (ps.filter fun v => decide (0 < v)).foldl (· + ·) 0
  let n := (ps.filter fun v => decide (v < 0)).foldl (· + ·) 0
  if p ≤ int32Max ∧ int32Min ≤ n then (p + n, false) else satTree k ps.length ps

/-- The FP32 pattern of a value. -/
def toF32 (k : Nat) (v : FVal) : Nat := f32.result fpPlain k v

/-- Values summed in FP32, each addition rounded to nearest even; the shape of the sum is free (R168, log entry 22). -/
def treeSumV (k : Nat) : Nat → List FVal → Nat
  | 0, vs => toF32 (64 * k) (vs.headD fZero)
  | n + 1, vs =>
    if vs.length ≤ 1 then toF32 (64 * k) (vs.headD fZero)
    else
      let i := Config.treePick k (2 * n) % vs.length
      let rest := vs.eraseIdx i
      let j := Config.treePick k (2 * n + 1) % rest.length
      let v := f32.value (toF32 (64 * k + n + 1) (fAdd .nearest (vs.getD i fZero) (rest.getD j fZero)))
      treeSumV k n (v :: rest.eraseIdx j)

/-- The sum of some values. -/
def fpSum (k : Nat) (vs : List FVal) : Nat := treeSumV k vs.length vs

/-- One product of a reduction: the block that it belongs to, the scale of the block, the product of the elements. -/
structure Term where
  block : Nat × Nat × Nat
  scale : FVal
  prod  : FVal

/-- A floating-point reduction: the products of a block are summed, then scaled exactly, then summed (R168). Without MX
operands all products are one block. -/
def fpReduce (k : Nat) (mx : Bool) (ts : List Term) : Nat :=
  if mx then
    let bs := enumFrom 0 (groupBy' (fun (t : Term) => t.block) ts [])
    fpSum (4096 * k) (bs.map fun b => match b.2.2 with
      | [] => fZero
      | t :: _ => fMul t.scale (f32.value (fpSum (4096 * k + b.1 + 1) (b.2.2.map fun x => x.prod))))
  else fpSum (4096 * k) (ts.map fun t => t.prod)

/-! ## The epilogue (R148, R149) -/

/-- An FP32 operation on patterns. -/
def f32Op (k : Nat) (op : FVal → FVal → FVal) (a b : Nat) : Nat := toF32 k (op (f32.value a) (f32.value b))

/-- The activation table on an FP32 value; `t` is the 2,064 bytes as a number. -/
def actTable (k t x : Nat) : Nat :=
  let word := fun (o : Nat) => t / 2 ^ (8 * o) % 2 ^ 32
  let u := f32Op k fMul (f32Op (k + 1) (fun a b => fAdd .nearest a (fNeg b)) x (word 0)) (word 4)
  let i : Nat := match f32.value u with
    | .nan => 0
    | .inf neg => if neg then 0 else 255
    | .fin neg m e _ => (clampInt 0 255 (roundInt .down neg m e)).toNat
  f32Op (k + 2) (fAdd .nearest) (f32Op (k + 3) fMul (word (16 + 8 * i)) x) (word (20 + 8 * i))

/-- The operands of an epilogue: bias, scale and table, each when its flag is set. -/
structure EpiOps where
  bias  : Option (List Nat)
  scale : Option (List Nat)
  act   : Option Nat

/-- The epilogue up to the conversion: an FP32 pattern. `res` is the residual's element. -/
def epilogue (k : Nat) (o : EpiOps) (res : Option FVal) (c acc : Nat) : Nat :=
  let x := match o.bias with
    | some b => f32Op (16 * k) (fAdd .nearest) acc (b.getD c 0)
    | none => acc
  let x := match o.scale with
    | some b => f32Op (16 * k + 1) fMul x (b.getD c 0)
    | none => x
  let x := match res with
    | some r => f32Op (16 * k + 2) (fAdd .nearest) x (toF32 (16 * k + 3) r)
    | none => x
  match o.act with
  | some t => actTable (16 * k + 4) t x
  | none => x

/-! ## The output (R169) -/

/-- The range of an integer format. -/
def netRange (f : Nat) : Int × Int :=
  match f with
  | 0x01 => (-128, 127)
  | 0x02 => (0, 255)
  | 0x03 => (-8, 7)
  | _ => (int32Min, int32Max)

/-- An FP32 value converted to an integer format, and whether it saturated. A NaN has no stated image. -/
def toIntFormat (k f : Nat) (zero : Int) (x : Nat) : Nat × Bool :=
  let (lo, hi) := netRange f
  let bits := fun (v : Int) => (v % 2 ^ netBits f).toNat
  match f32.value x with
  | .nan => (Config.netWord (2 * k) % 2 ^ netBits f, Config.netWord (2 * k + 1) % 2 == 1)
  | .inf neg => (bits (if neg then lo else hi), true)
  | .fin neg m e _ =>
    let v := roundInt .nearest neg m e + zero
    (bits (clampInt lo hi v), decide (v < lo) || decide (hi < v))

/-- A value rounded to a small float whose largest magnitude is `top`, saturating. -/
def toMini (eb mb bias top : Nat) (neg : Bool) (v : FVal) : Nat :=
  let f : Fmt := { eb := eb + 2, mb := mb }
  match v with
  | .fin _ m e more =>
    let shifted := f.roundMag .nearest false m (e + Int.ofNat bias - Int.ofNat f.bias) more
    min top shifted + at' (b2n neg) (eb + mb)
  | _ => top + at' (b2n neg) (eb + mb)

/-- The largest magnitude of an element format. -/
def miniTop (f : Nat) : Nat :=
  match f with
  | 0x10 => 0x7E | 0x20 => 0x7E | 0x11 => 0x7B | 0x21 => 0x7B | 0x22 => 0x1F | 0x23 => 0x1F | _ => 0x7

/-- An element of a floating-point format from a value; a NaN's pattern is free where the format has several. -/
def toElem (k f : Nat) (v : FVal) : Nat :=
  let neg := v.neg
  match f, v with
  | 0x10, .nan => 0x7F + at' (Config.netWord k % 2) 7
  | 0x11, .nan => e5m2.nanBits k
  | 0x18, v => f16.result fpPlain k v
  | 0x19, v => bf16.result fpPlain k v
  | 0x1A, v => f32.result fpPlain k v
  | 0x10, v => toMini 4 3 7 0x7E neg v
  | 0x20, v => toMini 4 3 7 0x7E neg v
  | 0x11, v => toMini 5 2 15 0x7B neg v
  | 0x21, v => toMini 5 2 15 0x7B neg v
  | 0x22, v => toMini 3 2 3 0x1F neg v
  | 0x23, v => toMini 2 3 1 0x1F neg v
  | 0x24, v => toMini 2 1 1 0x7 neg v
  | _, .fin n m e _ => (clampInt (-128) 127 (roundInt .nearest n m (e + 6)) % 256).toNat
  | _, _ => if neg then 0x80 else 0x7F

/-- emax of an MX element format (R169). -/
def mxEmax (f : Nat) : Int :=
  match f with
  | 0x20 => 8 | 0x21 => 15 | 0x22 => 4 | 0x25 => 0 | _ => 2

/-- The exponent of a value's leading bit. -/
def leadExp : FVal → Int
  | .fin _ m e _ => Int.ofNat (Nat.log2 m) + e
  | _ => 1024

/-- The scale byte of a block of values (R169). -/
def mxScale (f : Nat) (vs : List FVal) : Nat :=
  if vs.any fun v => decide (v = .nan) then 0xFF
  else
    let big := vs.filter fun v => match v with
      | .fin _ m _ _ => m != 0
      | _ => true
    match big with
    | [] => 0
    | v :: rest => (clampInt 0 254 (rest.foldl (fun e w => max e (leadExp w)) (leadExp v) - mxEmax f + 127)).toNat

/-- The elements of an MX block. -/
def mxElems (k f : Nat) (vs : List FVal) : List Nat :=
  let s := mxScale f vs
  (enumFrom 0 vs).map fun x =>
    if s = 0xFF then Config.netWord (64 * k + x.1) % 2 ^ netBits f
    else toElem (64 * k + x.1) f (fMul x.2 (.fin false 1 (127 - Int.ofNat s) false))

/-- Values in blocks of 32, the last padded with zeros; the fuel is their number. -/
def blocks32 : Nat → List FVal → List (List FVal)
  | 0, _ => []
  | n + 1, vs => if vs.isEmpty then [] else takePad fZero 32 vs :: blocks32 n (vs.drop 32)

/-- Elements packed in a row, lowest first. -/
def packElems (bits : Nat) (es : List Nat) : List Byte :=
  toLE (ceilDiv (es.length * bits) 8) (sumN ((enumFrom 0 es).map fun x => x.2 * 2 ^ (bits * x.1)))

/-- A row of outputs as bytes, without the padding at its end, and how many of them saturated (R169). -/
def outRow (k f : Nat) (zero : Int) (xs : List Nat) : List Byte × Nat :=
  if isInt f then
    let ys := (enumFrom 0 xs).map fun x => toIntFormat (4096 * k + x.1) f zero x.2
    (packElems (netBits f) (ys.map (·.1)), countIf (fun y => y.2) ys)
  else if isMx f then
    let bs := enumFrom 0 (blocks32 xs.length (xs.map f32.value))
    (takePad 0 (scaleBytes f xs.length) (bs.map fun b => BitVec.ofNat 8 (mxScale f b.2)) ++
      packElems (netBits f) (bs.flatMap fun b => mxElems (4096 * k + b.1) f b.2), 0)
  else (packElems (netBits f) ((enumFrom 0 xs).map fun x => toElem (4096 * k + x.1) f (f32.value x.2)), 0)

end Sys2Proof.Machine
end

