-- ==== Sys2Proof/Machine/Layers.lean ====
section
/-! DEFINITION. The layers of a network on an array (R140 to R149, R151, R153, R161, R167 to R169): reading operands, the operations,
writing outputs; LAYER_START, LAYER_COMPLETE and NET_RUN_RESTART (R163); tile networks and the tile flume (R23, R24, R164 to
R166). -/

namespace Sys2Proof.Machine

/-! ## Accesses of a layer -/

/-- An action of an array that may meet a fault: its kind, whether it was a write, its address. -/
abbrev NetAcc (α : Type) := State → Except (FaultKind × Bool × Nat) α × State

/-- An action followed by another. -/
def thenAcc {α β : Type} (m : NetAcc α) (f : α → NetAcc β) : NetAcc β := fun s =>
  match m s with
  | (.error e, s) => (.error e, s)
  | (.ok a, s) => f a s

/-- An action that only answers. -/
def pureAcc {α : Type} (a : α) : NetAcc α := fun s => (.ok a, s)

/-- An action for each element of a list, in order. -/
def mapAcc {α β : Type} (f : α → NetAcc β) : List α → NetAcc (List β)
  | [] => pureAcc []
  | a :: as => thenAcc (f a) fun b => thenAcc (mapAcc f as) fun bs => pureAcc (b :: bs)

/-- Who runs a layer: the array, the context, the network, the bindings; a tile network keeps its intermediate values and
its bindings in the array's buffers (R164; log entry 54), and its weights there when they are kept (R166). -/
structure Runner where
  a    : Nat
  k    : CtxKey
  net  : Net
  tile : Bool
  keep : Bool
  binds : List Nat

/-- A place: in the array's buffers, or a device virtual address; and whether it lies in the weights. -/
structure Loc where
  buf : Bool
  wts : Bool
  at_ : Nat

/-- A place some bytes on. -/
def Loc.add (l : Loc) (n : Nat) : Loc := { l with at_ := l.at_ + n }

/-- Where a binding lies in the buffers. -/
def bufBind (i : Nat) : Nat := 2 ^ 48 * (i + 1)

/-- The place of a tensor reference (R151, R156). -/
def Runner.loc (r : Runner) (ref : BitVec 64) : Loc :=
  let off := ref.toNat % 2 ^ 48
  let space := fld ref.toNat 61 60
  if r.tile ∧ space = 0 then { buf := true, wts := false, at_ := off }
  else if r.tile ∧ space = 2 then { buf := true, wts := false, at_ := bufBind (fld ref.toNat 51 48) + off }
  else { buf := false, wts := decide (space = 1), at_ := r.net.resolve r.binds ref }

/-- The bytes of a span that an array keeps. -/
def Kept.find (k : Kept) (va n : Nat) : Option (List Byte) := (k.rows.find? fun x => x.1 == (va, n)).map (·.2)

/-- Bytes of a span that an array reads at an address: those that it keeps (R166), or memory's, which it may then keep. -/
def Runner.fetch (r : Runner) (keep : Bool) (va n : Nat) (s : State) : Except (FaultKind × Nat) (List Byte) × State :=
  match if keep then (s.arrays[r.a]?.bind fun x => x.kept).bind fun k => k.find va n else none with
  | some bs => (.ok bs, s)
  | none =>
    match s.readVa (.engine (.array r.a)) r.k va n with
    | (.error f, s) => (.error f, s)
    | (.ok bs, s) =>
      (.ok bs, if keep then s.modArray r.a fun x => { x with kept := x.kept.map fun k => { k with rows := ((va, n), bs) :: k.rows } } else s)

/-- n bytes of a place as a number. -/
def Runner.read (r : Runner) (l : Loc) (n : Nat) : NetAcc Nat := fun s =>
  if l.buf then
    (.ok (match s.arrays[r.a]? with
      | some x => ofLE (readBytes x.buf l.at_ n)
      | none => 0), s)
  else
    match r.fetch (r.keep && l.wts) l.at_ n s with
    | (.error f, s) => (.error (f.1, false, f.2), s)
    | (.ok bs, s) => (.ok (ofLE bs), s)

/-- Bytes written at a place. -/
def Runner.write (r : Runner) (l : Loc) (bs : List Byte) : NetAcc Unit := fun s =>
  if l.buf then (.ok (), s.modArray r.a fun x => { x with buf := writeBytes l.at_ bs x.buf })
  else
    match s.putVa (.engine (.array r.a)) r.k l.at_ bs with
    | (some f, s) => (.error (f.1, true, f.2), s)
    | (none, s) => (.ok (), s)

/-- A fresh index for free values. -/
def freshAcc : NetAcc Nat := fun s => let (v, s) := s.fresh; (.ok v, s)

/-! ## Operands -/

/-- A row of A (R143). -/
def Runner.rowA (r : Runner) (l : LayerDesc) (n h w : Nat) : NetAcc Nat :=
  r.read ((r.loc l.aRef).add (n * l.aN + h * l.aRow + w * rowBytes l.aFmt l.inC)) (rowBytes l.aFmt l.inC)

/-- The value of an element of an A row: integers less IN_ZERO (R148). -/
def aVal (l : LayerDesc) (row c : Nat) : FVal :=
  let raw := rawElem l.aFmt l.inC row c
  if isInt l.aFmt then fOfInt (intElem l.aFmt raw - l.inZero) else fMul (scaleOf l.aFmt row c) (elemVal l.aFmt raw)

/-- The place of a row of the output, and of the residual, which has its layout (R148). -/
def outOffset (l : LayerDesc) (n h w : Nat) : Nat := n * l.oN + h * l.oRow + w * rowBytes l.oFmt l.outC

/-- FP32 values as a list. -/
def words32 (n v : Nat) : List Nat := (List.range n).map fun i => v / 2 ^ (32 * i) % 2 ^ 32

/-- The operand block at T_REF (R149). ACT takes the table alone (R148). -/
def Runner.epiOps (r : Runner) (l : LayerDesc) : NetAcc EpiOps :=
  let t := r.loc l.tRef
  let size := 4 * l.outC
  let act := l.op == 7
  let biasN := if l.biasEn ∧ !act then size else 0
  let scaleN := if l.scaleEn ∧ !act then size else 0
  let opt := fun (on : Bool) (p : Loc) (n : Nat) =>
    if on then thenAcc (r.read p n) fun v => pureAcc (some v) else pureAcc (none : Option Nat)
  thenAcc (opt (biasN != 0) t size) fun b =>
  thenAcc (opt (scaleN != 0) (t.add biasN) size) fun c =>
  thenAcc (opt l.actEn { t with at_ := ceilDiv (t.at_ + biasN + scaleN) 64 * 64 } 2064) fun a =>
  pureAcc { bias := b.map (words32 l.outC), scale := c.map (words32 l.outC), act := a }

/-! ## The operations (R147) -/

/-- The taps of a window that lie inside the input: tap number, row and column. -/
def taps (l : LayerDesc) (kh kw oh ow : Nat) : List (Nat × Nat × Nat) :=
  (List.range kh).flatMap fun i => (List.range kw).filterMap fun j =>
    let h := oh * l.sh + i * l.dh
    let w := ow * l.sw + j * l.dw
    if l.padT ≤ h ∧ l.padL ≤ w ∧ h - l.padT < l.inH ∧ w - l.padL < l.inW then some (i * kw + j, h - l.padT, w - l.padL) else none

/-- The window of a layer: MATMUL is a convolution of 1 × 1. -/
def LayerDesc.window (l : LayerDesc) : LayerDesc :=
  if l.op = 2 then { l with kh := 1, kw := 1, sh := 1, sw := 1, dh := 1, dw := 1, padT := 0, padL := 0, groups := 1 } else l

/-- One accumulator of a compute layer: rows of A by tap, rows of W by tap, the first channel of the group. Answers FP32,
and whether an INT32 sum saturated. -/
def macs (l : LayerDesc) (v : Nat) (as : List (Nat × Nat)) (wrow : Nat → Nat) (first width : Nat) : Nat × Bool :=
  let pairs := as.flatMap fun x => (weightElems l.wFmt width l.sparse (wrow x.1)).map fun e => (x.1, x.2, e)
  if isInt l.aFmt then
    let (sum, sat) := intSum v (pairs.map fun p =>
      (intElem l.aFmt (rawElem l.aFmt l.inC p.2.1 (first + p.2.2.1)) - l.inZero) * intElem l.wFmt p.2.2.2)
    (toF32 v (fOfInt sum), sat)
  else
    (fpReduce v (isMx l.aFmt || isMx l.wFmt) (pairs.map fun p =>
      let c := first + p.2.2.1
      { block := (p.1, c / 32, p.2.2.1 / 32),
        scale := fMul (scaleOf l.aFmt p.2.1 c) (scaleOf l.wFmt (wrow p.1) p.2.2.1),
        prod := fMul (elemVal l.aFmt (rawElem l.aFmt l.inC p.2.1 c)) (elemVal l.wFmt p.2.2.2) }), false)

/-- The accumulators of one output row, and how many saturated. -/
abbrev RowAcc := NetAcc (List Nat × Nat)

/-- One output row of CONV or MATMUL; `ws` are the rows of W. -/
def Runner.convRow (r : Runner) (l : LayerDesc) (ws : List Nat) (n oh ow : Nat) : RowAcc :=
  let l := l.window
  thenAcc (mapAcc (fun (t : Nat × Nat × Nat) => thenAcc (r.rowA l n t.2.1 t.2.2) fun row => pureAcc (t.1, row))
    (taps l l.kh l.kw oh ow)) fun as =>
  thenAcc freshAcc fun v =>
  let width := l.inC / l.groups
  let per := l.outC / l.groups
  let outs := (List.range l.outC).map fun oc =>
    macs l (65536 * v + oc) as (fun t => ws.getD (oc * l.kh * l.kw + t) 0) (oc / per * width) width
  pureAcc (outs.map (·.1), countIf (fun x => x.2) outs)

/-- The rows of W of a compute layer, contiguous (R143). -/
def Runner.weights (r : Runner) (l : LayerDesc) : NetAcc (List Nat) :=
  let l := l.window
  let n := weightRowBytes l.wFmt (l.inC / l.groups) l.sparse
  mapAcc (fun i => r.read ((r.loc l.wRef).add (i * n)) n) (List.range (l.outC * l.kh * l.kw))

/-- One element of ELTWISE. -/
def eltwise (k code : Nat) (a b : FVal) : Nat :=
  match code with
  | 0 => toF32 k (fAdd .nearest a b)
  | 1 => toF32 k (fAdd .nearest a (fNeg b))
  | 2 => toF32 k (fMul a b)
  | 3 => toF32 k (fMax k a b)
  | 4 => toF32 k (fMin k a b)
  | _ => toF32 k a

/-- The value of an element of W as second operand. -/
def wVal (l : LayerDesc) (row c : Nat) : FVal := fMul (scaleOf l.wFmt row c) (elemVal l.wFmt (rawElem l.wFmt l.inC row c))

/-- One output row of ELTWISE; W lies as A does, or is one row (R147). -/
def Runner.eltRow (r : Runner) (l : LayerDesc) (n h w : Nat) : RowAcc :=
  let place := if l.broadcastC then 0 else n * l.aN + h * l.aRow + w * rowBytes l.wFmt l.inC
  thenAcc (r.rowA l n h w) fun a =>
  thenAcc (if l.p0.toNat % 8 = 5 then pureAcc 0 else r.read ((r.loc l.wRef).add place) (rowBytes l.wFmt l.inC)) fun b =>
  thenAcc freshAcc fun v =>
  pureAcc ((List.range l.outC).map fun c => eltwise (65536 * v + c) (l.p0.toNat % 8) (aVal l a c) (wVal l b c), 0)

/-- The mean of some values: their sum in FP32, then one of the two nearest quotients; nothing is stated for no value. -/
def meanOf (k : Nat) (vs : List FVal) : Nat :=
  if vs.isEmpty then Config.netWord k % 2 ^ 32
  else
    match f32.value (fpSum k vs) with
    | .fin neg m e _ =>
      let q := m * 2 ^ 40
      f32.signed neg (f32.roundMag (if Config.texBit k then .up else .zero) false (q / vs.length) (e - 40) (decide (q % vs.length ≠ 0)))
    | v => toF32 k v

/-- The largest of some values. Whether padding counts as 0 is not stated. -/
def maxOf (k : Nat) (padded : Bool) (vs : List FVal) : Nat :=
  let vs := if padded ∧ Config.texBit k then fZero :: vs else vs
  match vs with
  | [] => Config.netWord k % 2 ^ 32
  | x :: rest => toF32 k (rest.foldl (fMax k) x)

/-- One output row of POOL. -/
def Runner.poolRow (r : Runner) (l : LayerDesc) (n oh ow : Nat) : RowAcc :=
  let ts := if l.p0.toNat % 4 = 2 then
      (List.range l.inH).flatMap fun h => (List.range l.inW).map fun w => (0, h, w)
    else taps l l.kh l.kw oh ow
  thenAcc (mapAcc (fun (t : Nat × Nat × Nat) => r.rowA l n t.2.1 t.2.2) ts) fun rows =>
  thenAcc freshAcc fun v =>
  pureAcc ((List.range l.outC).map fun c =>
    let vs := rows.map fun row => aVal l row c
    if l.p0.toNat % 4 = 0 then maxOf (65536 * v + c) (decide (rows.length < l.kh * l.kw)) vs else meanOf (65536 * v + c) vs, 0)

/-- The position along an axis that a resized one comes from: the scale is that of the sizes. With ALIGN_CORNERS the first and
the last positions agree, and a single output position is any; without it the scale maps either the corners or the centres of
the samples, which is open (log entry 55). -/
def resizePos (v : Nat) (align : Bool) (out inn o : Nat) : Rat :=
  if !align then axisPos Config.resizeCentre out inn o
  else if out = 1 then mkRat (Config.netWord v % inn) 1
  else mkRat (o * (inn - 1)) (out - 1)

/-- The samples along an axis that a resized position takes, with their weights: the nearest, either of two at one distance; or
the two neighbours. -/
def resizeAxis (v : Nat) (bilinear align : Bool) (out inn o : Nat) : List (Nat × Rat) :=
  let p := resizePos v align out inn o
  let i := p.floor.toNat
  let f := p - p.floor
  if bilinear ∨ f = 0 then linearTaps p
  else if 2 * f = 1 then [(i + Config.netWord (v + 1) % 2, 1)]
  else [(if 2 * f < 1 then i else i + 1, 1)]

/-- A weighted sum of values, rounded to either FP32 neighbour: how it is rounded is not stated, nor what an infinity gives
(log entry 55). One value of weight 1 is itself. -/
def blend (k : Nat) (vs : List (FVal × Rat)) : Nat :=
  match vs with
  | [(v, _)] => toF32 k v
  | _ =>
    if vs.any fun x => decide (x.1 = .nan) then toF32 k .nan
    else if vs.any fun x => x.1.exact?.isNone then Config.netWord k % 2 ^ 32
    else (roundRat (Config.texBit k) false (vs.foldl (fun q x => q + x.2 * x.1.exact?.getD 0) 0)).toNat

/-- One output row of RESIZE (R147). -/
def Runner.resizeRow (r : Runner) (l : LayerDesc) (n oh ow : Nat) : RowAcc :=
  thenAcc freshAcc fun v =>
  let bilinear := bitOf l.p0.toNat 0
  let align := bitOf l.p0.toNat 1
  let taps := (resizeAxis (4 * v) bilinear align l.outH l.inH oh).flatMap fun h =>
    (resizeAxis (4 * v + 2) bilinear align l.outW l.inW ow).map fun w => (h.1, w.1, h.2 * w.2)
  thenAcc (mapAcc (fun (t : Nat × Nat × Rat) => thenAcc (r.rowA l n t.1 t.2.1) fun row => pureAcc (row, t.2.2)) taps) fun rows =>
  pureAcc ((List.range l.outC).map fun c => blend (65536 * v + c) (rows.map fun x => (aVal l x.1 c, x.2)), 0)

/-- One output row of ACT or CONVERT: the values of A. -/
def Runner.copyRow (r : Runner) (l : LayerDesc) (n h w : Nat) : RowAcc :=
  thenAcc (r.rowA l n h w) fun row =>
  thenAcc freshAcc fun v =>
  pureAcc ((List.range l.outC).map fun c => toF32 (65536 * v + c) (aVal l row c), 0)

/-- The sizes of ATTENTION (R147). -/
structure Attn where
  lq    : Nat
  lk    : Nat
  d     : Nat
  heads : Nat
  causal : Bool
  mask  : Bool

def LayerDesc.attn (l : LayerDesc) : Attn :=
  { lq := fld l.p0.toNat 15 0 + 1, lk := fld l.p0.toNat 31 16 + 1, d := fld l.p1.toNat 8 0, heads := fld l.p1.toNat 31 16 + 1,
    causal := bitOf l.p3.toNat 0, mask := bitOf l.p3.toNat 1 }

/-- log2 e, scaled by 2^128. -/
def log2e : Nat := 490923683258796565746369346286093237521

/-- The exponential of the fused softmax: within 2 ulp (R168). -/
def expOf (k : Nat) : FVal → FVal
  | .nan => .nan
  | .inf neg => if neg then fZero else .inf false
  | .fin n m e r => fExp2 fpPlain k (.fin n (m * log2e) (e - 128) r)

/-- A quotient of the softmax, rounded to either FP32 neighbour. -/
def quotient (k : Nat) (a b : FVal) : Nat :=
  match a.exact?, b.exact? with
  | some x, some y => if y = 0 then Config.netWord k % 2 ^ 32 else (roundRat (Config.texBit k) false (x / y)).toNat
  | _, _ => toF32 k .nan

/-- The softmax of a row of scores in FP32, as FP32 patterns; an excluded score (none) has the probability 0. The exponentials
are those of the scores less their maximum (log entry 55). -/
def softmax (k : Nat) (xs : List (Option Nat)) : List Nat :=
  let top := match (xs.filterMap fun x => x).map f32.value with
    | [] => fZero
    | v :: vs => vs.foldl (fMax k) v
  let exps := (enumFrom 0 xs).map fun x => x.2.map fun w =>
    expOf (8192 * k + x.1) (f32.value (toF32 k (fAdd .nearest (f32.value w) (fNeg top))))
  let sum := f32.value (fpSum k (exps.filterMap fun x => x))
  (enumFrom 0 exps).map fun x => match x.2 with
    | some v => quotient (8192 * k + x.1) v sum
    | none => 0

/-- The scores of one query: Q Kᵀ × SCALE, the mask added, the causal limit applied; a query's own key is the last that the
limit lets it see (log entry 55). K lies as weight rows do (R145, R146). -/
def LayerDesc.scores (l : LayerDesc) (v q qrow mask : Nat) (ks : List Nat) : List (Option Nat) :=
  let t := l.attn
  (enumFrom 0 ks).map fun x =>
    if t.causal ∧ q < x.1 then none
    else
      let k := 65536 * v + x.1
      let y := f32Op k fMul (macs { l with inC := t.d } k [(0, qrow)] (fun _ => x.2) 0 t.d).1 l.p2.toNat
      some (if t.mask then f32Op k (fAdd .nearest) y (toF32 k (f16.value (rawElem 0x18 t.lk mask x.1))) else y)

/-- One output row of ATTENTION (R147): the probabilities, converted to the format of V, times V. -/
def Runner.attnRow (r : Runner) (l : LayerDesc) (head q : Nat) : RowAcc :=
  let t := l.attn
  let qb := rowBytes l.aFmt t.d
  let kb := weightRowBytes l.wFmt t.d l.sparse
  let vb := rowBytes l.wFmt t.lk
  thenAcc (r.read ((r.loc l.aRef).add ((head * t.lq + q) * qb)) qb) fun qrow =>
  thenAcc (mapAcc (fun i => r.read ((r.loc l.wRef).add ((head * t.lk + i) * kb)) kb) (List.range t.lk)) fun ks =>
  thenAcc (if t.mask then r.read ((r.loc l.tRef).add (q * rowBytes 0x18 t.lk)) (rowBytes 0x18 t.lk) else pureAcc 0) fun mask =>
  thenAcc (mapAcc (fun j => r.read ((r.loc l.rRef).add ((head * t.d + j) * vb)) vb) (List.range t.d)) fun vs =>
  thenAcc freshAcc fun v =>
  thenAcc freshAcc fun w =>
  let p := ofLE (outRow w l.wFmt 0 (softmax w (l.scores v q qrow mask ks))).1
  pureAcc ((enumFrom 0 vs).map fun x =>
    fpReduce (65536 * w + x.1) (isMx l.wFmt) ((List.range t.lk).map fun i =>
      { block := (0, 0, i / 32), scale := fMul (scaleOf l.wFmt p i) (scaleOf l.wFmt x.2 i),
        prod := fMul (elemVal l.wFmt (rawElem l.wFmt t.lk p i)) (elemVal l.wFmt (rawElem l.wFmt t.lk x.2 i)) }), 0)

/-! ## A layer -/

/-- The output rows of a layer: batch, row, column; for ATTENTION head, 0, query. -/
def LayerDesc.rows (l : LayerDesc) : List (Nat × Nat × Nat) :=
  if l.op = 3 then (List.range l.attn.heads).flatMap fun h => (List.range l.attn.lq).map fun q => (h, 0, q)
  else (List.range l.n).flatMap fun n => (List.range l.outH).flatMap fun h => (List.range l.outW).map fun w => (n, h, w)

/-- The channels of an output row. -/
def LayerDesc.outs (l : LayerDesc) : Nat := if l.op = 3 then l.attn.d else l.outC

/-- The place of an output row from the start of the output. -/
def LayerDesc.outAt (l : LayerDesc) (p : Nat × Nat × Nat) : Nat :=
  if l.op = 3 then (p.1 * l.attn.lq + p.2.2) * rowBytes l.oFmt l.attn.d else outOffset l p.1 p.2.1 p.2.2

/-- The accumulators of one output row. -/
def Runner.row (r : Runner) (l : LayerDesc) (ws : List Nat) (p : Nat × Nat × Nat) : RowAcc :=
  match l.op with
  | 1 => r.convRow l ws p.1 p.2.1 p.2.2
  | 2 => r.convRow l ws p.1 p.2.1 p.2.2
  | 3 => r.attnRow l p.1 p.2.2
  | 4 => r.eltRow l p.1 p.2.1 p.2.2
  | 5 => r.poolRow l p.1 p.2.1 p.2.2
  | 6 => r.resizeRow l p.1 p.2.1 p.2.2
  | _ => r.copyRow l p.1 p.2.1 p.2.2

/-- One output row computed, finished and written; answers its saturations (R148, R167, R169). -/
def Runner.doRow (r : Runner) (l : LayerDesc) (o : EpiOps) (ws : List Nat) (p : Nat × Nat × Nat) : NetAcc Nat :=
  let n := l.outs
  let width := rowBytes l.oFmt n
  let out := (r.loc l.oRef).add (l.outAt p)
  thenAcc (r.row l ws p) fun acc =>
  thenAcc (if l.residualEn ∧ l.op ≠ 7 then thenAcc (r.read ((r.loc l.rRef).add (l.outAt p)) width) fun v => pureAcc (some v)
    else pureAcc none) fun res =>
  thenAcc freshAcc fun v =>
  let xs := (enumFrom 0 acc.1).map fun x =>
    epilogue (65536 * v + x.1) o (res.map fun row => fMul (scaleOf l.oFmt row x.1) (elemVal l.oFmt (rawElem l.oFmt n row x.1))) x.1 x.2
  let (bs, sat) := outRow v l.oFmt l.outZero xs
  thenAcc (r.write out bs) fun _ => pureAcc (acc.2 + sat)

/-- A layer run to its end; answers its saturations. -/
def Runner.layer (r : Runner) (l : LayerDesc) : NetAcc Nat :=
  thenAcc (r.epiOps l) fun o =>
  thenAcc (if l.op = 1 ∨ l.op = 2 then r.weights l else pureAcc []) fun ws =>
  thenAcc (mapAcc (r.doRow l o ws) l.rows) fun sats => pureAcc (sumN sats)

/-- The output tiles of a compute layer, group by group (R140, R141). -/
def LayerDesc.tiles (l : LayerDesc) : Nat :=
  match l.op with
  | 1 => l.groups * (ceilDiv (l.n * l.outH * l.outW) 128 * ceilDiv (l.outC / l.groups) 128)
  | 2 => ceilDiv (l.n * l.outH * l.outW) 128 * ceilDiv l.outC 128
  | 3 => l.attn.heads * (ceilDiv l.attn.lq 128 * ceilDiv l.attn.d 128)
  | _ => 0

/-- The start of a layer on an array, with the commit that Sluice armed for it (R29 to R31). -/
def Array.commit (a : Array) : Array :=
  let a := { a with core := { a.core with busy := true } }
  if a.core.armed then
    { a with cfg := a.shadow, shadow := a.writes.getLast?.getD a.shadow, writes := [], core := { a.core with armed := false } }
  else a

/-! ## Tile networks: the bindings in the array's buffers (R164 to R166) -/

/-- The bytes of a pixel of a binding: a colour attachment raw, depth as FP32. -/
def PassDesc.bindBytes (d : PassDesc) (i : Nat) : Nat :=
  if i = 8 then 4 else match d.colours[i]? with
    | some a => formatBytes a.format
    | none => 0

/-- The place of a pixel of a binding in the buffers. -/
def bindPixel (b : Binding) (d : PassDesc) (i x y : Nat) : Nat := bufBind i + y * b.rowStride + x * pad16 (d.bindBytes i)

/-- A pixel of an attachment in tile memory as a binding gives it. -/
def State.tilePixel (s : State) (c : Nat) (r : PassRun) (slot : TileSlot) (i x y : Nat) : List Byte :=
  let n := r.desc.bindBytes i
  let at_ := r.sampleAt slot i x y 0
  if i = 8 then toLE 4 (depthValue 0 r.desc.depth.format (ofLE (s.getTile c at_ 4))) else s.getTile c at_ n

/-- A coordinate brought inside the render area, for a place that is `halo` before it. -/
def haloClamp (lo hi halo v : Nat) : Nat := max lo (min (v - halo) (hi - 1))

/-- The input bindings read with their halo; outside the render area the nearest pixel inside stands (R165). -/
def State.loadBindings (a c : Nat) (r : PassRun) (slot : TileSlot) (n : Net) (s : State) : State :=
  let h := r.desc.halo
  let (ox, oy) := r.origin slot.tile
  let inputs := (enumFrom 0 n.binds).filter fun b => !b.2.output && b.2.fmt != 0 && decide (b.1 ≤ 8)
  let work := inputs.flatMap fun b => (List.range (r.tileH + 2 * h)).flatMap fun y => (List.range (r.tileW + 2 * h)).map fun x => (b, x, y)
  let buf := work.foldl (fun (m : Memory) (w : (Nat × Binding) × Nat × Nat) =>
    let px := haloClamp r.desc.areaX r.desc.endX h (ox + w.2.1)
    let py := haloClamp r.desc.areaY r.desc.endY h (oy + w.2.2)
    writeBytes (bindPixel w.1.2 r.desc w.1.1 w.2.1 w.2.2) (s.tilePixel c r slot w.1.1 px py) m) []
  s.modArray a fun x => { x with buf := buf }

/-- The interior pixels of the output bindings written into tile memory (R166, step 5). -/
def State.storeBindings (a c : Nat) (r : PassRun) (slot : TileSlot) (n : Net) (s : State) : State :=
  let buf := match s.arrays[a]? with
    | some x => x.buf
    | none => []
  let (ox, oy) := r.origin slot.tile
  let outs := (enumFrom 0 n.binds).filter fun b => b.2.output && decide (b.1 < 8)
  let work := outs.flatMap fun b => (List.range r.tileH).flatMap fun y => (List.range r.tileW).map fun x => (b, x, y)
  let s := runAll (fun (w : (Nat × Binding) × Nat × Nat) (s : State) =>
    s.putTile c (r.sampleAt slot w.1.1 (ox + w.2.1) (oy + w.2.2) 0)
      (readBytes buf (bindPixel w.1.2 r.desc w.1.1 w.2.1 w.2.2) (r.desc.bindBytes w.1.1))) work s
  s.modCluster c fun cl => { cl with tiles := cl.tiles.map fun t => if t.tile = slot.tile then { t with touched := true } else t }

/-- The network of a granted tile, with the tile. -/
def State.granted (s : State) (g : Grant) : Option (PassRun × TileSlot × Net) :=
  match s.passRun? g.job, s.clusters[g.cluster]? with
  | some r, some cl =>
    match cl.tiles.find? fun t => t.tile == g.tile, s.net? g.key r.desc.tileNet with
    | some t, some n => some (r, t, n)
    | _, _ => none
  | _, _ => none

/-- The ring of an array without the entry of a tile network. -/
def ringWithoutWork (w : Work) (r : List RingEntry) : List RingEntry :=
  r.filter fun e => match e with
    | .work x _ => decide (x ≠ w)
    | _ => true

/-- A tile network's work put back before every other (R24, R166). -/
def State.readyAgain (w : Work) (s : State) : State :=
  s.modSluice fun l => { l with ready := w :: l.ready.filter fun x => decide (x ≠ w) }

/-- A fault of the tile network of a tile (R24, R289: SOURCE 2): the grant is released without a write-back, and the tile waits to
be run again from the first layer (R166). -/
def State.tileNetFault (a job tile layer : Nat) (f : FaultKind × Bool × Nat) (s : State) : State :=
  match s.job? job with
  | none => s
  | some j =>
    let group := match (s.passRun? job).bind fun r => s.net? j.key r.desc.tileNet with
      | some n => (n.layers[layer]?).elim 0 fun l => l.group
      | none => 0
    let e := Engine.array a
    let w : Work := { job := job, kind := .tileNet tile }
    let s := s.releaseGrant a .retired
    let s := s.modEngine e fun c => { c with ring := ringWithoutWork w c.ring, busy := false }
    (s.readyAgain w).report
      { kind := f.1, source := 2, write := f.2.1, atomic := false, island := engineIsland e, address := f.2.2,
        loc := layer + at' group 16, lanes := 0, job := some j.id, origin := j.origin, key := j.key, restart := false,
        stamp := s.count (engineIsland e) }

/-! ## LAYER_START -/

/-- The write of a layer's output is in flight until it is accepted (R153, R311), where its range puts it (log entry 156). -/
def Runner.outFlight (r : Runner) (d : LayerDesc) (s : State) : State :=
  let e := Requester.engine (.array r.a)
  let va := (r.loc d.oRef).at_
  match s.translate e r.k va 1 needW with
  | (.ok (p :: _), s) => s.inFlight e r.k p.tgt va true
  | (_, s) => s

/-- A layer of a NET_RUN on an array. -/
def State.startLayer (a job l : Nat) (w : Work) (k : CtxKey) (s : State) : State :=
  match s.job? job with
  | none => s
  | some j =>
    match j.run?.bind fun r => (s.net? j.key r.handle).map fun n => (r, n) with
    | none => s
    | some (run, n) =>
      match n.layers[l]? with
      | none => s
      | some d =>
        let s := s.modArray a fun x => { x.commit with layer := some w }
        let s := if run.startStamp = 0 then s.modRun job fun r => { r with startStamp := s.count 0x63 } else s
        let who : Runner := { a := a, k := k, net := n, tile := false, keep := false, binds := run.binds }
        let count := match s.arrays[a]? with
          | some x => bitOf x.cfg.toNat 0
          | none => false
        match who.layer d s with
        | (.error f, s) => s.netFault job l (engineIsland (.array a)) f.1 f.2.1 false f.2.2
        | (.ok sat, s) =>
          let s := if count then s.modRun job fun r => { r with sat := r.sat + sat } else s
          who.outFlight d s

/-- A layer of a tile network on an array that holds the grant of its tile. -/
def State.startTileLayer (a : Nat) (w : Work) (s : State) : State :=
  match s.arrays[a]? with
  | none => s
  | some x =>
    match x.grant with
    | none => s
    | some g =>
      match (if w = { job := g.job, kind := .tileNet g.tile } then s.granted g else none) with
      | none => s
      | some (r, slot, n) =>
        match n.layers[x.step]? with
        | none => s
        | some d =>
          let x := x.commit
          let keep := bitOf x.cfg.toNat 2 && decide (n.weightB ≤ 1048576)
          let held := x.kept.elim false fun h => h.job == g.job && h.net == n.handle
          let kept := if !keep then none else if held then x.kept else some { job := g.job, net := n.handle, rows := [] }
          let s := s.modArray a fun _ => { x with layer := some w, kept := kept }
          let s := if x.step = 0 then s.loadBindings a g.cluster r slot n else s
          let who : Runner := { a := a, k := g.key, net := n, tile := true, keep := keep, binds := [] }
          match who.layer d s with
          | (.error f, s) => s.tileNetFault a g.job g.tile x.step f
          | (.ok _, s) => s

/-- LAYER_START: an array takes the LAYER entry at the head of its ring (R140, R153, R166). -/
def execLayerStart (a : Nat) (s : State) : Res :=
  match s.headWork (.array a), s.arrays[a]? with
  | some (w, k), some x =>
    if x.layer.isSome then .next s
    else
      match w.kind with
      | .layer l => .next (s.startLayer a w.job l w k)
      | .tileNet _ => .next (s.startTileLayer a w)
      | _ => .next s
  | _, _ => .next s

/-! ## LAYER_COMPLETE -/

/-- LAYER_COMPLETE: a layer's writes are accepted (R153, R173). A tile network's next layer becomes the array's next entry,
which keeps the grant; with a switch waiting the grant is released instead (R24). After the last layer the outputs are written,
and the entry ends with the release of the grant (R166). -/
def execLayerComplete (a : Nat) (s : State) : Res :=
  match s.arrays[a]? with
  | none => .next s
  | some x =>
    match x.layer with
    | none => .next s
    | some w =>
      if (s.sluice.reports.any fun r => decide (r.job = some w.job)) then .next s
      else
        let e := Engine.array a
        let s := { s with flight := s.flight.filter fun (f : Access) => decide (f.who ≠ Requester.engine e) }
        match w.kind, s.job? w.job with
        | .layer l, some j =>
          let tiles := match j.run?.bind fun r => (s.net? j.key r.handle).bind fun n => n.layers[l]? with
            | some d => d.tiles
            | none => 0
          let s := s.modArray a fun x =>
            { x with layer := none, layers := x.layers + 1, core := { x.core with work := x.core.work + tiles } }
          .next (((s.retire e j.key).endUnit e j.key).layerDone w.job l e)
        | .tileNet _, some j =>
          match x.grant.bind fun g => (s.granted g).map fun t => (g, t) with
          | none => .next (s.modArray a fun x => { x with layer := none })
          | some (g, r, slot, n) =>
            let tiles := match n.layers[x.step]? with
              | some d => d.tiles
              | none => 0
            let s := s.modArray a fun x =>
              { x with layer := none, step := x.step + 1, layers := x.layers + 1, core := { x.core with work := x.core.work + tiles } }
            let last := decide (x.step + 1 = n.layers.length)
            if last then .next (s.storeBindings a g.cluster r slot n)
            else
              let s := if x.core.sw.isSome then s.releaseGrant a .retired else s
              .next (((s.retire e j.key).endUnit e j.key).readyAgain w)
        | _, _ => .next (s.modArray a fun x => { x with layer := none })

/-! ## NET_RUN_RESTART (R163) -/

/-- NET_RUN_RESTART: once its accesses are complete and its fault is recorded, a faulted run starts again from its first
group while a restart remains and its context is in service (R163, R290). -/
def execNetRunRestart (job : Nat) (s : State) : Res :=
  match s.job? job with
  | none => .next s
  | some j =>
    match j.run?.bind fun r => (s.net? j.key r.handle).map fun n => (r, n) with
    | none => .next s
    | some (r, n) =>
      let active := match s.ctx? j.key with
        | some c => decide (c.st = .active)
        | none => false
      if !r.faulted ∨ j.outcome ≠ .running ∨ !active ∨ !(s.jobIdle job) ∨ s.layersInFlight j.key ∨ n.retry ≤ r.attempt ∨
          (s.sluice.reports.any fun x => decide (x.job = some job)) ∨ !(s.procUp 1) then .next s
      else
        let s := { s with nsRestarts := satInc s.nsRestarts }
        .next ((s.modRun job fun r => { r with attempt := r.attempt + 1, faulted := false }).startGroup job n 0)

/-! ## The flume (R23, R166) -/

/-- FLUME_GRANT: the front end grants an array that Sluice assigned to the pass a retired tile of a cluster; both hold the
context. -/
def execFlumeGrant (f c tile a : Nat) (s : State) : Res :=
  match s.headWork (.array a), s.arrays[a]?, s.clusters[c]? with
  | some (w, k), some x, some cl =>
    match w.kind, cl.tiles.find? fun t => t.tile == tile && t.job == w.job with
    | .tileNet t, some slot =>
      if t ≠ tile ∨ x.grant.isSome ∨ x.layer.isSome ∨ slot.phase ≠ .retired ∨ slot.flush ∨ slot.grant.isSome ∨
          cl.core.holder ≠ some k ∨ cl.core.sw.isSome ∨ (s.fronts[f]?.bind fun e => e.job) ≠ some w.job then .next s
      else
        let g : Grant := { cluster := c, tile := tile, off := slot.off, bytes := slot.bytes, job := w.job, key := k }
        let s := s.modArray a fun x => { x with grant := some g, step := 0, buf := [] }
        .next (s.modCluster c fun cl =>
          { cl with tiles := cl.tiles.map fun t => if t.tile = tile ∧ t.job = w.job then { t with grant := some a, phase := .granted } else t })
    | _, _ => .next s
  | _, _, _ => .next s

/-- The fault of an array's flume access: that of its tile network, or of the layer that it runs; made with no grant by an array
whose entry waits for one, that of the entry's job (R23). -/
def State.flumeFault (a : Nat) (kind : FaultKind) (write : Bool) (off : Nat) (s : State) : State :=
  match s.arrays[a]? with
  | none => s
  | some x =>
    match x.grant, x.layer with
    | some g, _ => s.tileNetFault a g.job g.tile x.step (kind, write, off)
    | none, some w => match w.kind with
      | .layer l => s.netFault w.job l (engineIsland (.array a)) kind write false off
      | _ => s
    | none, none => match s.headWork (.array a) with
      | some (w, _) => match w.kind with
        | .tileNet t => s.tileNetFault a w.job t 0 (kind, write, off)
        | .layer l => s.netFault w.job l (engineIsland (.array a)) kind write false off
        | _ => s
      | none => s

/-- FLUME_ACCESS: inside the granted tile a write reaches tile memory; anything else faults (R23). A granted tile whose
cluster is held in reset answers with the reset error (R24). -/
def execFlumeAccess (a c : Nat) (write : Bool) (off len : Nat) (data : List Byte) (s : State) : Res :=
  match s.arrays[a]? with
  | none => .next s
  | some x =>
    match x.grant with
    | none => .next (s.flumeFault a .flume write off)
    | some g =>
      if g.cluster ≠ c ∨ off < g.off ∨ g.off + g.bytes < off + len then .next (s.flumeFault a .flume write off)
      else if !(s.islandUp (engineIsland (.cluster c))) ∨ (s.granted g).isNone then .next (s.flumeFault a .targetReset write off)
      else if write then .next (s.putTile c off (takePad 0 len data))
      else .next s

/-- FLUME_RELEASE: the outputs are accepted by tile memory, and the tile may be stored (R166, steps 6 and 7). -/
def execFlumeRelease (a : Nat) (s : State) : Res :=
  match s.arrays[a]? with
  | none => .next s
  | some x =>
    match x.grant.bind fun g => (s.granted g).map fun t => (g, t) with
    | none => .next s
    | some (g, _, _, n) =>
      if x.layer.isSome ∨ x.step ≠ n.layers.length then .next s
      else
        let e := Engine.array a
        .next (((s.releaseGrant a .written).retire e g.key).endUnit e g.key)

end Sys2Proof.Machine
end

