-- ==== Sys2Proof/Machine/LeveeSet.lean ====
section
/-! DEFINITION. LEVEE_SET (R245 to R251). -/

namespace Sys2Proof.Machine

/-- The windows and masks as a descriptor asks for them. -/
structure LeveeAsk where
  tenant : Nat
  setDram : Bool
  setRsv  : Bool
  setProt : Bool
  wins    : List (Nat × Nat)
  rsv     : BitVec 64
  prot    : BitVec 64
deriving DecidableEq, Repr

/-- The descriptor of R247, its parts that are not set taken from what stands. -/
def State.leveeAsk (s : State) (p : Pk) : LeveeAsk :=
  let t := p.f 0 1 0
  let f := (s.funs[t]?).getD resetFun
  let setDram := bitOf (p.f 0 2 2) 0
  let setRsv := bitOf (p.f 0 3 3) 0
  let setProt := bitOf (p.f 0 4 4) 0
  { tenant := t, setDram := setDram, setRsv := setRsv, setProt := setProt
    wins := if setDram then (List.range 4).map fun k => (p.f (8 + 8 * k) 9 0, p.f (8 + 8 * k) 26 16) else f.dramWin
    rsv := if setRsv then BitVec.ofNat 64 (p.f 0x28 63 0) else f.rsvMask
    prot := if setProt then BitVec.ofNat 64 (p.f 0x30 63 0) else s.levee.protMask }

/-- Codes and reserved fields (R247): a part that is not set has zero fields. -/
def leveeCodesOk (p : Pk) : Bool :=
  let win := fun (k : Nat) => p.f (8 + 8 * k) 63 0
  let ks := List.range 4
  decide (p.f 0 31 5 = 0) && decide (p.f 4 31 0 = 0) && decide (p.f 0x38 63 0 = 0) &&
    (if p.f 0 2 2 = 1 then ks.all fun k => decide (fld (win k) 15 10 = 0) && decide (fld (win k) 63 27 = 0) && decide (fld (win k) 26 16 ≤ 1024)
     else ks.all fun k => decide (win k = 0)) &&
    (p.f 0 3 3 == 1 || p.f 0x28 63 0 == 0) && (p.f 0 4 4 == 1 || p.f 0x30 63 0 == 0) &&
    (p.f 0 4 4 == 0 || p.f 0 1 0 == 0)

/-- The first window that leaves the usable DRAM or overlaps an earlier one (R248). -/
def badWindow (granules : Nat) (wins : List (Nat × Nat)) : Option Nat :=
  (List.range wins.length).find? fun k =>
    let w := wins.getD k (0, 0)
    decide (w.2 ≠ 0) && (decide (granules < w.1 + w.2) ||
      (wins.take k).any fun v => decide (v.2 ≠ 0) && spansMeet w.1 w.2 v.1 v.2)

/-- The lowest set bit of a mask at or above a granule. -/
def bitFrom (m : BitVec 64) (g : Nat) : Option Nat := (upFrom g (64 - g)).find? fun i => m.toNat.testBit i

/-- The DRAM granules of windows. -/
def winGranules (wins : List (Nat × Nat)) : List Nat := wins.flatMap fun w => upFrom w.1 w.2

/-- The lowest other tenant that holds a granule that is asked for (R245, R248). -/
def State.leveeClash (s : State) (a : LeveeAsk) : Option Nat :=
  (List.range 4).find? fun t =>
    decide (t ≠ a.tenant) && match s.funs[t]? with
      | none => false
      | some f =>
        (a.setDram && a.wins.any fun w => f.dramWin.any fun v => decide (w.2 ≠ 0) && decide (v.2 ≠ 0) && spansMeet w.1 w.2 v.1 v.2) ||
          (a.setRsv && (a.rsv &&& f.rsvMask) != 0)

/-- Whether the issuing context is exempt: it holds no range of target DRAM or RESERVOIR (R248). -/
def State.leveeExempt (s : State) (a : LeveeAsk) (p : Pk) : Option Ctx :=
  if a.tenant ≠ 0 then none
  else
    match p.key.bind s.ctx? with
    | some c => if c.key.fn = 0 ∧ (c.ranges.all fun e => decide (e.tgt ≠ .dram) && decide (e.tgt ≠ .reservoir)) then some c else none
    | none => none

/-- Whether a place of memory stays in the windows asked for and outside the protected mask asked for. -/
def LeveeAsk.keeps (a : LeveeAsk) (x : Target × Nat) : Bool :=
  match x.1 with
  | .dram => a.wins.any fun w => decide (w.1 * 67108864 ≤ x.2) && decide (x.2 < (w.1 + w.2) * 67108864)
  | .reservoir => a.rsv.toNat.testBit (x.2 / granuleBytes) && !(a.prot.toNat.testBit (x.2 / granuleBytes))
  | _ => false

/-- The places of a context's range table area and fault ring (R279). -/
def State.areaPlaces (s : State) (c : Ctx) : List (Target × Nat) :=
  [s.fnAddr c.key.fn c.rt 0, s.fnAddr c.key.fn c.rt 65536, s.fnAddr c.key.fn c.ring 0].filterMap id

/-- Whether a protected layer is enabled on a pipe, applied or about to be. -/
def State.protShown (s : State) : Bool := s.pipes.any fun u => u.applied.prot.enable || u.shadow.prot.enable

/-- The first check that fails: status and detail (R248). -/
def State.leveeRefusal (s : State) (a : LeveeAsk) (p : Pk) : Option (Nat × Nat) :=
  let rsv0 := if a.tenant = 0 then a.rsv else 0
  let exempt := s.leveeExempt a p
  let live := s.ctxs.filter fun c => c.key.fn == a.tenant && !(decide (some c.key = exempt.map (·.key)))
  if !(leveeCodesOk p) then some (stBadParam, 0xFFFFFFFF)
  else
    match (if a.setDram then badWindow (s.dramBytes / 67108864) a.wins else none),
      (if a.setRsv then bitFrom a.rsv s.rsvGranules else none), s.leveeClash a with
    | some k, _, _ => some (stBadParam, k)
    | none, some g, _ => some (stBadParam, 0x100 + g)
    | none, none, clash =>
      if a.tenant = 0 ∧ a.prot &&& ~~~rsv0 ≠ 0 then some (stBadParam, 0x200)
      else
        match clash with
        | some t => some (stBadParam, 0x10 + t)
        | none =>
          if !live.isEmpty then some (stNotPermitted, live.length)
          else if (exempt.elim false fun c => !((s.areaPlaces c).all a.keeps)) then some (stNotPermitted, 0xFFFFFFFD)
          else if a.setProt ∧ a.prot ≠ s.levee.protMask ∧ s.protShown then some (stNotPermitted, 0xFFFFFFFF)
          else if !(s.procUp 3) then some (stNoResource, 0xFFFFFFFE)
          else none

/-- The granules that a descriptor adds: DRAM and Reservoir (R249). -/
def State.leveeAdds (s : State) (a : LeveeAsk) : List Nat × List Nat :=
  let f := (s.funs[a.tenant]?).getD resetFun
  ((winGranules a.wins).filter fun g => !(f.dramWin.any fun w => decide (w.1 ≤ g) && decide (g < w.1 + w.2)),
    (List.range 64).filter fun g => a.rsv.toNat.testBit g && !(f.rsvMask.toNat.testBit g))

/-- Whether a descriptor changes its function's windows or masks (R249). -/
def State.leveeChanges (s : State) (a : LeveeAsk) : Bool :=
  let f := (s.funs[a.tenant]?).getD resetFun
  decide (a.wins ≠ f.dramWin) || decide (a.rsv ≠ f.rsvMask) || decide (a.prot ≠ s.levee.protMask)

/-- The descriptor applied: the added granules are zeroed, and the windows stand (R249). -/
def State.leveeApply (a : LeveeAsk) (s : State) : State :=
  let (dram, rsv) := s.leveeAdds a
  let s := runAll (fun g (s : State) => s.modMem fun m => m.zero .dram (g * 67108864) 67108864) dram s
  let s := runAll (fun g (s : State) => s.modMem fun m => m.zero .reservoir (g * granuleBytes) granuleBytes) rsv s
  (s.modFun a.tenant fun f => { f with dramWin := a.wins, rsvMask := a.rsv }).modLevee fun v => { v with protMask := a.prot }

/-- The LEVEE_SET packet (R247, R278); its reserved fields are checked with its codes (R248). -/
def leveeSetSpec : OpSpec :=
  { opcode := 0x01, assigned := true, may := mayPf0, mailbox := true, job := false, lostOk := false,
    len := fun _ => 20, reserved := fun _ => [] }

/-- LEVEE_SET at its own checks. -/
def leveeSet (p : Pk) (s : State) : Verdict :=
  let a := s.leveeAsk p
  match s.leveeRefusal a p with
  | some (st, d) => .reply st d s
  | none =>
    let (dram, rsv) := s.leveeAdds a
    let d := dram.length + at' rsv.length 16
    if s.leveeChanges a then .replyTell 0x65 stOk d a.tenant (s.leveeApply a) else .replyBy 0x65 stOk d 0 (s.leveeApply a)

def execLeveeSet (src : Src) (p : Packet) (s : State) : Res := .next (s.takePacket leveeSetSpec leveeSet src p)

end Sys2Proof.Machine
end

