-- ==== Sys2Proof/Machine/Sleep.lean ====
section
/-! DEFINITION. Sleep states (R342 to R351), the wake bus (R353), brown-outs and resets of the whole device (R354, R355), and the
rails and reset pins (R399 to R407): POWER_STATE and the commands of the always-on domain. -/

namespace Sys2Proof.Machine

/-! ## POWER_STATE (R343, R344) -/

/-- Whether a tenant has a live context (log entry 71). -/
def State.liveTenant (s : State) (fn : Nat) : Bool := s.ctxs.any fun c => c.key.fn == fn && decide (c.st ≠ .lost)

/-- The refusal bits of R343 for a target: 1 S1, 2 S3. -/
def State.sleepBits (s : State) (target : Nat) : Nat :=
  let votes := sumN ((enumFrom 0 s.funs).map fun x => if s.liveTenant x.1 && decide (x.2.vote < target) then 2 ^ x.1 else 0)
  let job := s.jobs.any fun j => target == 2 || !j.armed
  votes + at' (b2n job) 8 + at' (b2n (s.pipes.any fun p => p.applied.enable)) 9 +
    at' (b2n (s.camera.ports.any fun p => p.running)) 10 + at' (b2n (!s.levee.still)) 11 +
    at' (b2n (!s.weir.replans.isEmpty)) 12

/-- The POWER_STATE packet (R278, R282). -/
def powerStateSpec : OpSpec :=
  { opcode := 0x03, assigned := true, may := mayPf0, mailbox := false, job := false, lostOk := false, len := fun _ => 8,
    reserved := fun _ => [(0x00, 7, 2), (0x00, 31, 18), (0x04, 95, 0)] }

/-- Whether the parameters agree (R343). -/
def sleepParamsOk (target retain : Nat) (keep none : Bool) : Bool :=
  (target == 1 || target == 2) && (target == 1 || (retain == 0 && !none)) && (!none || retain == 0) && (target == 2 || !keep)

/-- The mask with which S1 is entered (R47). -/
def retainMask (retain : Nat) (none : Bool) : BitVec 8 := if none then 0 else if retain = 0 then 0xFF else BitVec.ofNat 8 retain

/-- POWER_STATE at its own checks; it is held while Weir is down (R373). When it is accepted the intake has stopped and the reply
is written (R344, steps 1 to 4). -/
def powerState (p : Pk) (s : State) : Verdict :=
  let target := p.f 0 1 0
  let retain := p.f 0 15 8
  let keep := bitOf (p.f 0 16 16) 0
  let none := bitOf (p.f 0 17 17) 0
  if !(s.procUp 2) then .hold .other
  else if !(sleepParamsOk target retain keep none) then .reply stBadParam 0 s
  else if s.emergency then .reply stEmergency s.emergencyDetail s
  else if s.sleepBits target ≠ 0 then .reply stNotPermitted (s.sleepBits target) s
  else if s.aon.wakePending.isSome then .reply stNotPermitted 0x4000 s
  else
    .replyBy 0x64 stOk 0 0 (s.modAon fun a =>
      { a with mode := if target = 1 then .enteringS1 else .enteringS3
               retain := retainMask retain none
               dramKeep := keep })

def execPowerState (src : Src) (p : Packet) (s : State) : Res := .next (s.takePacket powerStateSpec powerState src p)

/-! ## S1 (R344 to R347) -/

/-- The islands that stay powered in S1: the command fabric, the PCIe island, the firmware processors, the always-on island. -/
def staysInS1 (id : Nat) : Bool := (decide (0x60 ≤ id) && decide (id ≤ 0x65)) || id == 0x7F

/-- The working state that S1 takes from the compute die (R345). -/
def State.dropWork (s : State) : State :=
  { s with
    clusters := s.clusters.map fun c => { c.empty with core := { c.core with cache := [] } }
    fronts := s.fronts.map fun c => { c with core := { c.core with cache := [] } }
    arrays := s.arrays.map fun a => { a with kept := none, buf := [], core := { a.core with cache := [] } } }

/-- S1_POWER_DOWN: after the reply the islands power off (R344, steps 5 to 10). It waits for resets in progress. -/
def execS1PowerDown (s : State) : Res :=
  if s.aon.mode ≠ .enteringS1 ∨ !s.resets.isEmpty then .next s
  else
    let s := s.dropWork.cleanAll
    let s : State := { s with
      islands := s.islands.map fun i => if staysInS1 i.id then i else { i with off := true, counter := 0, a2 := false }
      rsv := { s.rsv with active := false, retained := s.aon.retain, lastLoss := decide (s.aon.retain ≠ 0xFF) } }
    .next (s.selfRefresh.modAon fun a => { a with mode := .s1 })

/-- The span of a retention segment of the Reservoir (R46's segments): base and bytes. -/
def State.segment (s : State) (k : Nat) : Nat × Nat :=
  let n := s.rsvGranules
  (k * 128 * n * 4096, 128 * n * 4096)

/-- The segments that a mask does not retain are zeroed (R47). -/
def State.zeroSegments (mask : BitVec 8) (s : State) : State :=
  runAll (fun k (s : State) =>
    if mask.toNat.testBit k then s
    else
      let g := s.segment k
      s.modMem fun m => m.zero .reservoir g.1 g.2) (List.range 8) s

/-- The exit from S1 (R47, R347). -/
def State.leaveS1 (src : BitVec 4) (s : State) : State :=
  let s := s.zeroSegments s.aon.retain
  let s : State := { s with
    islands := s.islands.map fun i => if staysInS1 i.id ∨ !(s.islandUsable i.id) then i else { i with off := false }
    rsv := { s.rsv with active := true, s1Pass := true, line := 0, ce := 0, raised := false, ceThis := [] }
    sc := { s.sc with slices := s.sc.slices.map fun _ => { resetSlice with ways := s.wayGroups } } }
  (s.refreshResumes.modWeir fun w => { w with scIdle := false }).modAon fun a => { a with mode := .a, wakePending := none, wakeSrc := src }

/-! ## Wake sources (R346) -/

/-- The rails are asked for (R350 steps 1 and 2). -/
def State.startWake (src : BitVec 4) (s : State) : State :=
  s.modAon fun a =>
    { a with mode := .wakingS3, wakeSrc := src, wakePending := none, ldoLp := false, corePwrReq := true, memPwrEn := true,
             railSince := s.now }

/-- A wake source: in S1 and during an entry it is held, in S3 it starts the wake; in A nothing happens. -/
def State.wakeBy (src : BitVec 4) (s : State) : State :=
  match s.aon.mode with
  | .s3 => s.startWake src
  | .enteringS1 => s.modAon fun a => { a with wakePending := some (a.wakePending.getD src) }
  | .s1 => s.modAon fun a => { a with wakePending := some (a.wakePending.getD src) }
  | .leavingS1 => s
  | .enteringS3 => s.modAon fun a => { a with wakePending := some (a.wakePending.getD src) }
  | .a => s
  | .wakingS3 => s
  | .off => s

/-- WAKE_PIN: WAKE# low for 1 µs, when PIN_WAKE_EN is 1. -/
def execWakePin (s : State) : Res := .next (if bitOf s.aon.i3cCfg.toNat 9 then s.wakeBy 3 else s)

/-! ## S3 (R348 to R351) -/

/-- The save area written at the entry (R349). -/
def State.saveArea (s : State) : SaveArea :=
  { outBank := s.rsv.outBank
    windows := s.funs.map fun f => (f.dramWin, f.rsvMask)
    protMask := s.levee.protMask
    pipes := s.pipes.map fun p =>
      [p.applied.timingH, p.applied.timingV, p.applied.sync, p.applied.pclk, p.out, p.link, p.applied.owner, p.applied.bg, p.applied.flatCfg]
    ports := s.camera.ports.map fun p => (p.cfg, p.owner, p.deskew)
    pciCfg := s.pcie.cfg
    scrubCfg := s.rsv.scrubCfg
    scMode := s.sc.mode
    patrol := s.sc.patrolCfg
    feCfg := s.fronts.map fun f => f.cfg
    nsCfg := s.arrays.map fun a => a.cfg
    weir := [s.weir.pwrLimit, s.weir.thermCfg, s.weir.cfg,
      BitVec.ofNat 32 (at' s.weir.powerEvents.toNat 24 + at' s.weir.thermEvents.toNat 16 + at' s.weir.trips.toNat 8 + s.weir.droops.toNat),
      BitVec.ofNat 32 s.weir.cap]
    islands := s.islands.map fun i => (i.id, i.point, i.mv, i.fmax, i.plan)
    hours := s.weir.hours
    since := s.weir.sinceReplan
    version := s.weir.planVersion }

/-- S3_ENTRY: every context ceases to exist, the save area is written, and all but the always-on domain powers off (R348); the system
cache is cleaned as for S1 (log entry 157). The
switch to low-power mode waits for the 32.768 kHz clock (R407). A wake source that arrived meanwhile starts the wake at once
(R351). -/
def execS3Entry (s : State) : Res :=
  if s.aon.mode ≠ .enteringS3 ∨ !s.aon.xtalStable then .next s
  else
    let v := s.saveArea
    let keep := s.aon.dramKeep
    let s := if keep then s.cleanAll.deviceOff.selfRefresh else s.cleanAll.deviceOff
    let s := s.modMem fun m =>
      { m with rsv := [], rsvUe := [], dram := if keep then m.dram else [], dramUe := if keep then m.dramUe else [] }
    let s := s.modAon fun a =>
      { a with mode := .s3, save := some v, saveValid := true, ldoLp := true, corePwrReq := false, memPwrEn := keep, thermN := true }
    .next (match s.aon.wakePending with
      | some src => s.startWake src
      | none => s)

/-- A pipe with the fields that the save area kept; it is disabled. -/
def restorePipe (ws : List Word) (p : Pipe) : Pipe :=
  let w (k : Nat) : Word := ws.getD k 0
  let c : PipeCfg := { resetPipeCfg with
    timingH := w 0, timingV := w 1, sync := w 2, pclk := w 3, owner := w 6, bg := w 7, flatCfg := w 8 }
  { resetPipe with shadow := c, applied := c, out := w 4, link := w 5, hpd := p.hpd }

/-- A receiver with the fields that the save area kept; it is stopped. -/
def restorePort (x : Word × Word × Word) : Port := { resetPort with cfg := x.1, owner := x.2.1, deskew := x.2.2 }

/-- An island with what the save area kept of it. -/
def SaveArea.island (v : SaveArea) (i : Island) : Island :=
  match v.islands.find? fun x => x.1 == i.id with
  | some (_, point, mv, fmax, plan) => { i with point := point, mv := mv, fmax := fmax, plan := plan }
  | none => i

/-- The registers of the save area restored (R350 step 4). -/
def State.restore (v : SaveArea) (s : State) : State :=
  let w (k : Nat) : Nat := (v.weir.getD k 0).toNat
  { s with
    rsv := { s.rsv with outBank := v.outBank, scrubCfg := v.scrubCfg }
    funs := (List.zip v.windows s.funs).map fun x => { x.2 with dramWin := x.1.1, rsvMask := x.1.2 }
    levee := { s.levee with protMask := v.protMask }
    pipes := (List.zip v.pipes s.pipes).map fun x => restorePipe x.1 x.2
    camera := { s.camera with ports := v.ports.map restorePort }
    pcie := { s.pcie with cfg := v.pciCfg }
    sc := { s.sc with mode := v.scMode, patrolCfg := v.patrol }
    fronts := (List.zip v.feCfg s.fronts).map fun x => { x.2 with cfg := x.1, shadow := x.1 }
    arrays := (List.zip v.nsCfg s.arrays).map fun x => { x.2 with cfg := x.1, shadow := x.1 }
    islands := s.islands.map v.island
    weir := { s.weir with
      pwrLimit := BitVec.ofNat 32 (w 0), thermCfg := BitVec.ofNat 32 (w 1), cfg := BitVec.ofNat 32 (w 2),
      powerEvents := BitVec.ofNat 8 (fld (w 3) 31 24), thermEvents := BitVec.ofNat 8 (fld (w 3) 23 16),
      trips := BitVec.ofNat 8 (fld (w 3) 15 8), droops := BitVec.ofNat 8 (fld (w 3) 7 0), cap := w 4,
      hours := v.hours, sinceReplan := v.since, planVersion := v.version } }

/-- A cold boot is to follow with a cause; the save area goes, and what the power kept of the rest (R355). -/
def State.coldStart (cause : BitVec 4) (s : State) : State :=
  s.deviceOff.bootNext.modAon fun a =>
    { a with cause := cause, save := none, saveValid := false, ldoLp := false, corePwrReq := true, memPwrEn := true, thermN := true,
             railSince := s.now }

/-- The wake from S3 once the rails are good (R350, steps 3 to 8). -/
def State.wakeUp (crcOk : Bool) (s : State) : State :=
  match s.aon.save with
  | none => s.coldStart 5
  | some v =>
    if !crcOk then s.coldStart 5
    else if (s.firstFail (s.levee.slot s.levee.activeSlot) bootOrder).isSome then
      (s.coldStart 4).modLevee fun l => { l with wakeFail := true }
    else
      let s := s.deviceOff.restore v
      let s : State := { s with procs := loadedProcs (s.levee.slot s.levee.activeSlot) }
      let s := (s.bootIslands.marginFlags).modAon fun a =>
        { a with mode := .a, cause := 4, save := none, saveValid := false, s3Wakes := satInc a.s3Wakes,
                 lpPeakMa := BitVec.ofNat 8 (Config.drawMa s.fv) }
      { s with fv := s.fv + 1 }.functionsReady

/-- S3_WAKE: the wake that a source began goes on when the rails are good and the system clock runs. -/
def execS3Wake (src : BitVec 4) (crcOk : Bool) (s : State) : Res :=
  let a := s.aon
  .next (if a.mode = .wakingS3 ∧ a.wakeSrc = src ∧ a.corePgood ∧ a.sysclk then s.wakeUp crcOk else s)

/-- The wait for the rails in microseconds (R358): settings outside 1 to 1,000 ms act as the nearer limit. -/
def Aon.railWait (a : Aon) : Nat := 1000 * max 1 (min 1000 (fld a.s3Cfg.toNat 15 0))

/-- RAIL_WAIT_TIMEOUT: the rails did not come up; the device is in S3 again (R351). -/
def execRailWaitTimeout (s : State) : Res :=
  let a := s.aon
  if a.mode ≠ .wakingS3 ∨ a.corePgood ∨ s.now < a.railSince + a.railWait then .next s
  else .next (s.modAon fun a =>
    { a with mode := .s3, railTimeout := true, corePwrReq := false, memPwrEn := a.dramKeep, ldoLp := true })

/-! ## The wake bus (R353) -/

/-- Whether the target answers on the bus: in A, in S1 and while the device wakes. -/
def State.busAnswers (s : State) : Bool :=
  match s.aon.mode with
  | .a => true
  | .enteringS1 => true
  | .s1 => true
  | .leavingS1 => true
  | .wakingS3 => true
  | .enteringS3 => false
  | .s3 => false
  | .off => false

/-- An answer on the bus: acknowledged or not, with data. -/
def State.busAnswer (ack : Bool) (data : List Byte) (s : State) : State := s.modAon fun a => { a with i3cAck := ack, i3cData := data }

/-- A message on the bus that is acknowledged with data while the target answers. -/
def State.busMessage (data : List Byte) (s : State) : State := s.busAnswer s.busAnswers (if s.busAnswers then data else [])

/-- I3C_ADDRESS_MATCH: answered; in S3 not acknowledged, and the wake starts when BUS_WAKE_EN is 1 (R346, R353). -/
def execI3cAddressMatch (i2c : Bool) (s : State) : Res :=
  let s := s.modAon fun a => { a with i2c := i2c }
  if s.busAnswers then .next (s.busAnswer true [])
  else
    let s := s.busAnswer false []
    .next (match s.aon.mode with
      | .s3 => if bitOf s.aon.i3cCfg.toNat 8 then s.wakeBy (if i2c then 2 else 1) else s
      | .enteringS3 => if bitOf s.aon.i3cCfg.toNat 8 then s.wakeBy (if i2c then 2 else 1) else s
      | _ => s)

/-- WAKE: private write of 0x01: it starts the exit from S1 and has no effect in A (R353). -/
def execWake (s : State) : Res :=
  let t := s.busMessage []
  .next (if s.busAnswers ∧ s.aon.mode ≠ .a ∧ bitOf s.aon.i3cCfg.toNat 8 then t.wakeBy (if s.aon.i2c then 2 else 1) else t)

/-- The state word of a private read (R353). -/
def State.stateWord (s : State) : Nat :=
  let st := match s.aon.mode with
    | .a => 0
    | .s1 => 1
    | .enteringS1 => 2
    | .leavingS1 => 2
    | .wakingS3 => 3
    | _ => 0
  st + at' s.aon.cause.toNat 4 + at' (b2n s.weir.powerEmerg) 8 + at' (b2n s.weir.thermEmerg) 9 + at' (b2n s.weir.trip) 10

/-- PRIVATE_READ. -/
def execPrivateRead (s : State) : Res := .next (s.busMessage (toLE 4 s.stateWord))

/-- The bytes of a direct CCC's answer: their number is that of the bus's specification, their values are not given (log entry
70). -/
def cccBytes (ccc n : Nat) : List Byte := (List.range n).map (Config.cccByte ccc)

def execGetpid (s : State) : Res := .next (s.busMessage (cccBytes 0x8D 6))

def execGetbcr (s : State) : Res := .next (s.busMessage (cccBytes 0x8E 1))

def execGetdcr (s : State) : Res := .next (s.busMessage (cccBytes 0x8F 1))

def execGetstatus (s : State) : Res := .next (s.busMessage (cccBytes 0x90 2))

/-- Broadcast CCCs are accepted without effect. -/
def execRstdaa (s : State) : Res := .next (s.busMessage [])

def execEnec (s : State) : Res := .next (s.busMessage [])

def execDisec (s : State) : Res := .next (s.busMessage [])

/-! ## Resets of the whole device (R354, R355, R400 to R403) -/

/-- The always-on domain at its reset values, with the pins and clocks as they are (R355). -/
def Aon.powerOn (a : Aon) : Aon :=
  { resetAon with aonRst := a.aonRst, perst := a.perst, corePgood := a.corePgood, xtalStable := a.xtalStable, sysclk := a.sysclk,
                  vaon := a.vaon }

/-- The always-on domain reset with a cause, its island's counter at 0 (R15); the rails are asked for when a boot follows at
once. -/
def State.aonReset (cause : BitVec 4) (boots : Bool) (s : State) : State :=
  (s.deviceOff.bootNext.modIsland 0x7F fun i => { i with counter := 0 }).modAon fun a =>
    { a.powerOn with cause := cause, bootPending := boots, corePwrReq := boots, memPwrEn := boots, railSince := s.now }

/-- BROWN_OUT: the always-on domain is reset and a cold boot follows at once (R354). -/
def execBrownOut (s : State) : Res := .next (if s.aon.vaon ∧ !s.aon.aonRst then s.aonReset 2 true else s)

/-- PERST: asserted, every island but the always-on one is in reset, and the always-on domain keeps AON_BOOT_CAUSE and its
configuration registers; released, the boot may follow (R346, R355). -/
def execPerst (level : Bool) (s : State) : Res :=
  if !level then .next (s.modAon fun a => { a with perst := false })
  else if !s.aon.vaon ∨ s.aon.aonRst then .next (s.modAon fun a => { a with perst := true })
  else
    .next ((s.coldStart 3).modAon fun a =>
      { a with perst := true, railTimeout := false, s3Wakes := 0, lpPeakMa := 0, liveWrite := false })

/-- AON_RESET: AON_RST_N low for 10 µs: the whole device is reset, and the rails' outputs drive low (R355, R403). -/
def execAonReset (s : State) : Res :=
  .next (if s.aon.vaon then (s.aonReset 1 false).modAon fun a => { a with aonRst := true } else s)

/-- AON_RST_RELEASE: the always-on domain starts and asks for the rails (R400, steps 2 and 3). -/
def execAonRstRelease (s : State) : Res :=
  if !s.aon.vaon ∨ !s.aon.aonRst then .next s
  else .next (s.modAon fun a =>
    { a with aonRst := false, corePwrReq := true, memPwrEn := true, bootPending := true, railSince := s.now })

/-- CORE_PGOOD: rising it lets a boot or a wake go on; falling while the rails are asked for, it holds every island in reset, and
a cold boot follows when it rises again (R402). -/
def execCorePgood (level : Bool) (s : State) : Res :=
  let s := s.modAon fun a => { a with corePgood := level }
  .next (if !level ∧ s.aon.corePwrReq ∧ s.aon.vaon ∧ !s.aon.aonRst then s.coldStart 0 else s)

/-- PGOOD_WAIT_TIMEOUT: at a power-on the rails did not come up: the outputs are low for 100 ms and are raised again (R400 step
5). -/
def execPgoodWaitTimeout (s : State) : Res :=
  let a := s.aon
  if a.mode ≠ .off ∨ !a.corePwrReq ∨ a.corePgood ∨ s.now < a.railSince + a.railWait then .next s
  else
    let s := s.advance (s.now + 100000)
    .next (s.modAon fun a => { a with railSince := s.now })

/-- VAON_LOSS: the always-on supply falls below its limit: the next start is a first power-on (R402). -/
def execVaonLoss (s : State) : Res :=
  .next ((s.aonReset 0 false).modAon fun a =>
    { a with vaon := false, aonRst := true, perst := true, xtalStable := false })

/-- VAON_RETURN: the supply is in range again, with AON_RST_N low (R400 step 1). -/
def execVaonReturn (s : State) : Res := .next (s.modAon fun a => { a with vaon := true })

/-- XTAL32K_STABLE (R407). -/
def execXtal32kStable (s : State) : Res := .next (if s.aon.vaon then s.modAon fun a => { a with xtalStable := true } else s)

/-- SYSCLK_IN_DETECTED (R400). -/
def execSysclkInDetected (s : State) : Res := .next (s.modAon fun a => { a with sysclk := true })

end Sys2Proof.Machine
end

