-- ==== Sys2Proof/Machine/SysCache.lean ====
section
/-! DEFINITION. The system cache: slices, the streaming-store detector, prefetch, misses, eviction, atomics, array errors and
way power-down (R49 to R61, R332). A line's metadata is kept; its data is the coherent content that Mem holds (log entry 6). -/

namespace Sys2Proof.Machine

/-- The set of a line within its slice (R49). -/
def setOf (line : Nat) : Nat := line / 16 % 1024

/-- A line of a slice. -/
def Slice.find (x : Slice) (t : Target) (line : Nat) : Option ScLine := x.lines.find? fun l => decide (l.tgt = t) && l.line == line

/-- The slice without a line. -/
def Slice.drop (t : Target) (line : Nat) (x : Slice) : Slice :=
  { x with lines := x.lines.filter fun l => !(decide (l.tgt = t) && l.line == line) }

/-- A line of a slice changed. -/
def Slice.modLine (t : Target) (line : Nat) (f : ScLine → ScLine) (x : Slice) : Slice :=
  { x with lines := x.lines.map fun l => if l.tgt = t ∧ l.line = line then f l else l }

/-- Whether a line is under eviction (R56). -/
def Slice.leaving (x : Slice) (t : Target) (line : Nat) : Bool := x.evicting.any fun e => decide (e.tgt = t) && e.line == line

/-- Whether the victim cache holds a line (R57). -/
def Slice.inVictims (x : Slice) (t : Target) (line : Nat) : Bool := x.victims.any fun l => decide (l.tgt = t) && l.line == line

/-- Whether the coalescing buffer holds a line (R53). -/
def Slice.coalesces (x : Slice) (t : Target) (line : Nat) : Bool := x.coal.any fun c => decide (c.tgt = t) && c.line == line

/-- The outstanding miss of a line. -/
def Slice.missOf (x : Slice) (t : Target) (line : Nat) : Option Miss := x.misses.find? fun m => decide (m.tgt = t) && m.line == line

/-- A line that a slice holds somewhere: of one address there is never a second copy (R50, R54). -/
def Slice.present (x : Slice) (t : Target) (line : Nat) : Bool :=
  (x.find t line).isSome || x.inVictims t line || x.coalesces t line || x.leaving t line || (x.missOf t line).isSome

/-- Whether a stream has its one outstanding miss (R55). -/
def Slice.missing (x : Slice) (st : Stream) : Bool := x.misses.any fun m => decide (m.stream = st) && m.request.isSome

/-- The bytes of a line that a span covers, as far as the line's end. -/
def lineMask (a n : Nat) : BitVec 128 := spanMask (a / 128) a (min n (128 - a % 128))

/-- Whether a line holds every byte of a span valid (R51). -/
def ScLine.holds (l : ScLine) (a n : Nat) : Bool := l.valid &&& lineMask a n == lineMask a n

/-- The stream and the line of a request. -/
def waitingFor (c : Instr) : Option (Stream × Target × Nat) :=
  match c with
  | .systemCacheAccess st t a _ _ _ _ => some (st, t, a.addr / 128)
  | .sliceStore st t addr _ _ _ _ => some (st, t, addr / 128)
  | .sliceAtomic st t addr _ _ _ _ _ _ => some (st, t, addr / 128)
  | _ => none

/-- Whether a stream has a request that waits at the slice: what it sends later stands behind that request (R55; log
entry 108). -/
def Slice.queued (x : Slice) (st : Stream) : Bool := x.waiting.any fun c => match waitingFor c with
  | some (u, _, _) => decide (u = st)
  | none => false

/-- Whether an atomic of a HOST line that leaves nothing behind holds the line against other requests (R59). -/
def Slice.held (x : Slice) (t : Target) (line : Nat) : Bool := x.misses.any fun m =>
  decide (m.tgt = t) && m.line == line && !m.alloc && match m.request with
    | some (.sliceAtomic _ _ _ _ _ _ _ _ _) => true
    | _ => false

/-- Whether a request has to wait before it is looked at: its line is under eviction (R56) or held (R59), or its stream stands
at the slice (R53, R55). -/
def Slice.blocks (x : Slice) (st : Stream) (t : Target) (line : Nat) : Bool :=
  x.leaving t line || x.held t line || x.stalled.contains st || x.queued st

/-! ## Eviction (R56, R57, R61) -/

/-- The ways into which a slice may allocate: those of powered groups, none of a group that is being powered down (R61). -/
def Slice.openWays (x : Slice) : List Nat :=
  (List.range 16).filter fun w => x.ways.toNat.testBit (w / 4) && decide (x.cleaning ≠ some (w / 4))

/-- The line that gives way in the set of a line, among those that no outstanding fill reserves: one of lowest replacement
priority first (R54, R305). Which of several it is, the command says. -/
def Slice.victimLine (x : Slice) (line pick : Nat) : Option ScLine :=
  let there := x.lines.filter fun l => setOf l.line == setOf line && x.openWays.contains l.way && (x.missOf l.tgt l.line).isNone
  let low := there.filter (·.low)
  let pool := if low.isEmpty then there else low
  pool[pick % max 1 pool.length]?

/-- A way that is free in the set of a line. A dirty victim's way is not, before its write-back is accepted (R56). -/
def Slice.freeWay (x : Slice) (line : Nat) : Option Nat :=
  x.openWays.find? fun w => !((x.lines ++ x.evicting).any fun l => setOf l.line == setOf line && l.way == w)

/-- Whether a victim of the set of a line has its write-back under way. -/
def Slice.freeing (x : Slice) (line : Nat) : Bool := x.evicting.any fun l => setOf l.line == setOf line && decide (l.way < 16)

/-- The way of a line whose place in the set is given up already, while its write-back is under way. -/
def noWay : Nat := 16

/-- A line gives up its place. In native mode a dirty one goes to its write-back and keeps its way until that is accepted; in
forerunner-compatible mode it enters the victim cache of 16 lines, and the line displaced there, the one that entered first
(log entry 109), is written back when dirty (R56, R57). -/
def Slice.evict (compat : Bool) (l : ScLine) (x : Slice) : Slice :=
  let x := x.drop l.tgt l.line
  if compat then
    match x.victims ++ [l] with
    | old :: rest =>
      if 16 < rest.length + 1 then
        { x with victims := rest, evicting := if old.dirty then x.evicting ++ [{ old with way := noWay }] else x.evicting }
      else { x with victims := old :: rest }
    | [] => x
  else if l.dirty then { x with evicting := x.evicting ++ [l] }
  else x

/-- A place for a line in its set: a free way; else that of the line that gives way, at once when it needs no write-back first.
None while a write-back is awaited, which this begins when none is under way in the set, or while every way is reserved. -/
def Slice.makeRoom (compat : Bool) (line pick : Nat) (x : Slice) : Option Nat × Slice :=
  match x.freeWay line with
  | some w => (some w, x)
  | none =>
    match x.victimLine line pick with
    | none => (none, x)
    | some l =>
      if compat || !l.dirty then (some l.way, x.evict compat l)
      else (none, if x.freeing line then x else x.evict compat l)

/-- A recall from the victim cache: the line goes back into its set, and the line that it displaces there takes its place
(R57). Lines that the victim cache still holds in native mode are recalled as well (log entry 110). -/
def Slice.recall (t : Target) (line pick : Nat) (x : Slice) : Slice :=
  match x.victims.find? fun l => decide (l.tgt = t) && l.line == line with
  | none => x
  | some v =>
    match x.freeWay line with
    | some w => { x with victims := dropFirst (fun l => decide (l = v)) x.victims, lines := x.lines ++ [{ v with way := w }] }
    | none =>
      match x.victimLine line pick with
      | none => x
      | some l =>
        let y := x.drop l.tgt l.line
        { y with victims := x.victims.map fun u => if u = v then l else u, lines := y.lines ++ [{ v with way := l.way }] }

/-- SC_MODE.COMPAT, SSD_EN and PF_EN (R70). -/
def State.scCompat (s : State) : Bool := bitOf s.sc.mode.toNat 0
def State.scDetects (s : State) : Bool := bitOf s.sc.mode.toNat 1
def State.scPrefetches (s : State) : Bool := bitOf s.sc.mode.toNat 2

/-! ## Misses and prefetch (R54, R55) -/

/-- A line as a fill or a store reserves it: no byte of it is valid yet. -/
def ScLine.empty (t : Target) (line way : Nat) (low : Bool) : ScLine := ⟨t, line, way, false, 0, false, 0, low⟩

/-- A miss entry, and the line that the fill is to bring in at a way that is free. -/
def Slice.reserve (m : Miss) (way : Option Nat) (x : Slice) : Slice :=
  { x with
    misses := x.misses ++ [m]
    lines := match way with
      | some w => x.lines ++ [ScLine.empty m.tgt m.line w m.low]
      | none => x.lines }

/-- The prefetch entry of a stream after a demand miss, most recently used first (R54). A new entry has no stride yet. -/
def Slice.noteMiss (st : Stream) (line : Nat) (x : Slice) : PfEntry × Slice :=
  let a := 128 * line
  let e := match x.pf.find? fun e => decide (e.stream = st) with
    | some e =>
      let d : Int := Int.ofNat a - Int.ofNat e.last
      if d = e.stride ∧ d ≠ 0 ∧ d.natAbs ≤ 0x10000 then { e with conf := min (e.conf + 1) 2, last := a }
      else { e with stride := d, conf := 0, last := a }
    | none => { stream := st, stride := 0, conf := 0, last := a }
  (e, { x with pf := (e :: x.pf.filter fun e => decide (e.stream ≠ st)).take 8 })

/-- One prefetch: of a line inside the 64 KiB of the miss that is not present, while more than 8 miss entries are free. It is
dropped when its set has no place for it at once (log entry 111). -/
def Slice.prefetchLine (compat : Bool) (st : Stream) (t : Target) (line : Nat) (p : Int) (pick : Nat) (x : Slice) : Slice :=
  let l := p.toNat / 128
  if p < 0 ∨ p.toNat / 65536 ≠ 128 * line / 65536 ∨ x.present t l ∨ 32 - x.misses.length ≤ 8 then x
  else match x.makeRoom compat l pick with
    | (some w, y) => y.reserve ⟨st, t, l, true, true, none⟩ (some w)
    | (none, _) => x

/-- The prefetches that a demand miss starts: up to four lines on at the stream's stride (R54). -/
def Slice.prefetch (compat : Bool) (st : Stream) (t : Target) (line : Nat) (e : PfEntry) (pick : Nat) (x : Slice) : Slice :=
  if e.conf = 0 then x
  else runAll (fun (k : Nat) (x : Slice) =>
    x.prefetchLine compat st t line (Int.ofNat (128 * line) + Int.ofNat k * e.stride) (pick + k)) [1, 2, 3, 4] x

/-- A demand miss begins: its entry with the request that it serves, the line that it allocates, and the prefetches of a
cacheable line (R54, R55). A store that allocates reads nothing and is no demand miss (log entry 112). -/
def Slice.demand (compat pf : Bool) (m : Miss) (way : Option Nat) (pick : Nat) (x : Slice) : Slice :=
  let x := x.reserve m way
  if pf then
    let (e, x) := x.noteMiss m.stream m.line
    x.prefetch compat m.stream m.tgt m.line e pick
  else x

/-! ## Errors of the array (R60) -/

/-- SC_ARRAY_ECC_COUNT counted. -/
def State.countArray (ue lost : Bool) (s : State) : State :=
  s.modSc fun c =>
    let n := c.array.toNat
    let ce : BitVec 16 := BitVec.ofNat 16 (fld n 15 0)
    let un : BitVec 15 := BitVec.ofNat 15 (fld n 30 16)
    let (ce, un) := if ue then (ce, satInc un) else (satInc ce, un)
    { c with array := BitVec.ofNat 32 (at' (b2n (bitOf n 31 || lost)) 31 + at' un.toNat 16 + ce.toNat) }

/-- The valid bytes of a lost dirty line as memory now holds them: free values (log entry 74). -/
def State.loseLine (l : ScLine) (s : State) : State :=
  let (v, s) := s.fresh
  let a := 128 * l.line
  let bs := (enumFrom 0 (s.rd l.tgt a 128)).map fun x => if l.valid.toNat.testBit x.1 then Config.lostByte v x.1 else x.2
  { s with mem := s.mem.set l.tgt (writeBytes a bs (s.mem.of l.tgt)) }

/-- The words of which a line holds a valid byte. -/
def ScLine.words (l : ScLine) : List Nat :=
  ((List.range 16).filter fun i => fld l.valid.toNat (8 * i + 7) (8 * i) != 0).map fun i => 128 * l.line + 8 * i

/-- What goes back to memory of a dirty line with an uncorrectable error: poison with inline ECC on, which DRAM keeps and the link
carries to the host; else its uncorrected data, with DATA_LOST set (R60). -/
def State.writeLost (l : ScLine) (s : State) : State :=
  let s := s.countArray true (!s.part.inlineEcc)
  if !s.part.inlineEcc then s.loseLine l
  else if l.tgt = .dram then s.modMem fun m => { m with dramUe := l.words.foldl (fun u w => addWord w u) m.dramUe }
  else
    let s := s.loseLine l
    s.say (.write (l.line / 2 ^ 57) (128 * l.line % 2 ^ 64) (s.rd .host (128 * l.line) 128) true)

/-- What an error makes of the data of a line whose parity or code fails: a dirty one whose tag fails is lost (log entry 74). -/
def State.spoil (l : ScLine) (err : ArrayError) (s : State) : State :=
  match err with
  | .none => s
  | .correctable => s.countArray false false
  | .tagParity =>
    let s := s.countArray true false
    if l.dirty then s.loseLine l else s
  | .uncorrectable => if l.dirty then s.writeLost l else s.countArray true false

/-- What an error of the array makes of a line that a request reads: a clean one is invalidated, to be fetched again; a dirty one
with an uncorrectable error goes to its write-back, and the reader faults. The answer says whether it does (R60). -/
def State.arrayError (i : Nat) (l : ScLine) (err : ArrayError) (s : State) : Bool × State :=
  let lost := decide (err = .uncorrectable) && l.dirty
  let s := s.spoil l err
  let s := if err = .tagParity ∨ err = .uncorrectable then s.modSlice i fun x =>
      let x := x.drop l.tgt l.line
      if lost then { x with evicting := x.evicting ++ [{ l with dirty := false }] } else x
    else s
  (lost, s)

/-! ## Requests at a slice -/

/-- A request that is looked up: DRAM and HOST only; PEER only passes, and RESERVOIR never comes here (R50). -/
def looksUp (t : Target) : Bool := decide (t = .dram) || decide (t = .host)

/-- A request waits at its slice (R53, R55, R56, R59). -/
def State.waitAt (i : Nat) (c : Instr) (s : State) : State := s.modSlice i fun x => { x with waiting := x.waiting ++ [c] }

/-- The line of a request in its slice. -/
def State.scLine (s : State) (i : Nat) (t : Target) (line : Nat) : Option ScLine := (s.sc.slices[i]?).bind fun x => x.find t line

/-- A request that misses: it waits while its stream has a miss outstanding, its line is being filled, no miss entry is free
or its set has no place for the line; else its miss begins (R55, R56). -/
def State.misses (i : Nat) (c : Instr) (st : Stream) (t : Target) (line : Nat) (alloc hint cacheable : Bool) (pick : Nat)
    (s : State) : State :=
  match s.sc.slices[i]? with
  | none => s
  | some x =>
    let m : Miss := ⟨st, t, line, alloc, hint, some c⟩
    let begin' := fun (w : Option Nat) (y : Slice) =>
      let y := y.demand s.scCompat (s.scPrefetches && cacheable) m w pick
      runAll (fun (m : Miss) (s : State) => s.askAt m.tgt (128 * m.line) 128) (y.misses.drop x.misses.length) (s.modSlice i fun _ => y)
    if (x.missOf t line).isSome ∨ x.missing st ∨ 32 ≤ x.misses.length ∨ x.inVictims t line then s.waitAt i c
    else if !alloc ∨ (x.find t line).isSome then begin' none x
    else match x.makeRoom s.scCompat line pick with
      | (some w, y) => begin' (some w) y
      | (none, y) => (s.modSlice i fun _ => y).waitAt i c

/-- How many bytes of a span lie in its line. -/
def spanBytes (a : Span) : Nat := min a.len (128 - a.addr % 128)

/-- SYSTEM_CACHE_ACCESS: a read within one line (R50, R51, R53, R55 to R57). A PEER read passes, to be answered by
SLICE_FILL_COMPLETE. -/
def State.cacheRead (st : Stream) (t : Target) (a : Span) (cacheable hint : Bool) (pick : Nat) (err : ArrayError)
    (s : State) : State :=
  let addr := a.addr
  let i := sliceOf addr
  let line := addr / 128
  let n := spanBytes a
  let c : Instr := .systemCacheAccess st t a cacheable hint pick .none
  let failed := fun (k : FaultKind) (s : State) => s.accessFailed st.who k false false t addr
  if !(s.islandThere (0x48 + i / 4)) then failed .targetReset s
  else
    match s.sc.slices[i]? with
    | none => s
    | some x =>
      if x.blocks st t line then s.waitAt i (.systemCacheAccess st t a cacheable hint pick err)
      else if t = .peer then
        if s.pcie.linkUp then (s.modSlice i fun x => { x with passing := x.passing ++ [(st, addr, n)] }).ask addr n else failed .linkError s
      else if !(looksUp t) then s
      else if x.coalesces t line then s.answer st.who (s.rd t addr n) false
      else
        let s := s.modSlice i (Slice.recall t line pick)
        let (bad, s) := match s.scLine i t line with
          | some l => s.arrayError i l err
          | none => (false, s)
        let down := decide (t = .host) && !s.pcie.linkUp
        if bad then failed .poison s
        else
          match s.scLine i t line with
          | some l =>
            if l.poison then failed .poison (s.answer st.who (s.rd t addr n) true)
            else if l.holds addr n then s.answer st.who (s.rd t addr n) false
            else if down then failed .linkError s
            else s.misses i c st t line true hint cacheable pick
          | none => if down then failed .linkError s else s.misses i c st t line cacheable hint cacheable pick

/-- The detector's tracker of a stream after a store (R52), and the count that decides. -/
def Slice.track (st : Stream) (addr : Nat) (full : Bool) (x : Slice) : Nat × Slice :=
  let old := match x.trackers.find? fun k => decide (k.stream = st) with
    | some k => k
    | none => { stream := st, count := 0, last := 0 }
  let n := if full ∧ 0 < old.count ∧ old.last < addr ∧ addr - old.last ≤ 0x10000 then min (old.count + 1) 17
    else if full then 1 else 0
  (n, { x with trackers := ({ stream := st, count := n, last := addr } :: x.trackers.filter fun k => decide (k.stream ≠ st)).take 32 })

/-- The bytes of a store: they reach the line that is present, the coalescing buffer or memory, of which the model holds the one
content (R50 to R53; log entry 6). -/
def State.storeBytes (t : Target) (addr : Nat) (bs : List Byte) (s : State) : State :=
  (s.wr' t addr bs).spanWritten t addr bs.length

/-- SLICE_STORE: a store is written in place, around, or into a new line, which holds no other byte (R50 to R53). -/
def State.cacheStore (st : Stream) (t : Target) (addr : Nat) (data : List Byte) (cacheable hint : Bool) (pick : Nat)
    (s : State) : State :=
  let i := sliceOf addr
  let line := addr / 128
  let bs := data.take (128 - addr % 128)
  let c : Instr := .sliceStore st t addr data cacheable hint pick
  let failed := fun (k : FaultKind) => s.accessFailed st.who k true false t addr
  if !(s.islandThere (0x48 + i / 4)) then failed .targetReset
  else
    match s.sc.slices[i]? with
    | none => s
    | some x =>
      if x.blocks st t line then s.waitAt i c
      else if t = .peer then if s.pcie.linkUp then s.storeBytes t addr bs else failed .linkError
      else if !(looksUp t) then s
      else
        let x := x.recall t line pick
        let (k, y) := if s.scDetects then x.track st addr (decide (bs.length = 128)) else (0, x)
        let done := fun (y : Slice) => (s.modSlice i fun _ => y).storeBytes t addr bs
        if x.inVictims t line then s.waitAt i c
        else if x.coalesces t line ∨ (x.find t line).isSome then done y
        else if !cacheable then if t = .host ∧ !s.pcie.linkUp then failed .linkError else done y
        else if k = 17 then
          if x.coal.length < 8 then done { y with coal := y.coal ++ [⟨st, t, line, 0⟩] }
          else (s.modSlice i fun x => { x with stalled := x.stalled ++ [st] }).waitAt i c
        else
          match y.makeRoom s.scCompat line pick with
          | (some w, y) => done { y with lines := y.lines ++ [ScLine.empty t line w hint] }
          | (none, _) => (s.modSlice i fun _ => (x.makeRoom s.scCompat line pick).2).waitAt i c

/-- SLICE_ATOMIC (R59). A DRAM line, or a HOST line of a cacheable range, is brought into the slice, modified there and left dirty; a
HOST line of another range is read across the link, held, and written back, unless the cache holds it. -/
def State.cacheAtomic (st : Stream) (t : Target) (addr : Nat) (op : BitVec 4) (wide : Bool) (x cmp : BitVec 64)
    (cacheable : Bool) (found : AtomicFind) (s : State) : State :=
  let i := sliceOf addr
  let line := addr / 128
  let n := if wide then 8 else 4
  let pick := found.victim
  let c : Instr := .sliceAtomic st t addr op wide x cmp cacheable ⟨pick, .none⟩
  let failed := fun (k : FaultKind) (s : State) => s.accessFailed st.who k false true t addr
  if t = .peer then failed .atomicTarget s
  else if !(looksUp t) ∨ !(atomicOk op wide) then s
  else if addr % n ≠ 0 then failed .misaligned s
  else if !(s.islandThere (0x48 + i / 4)) then failed .targetReset s
  else
    match s.sc.slices[i]? with
    | none => s
    | some u =>
      if u.blocks st t line ∨ u.coalesces t line then s.waitAt i (.sliceAtomic st t addr op wide x cmp cacheable found)
      else
        let s := s.modSlice i (Slice.recall t line pick)
        let (bad, s) := match s.scLine i t line with
          | some l => s.arrayError i l found.err
          | none => (false, s)
        let there := s.scLine i t line
        let poison := match there with
          | some l => l.poison
          | none => false
        let ready := match there with
          | some l => l.holds addr n
          | none => false
        if bad || poison then failed .poison s
        else if ready then s.atomicAt st.who t addr op.toNat n x cmp
        else if t = .host ∧ !s.pcie.linkUp then failed .linkError s
        else s.misses i c st t line (decide (t = .dram) || cacheable || there.isSome) false cacheable pick

/-- A request of a slice served, or served again after a wait. -/
def State.serveSlice (c : Instr) (s : State) : State :=
  match c with
  | .systemCacheAccess st t a cacheable hint pick err => s.cacheRead st t a cacheable hint pick err
  | .sliceStore st t addr data cacheable hint pick => s.cacheStore st t addr data cacheable hint pick
  | .sliceAtomic st t addr op wide x cmp cacheable found => s.cacheAtomic st t addr op wide x cmp cacheable found
  | _ => s

def execSystemCacheAccess (st : Stream) (tgt : Target) (a : Span) (cacheable hint : Bool) (victim : Nat) (err : ArrayError)
    (s : State) : Res :=
  .next (s.cacheRead st tgt { a with addr := busPlace st.fn tgt a.addr } cacheable hint victim err)

def execSliceStore (st : Stream) (tgt : Target) (addr : Nat) (data : List Byte) (cacheable hint : Bool) (victim : Nat)
    (s : State) : Res :=
  .next (s.cacheStore st tgt (busPlace st.fn tgt addr) data cacheable hint victim)

def execSliceAtomic (st : Stream) (tgt : Target) (addr : Nat) (op : BitVec 4) (wide : Bool) (x cmp : BitVec 64) (cacheable : Bool)
    (found : AtomicFind) (s : State) : Res :=
  .next (s.cacheAtomic st tgt (busPlace st.fn tgt addr) op wide x cmp cacheable found)

/-! ## What ends a wait -/

/-- The waiting requests of a slice are looked at again, in order; one that still has to wait waits on, and its stream behind it. -/
def State.release (i : Nat) (s : State) : State :=
  match s.sc.slices[i]? with
  | none => s
  | some x => runAll State.serveSlice x.waiting (s.modSlice i fun x => { x with waiting := [] })

/-- TRACKER_IDLE_EXPIRY (R52). -/
def execTrackerIdleExpiry (slice : Nat) (st : Stream) (s : State) : Res :=
  .next (s.modSlice slice fun x => { x with trackers := x.trackers.map fun k => if k.stream = st then { k with count := 0 } else k })

/-- The request of a demand miss, once its line is there: a poisoned line faults its reader, and an atomic then changes nothing
(R59, R65). -/
def State.fillServes (c : Instr) (bad : Bool) (s : State) : State :=
  match c with
  | .systemCacheAccess st t a _ _ _ _ =>
    let s := s.answer st.who (s.rd t a.addr (spanBytes a)) bad
    if bad then s.accessFailed st.who .poison false false t a.addr else s
  | .sliceAtomic st t addr op wide x cmp _ _ =>
    if bad then s.accessFailed st.who .poison false true t addr
    else s.atomicAt st.who t addr op.toNat (if wide then 8 else 4) x cmp
  | _ => s

/-- The request of a miss whose fill failed. -/
def State.fillFails (c : Instr) (how : AccessEnd) (k : FaultKind) (s : State) : State :=
  match c with
  | .systemCacheAccess st t a _ _ _ _ => (s.logEnd st.fn how).accessFailed st.who k false false t a.addr
  | .sliceAtomic st t addr _ _ _ _ _ _ => (s.logEnd st.fn how).accessFailed st.who k false true t addr
  | _ => s

/-- A fill returns. The bytes that a store made valid meanwhile stay (R51). Poison of the memory, or of what the link brought,
poisons the line (R65); a fill that failed leaves no line that holds nothing. -/
def State.fill (i : Nat) (m : Miss) (how : AccessEnd) (s : State) : State :=
  let s := s.modSlice i fun x => { x with misses := dropFirst (fun y => decide (y = m)) x.misses }
  let failed := how ≠ .ok ∧ how ≠ .poison
  let bad := decide (how = .poison) || s.poisoned m.tgt (128 * m.line) 128
  let s := s.modSlice i fun x =>
    if failed then { x with lines := x.lines.filter fun l => !(decide (l.tgt = m.tgt) && l.line == m.line && l.valid == 0) }
    else if m.alloc then x.modLine m.tgt m.line fun l => { l with valid := BitVec.allOnes 128, poison := bad }
    else x
  match m.request, faultOf how with
  | none, _ => s
  | some c, some k => if failed then s.fillFails c how k else s.fillServes c bad
  | some c, none => s.fillServes c bad

/-- A PEER read that passed a slice is answered (R50). -/
def State.passed (i : Nat) (p : Stream × Nat × Nat) (how : AccessEnd) (s : State) : State :=
  let s := s.modSlice i fun x => { x with passing := dropFirst (fun y => decide (y = p)) x.passing }
  match faultOf how with
  | none => s.answer p.1.who (s.rd .peer p.2.1 p.2.2) false
  | some k => (s.logEnd p.1.fn how).accessFailed p.1.who k false false .peer p.2.1

/-- SLICE_FILL_COMPLETE: what a stream awaits at a slice returns: the fill of its demand miss, else its first PEER read, else its
first prefetch (log entry 113). Requests that waited go on (R55). -/
def execSliceFillComplete (slice : Nat) (st : Stream) (how : AccessEnd) (s : State) : Res :=
  match s.sc.slices[slice]? with
  | none => .next s
  | some x =>
    if s.neverEnds st.fn how then .next s else
    let mine := fun (m : Miss) => decide (m.stream = st)
    match x.misses.find? fun m => mine m && m.request.isSome, x.passing.find? fun p => decide (p.1 = st), x.misses.find? mine with
    | some m, _, _ => .next ((s.fill slice m how).release slice)
    | none, some p, _ => .next ((s.passed slice p how).release slice)
    | none, none, some m => .next ((s.fill slice m how).release slice)
    | none, none, none => .next s

/-- WRITE_AROUND_DRAIN: the oldest line of the coalescing buffer drains, which makes room for a stalled stream (R53). -/
def execWriteAroundDrain (slice : Nat) (s : State) : Res :=
  match s.sc.slices[slice]? with
  | none => .next s
  | some x =>
    match x.coal with
    | [] => .next s
    | b :: rest => .next (((s.modSlice slice fun x => { x with coal := rest, stalled := [] }).sendValid b.tgt b.line b.valid).release slice)

/-- Whether a write-back of a line is that of the group being cleaned. -/
def Slice.cleans (x : Slice) (t : Target) (line : Nat) (l : ScLine) : Bool :=
  decide (l.tgt = t) && l.line == line && l.dirty && decide (x.cleaning = some (l.way / 4))

/-- WRITE_BACK_ACCEPTED: a line under eviction is free, and what waits goes on (R56); a dirty line of a group that is being powered
down is clean (R61). An error that the array shows as the line is read for its write-back does as R60 says. -/
def execWriteBackAccepted (slice : Nat) (tgt : Target) (w : WriteBack) (s : State) : Res :=
  match s.sc.slices[slice]? with
  | none => .next s
  | some x =>
    match x.evicting.find? fun l => decide (l.tgt = tgt) && l.line == w.line, (x.lines ++ x.victims).find? (x.cleans tgt w.line) with
    | some l, _ =>
      let s := if l.dirty then (s.spoil l w.err).wroteBack l w.err else s
      .next ((s.modSlice slice fun x => { x with evicting := dropFirst (fun e => decide (e = l)) x.evicting }).release slice)
    | none, some l =>
      let s := (s.spoil l w.err).wroteBack l w.err
      let clean := fun (u : ScLine) => if u = l then { u with dirty := false } else u
      let gone := w.err = .tagParity ∨ w.err = .uncorrectable
      let keep := fun (ls : List ScLine) => if gone then ls.filter fun u => decide (u ≠ l) else ls.map clean
      .next (s.modSlice slice fun x => { x with lines := keep x.lines, victims := keep x.victims })
    | none, none => .next s

/-! ## Way groups (R61, R332) -/

/-- A powered group other than group 0 begins to be cleaned. While another group of the slice is being cleaned the request is
dropped (log entry 114). -/
def Slice.beginClean (g : Nat) (x : Slice) : Slice :=
  if x.cleaning.isSome ∨ g = 0 ∨ !(x.ways.toNat.testBit g) then x else { x with cleaning := some g }

/-- The highest powered group above 0 begins to be cleaned. -/
def Slice.cleanNext (x : Slice) : Slice :=
  match [3, 2, 1].find? fun g => x.ways.toNat.testBit g with
  | some g => x.beginClean g
  | none => x

/-- WAY_GROUP_POWER_DOWN: Weir asks, and the slice stops allocating into the group (R61, steps 1 and 2). -/
def execWayGroupPowerDown (slice group : Nat) (s : State) : Res :=
  .next (if s.procUp 2 then s.modSlice slice (Slice.beginClean group) else s)

/-- WAY_GROUP_CLEANED: no dirty line of the group is left; it is invalidated and powered off (R61, steps 4 and 5). While every
unit is idle the next group follows (R332). -/
def execWayGroupCleaned (slice group : Nat) (s : State) : Res :=
  match s.sc.slices[slice]? with
  | none => .next s
  | some x =>
    let mine := fun (l : ScLine) => l.way / 4 == group
    if x.cleaning ≠ some group ∨ (x.lines.any fun l => mine l && l.dirty) ∨ (x.victims.any fun l => mine l && l.dirty) then .next s
    else
      let on := s.weir.scIdle
      .next (s.modSlice slice fun x =>
        let x := { x with
          cleaning := none
          ways := x.ways &&& BitVec.ofNat 4 (15 - 2 ^ group)
          lines := x.lines.filter fun l => !(mine l) }
        if on then x.cleanNext else x)

/-- SC_ALL_IDLE_50MS: every cluster, array, front end and copy engine has been in A2 for 50 ms; groups 3, 2 and 1 go (R332). -/
def execScAllIdle50ms (s : State) : Res :=
  let idle := s.engines.all fun e => match s.island? (engineIsland e) with
    | some i => i.a2
    | none => true
  if s.aon.mode ≠ .a ∨ !idle ∨ !(s.procUp 2) then .next s
  else
    let s := s.modWeir fun w => { w with scIdle := true }
    .next (s.modSc fun c => { c with slices := c.slices.map Slice.cleanNext })

/-! ## SC_MODE (R58) -/

/-- Whether a slice holds a request, its own fills and write-backs included (R70). -/
def Slice.busy (x : Slice) : Bool :=
  !(x.misses.isEmpty && x.waiting.isEmpty && x.passing.isEmpty && x.coal.isEmpty && x.evicting.isEmpty && x.stalled.isEmpty && x.cleaning.isNone)

/-- Whether the system cache block runs for a write to SC_MODE (R58, R70). -/
def State.scRuns (s : State) : Bool := s.ctxs.any (·.resident) || s.sc.slices.any Slice.busy

/-- A write to SC_MODE (R58); reserved bits stay 0. -/
def State.writeScMode (v : Word) (s : State) : State :=
  if s.scRuns then s.modSc fun c => { c with liveWrite := true }
  else s.modSc fun c => { c with mode := v &&& 7 }

end Sys2Proof.Machine
end

