-- ==== Sys2Proof/Machine/Telemetry.lean ====
section
/-! DEFINITION. What the host can look at: PROGRESS_READ (R376), dumps (R385 to R387), telemetry pages and TELEMETRY_READ (R388 to
R390), and CLOCK_CORRELATE (R391). -/

namespace Sys2Proof.Machine

/-! ## Progress (R376) -/

/-- Whether parked groups are held at an engine. -/
def State.enginePark (s : State) : Engine → Bool
  | .cluster i => match s.clusters[i]? with
    | some c => c.groups.any (·.parked)
    | none => false
  | _ => false

/-- Whether every resident group of a cluster waits at a barrier. -/
def State.barrierWait (s : State) : Engine → Bool
  | .cluster i => match s.clusters[i]? with
    | some c => !c.groups.isEmpty && c.groups.all fun g => match g.st with
      | .barrier _ => true
      | _ => false
    | none => false
  | _ => false

/-- Whether a WAIT entry is at the head of a ring. -/
def EngineCore.headWait (c : EngineCore) : Bool :=
  match c.ring with
  | .wait _ _ _ :: _ => true
  | _ => false

/-- The 48 bytes of an engine's progress record for a function. -/
def State.progressRecord (s : State) (fn : Nat) (e : Engine) : List Byte :=
  let c := (s.engine? e).getD resetEngine
  let own : Bool := match c.holder with
    | some k => k.fn == fn
    | none => false
  let tenant := match c.holder with
    | some k => if fn = 0 then k.fn else 0
    | none => 0
  let id := match c.holder with
    | some k => if own || fn == 0 then k.id else 0xFFFF
    | none => 0xFFFF
  toLE 4 (engineIsland e + at' (b2n c.busy) 8 + at' (b2n own) 9 + at' (b2n c.headWait) 10 + at' (b2n (s.enginePark e)) 11 +
      at' (b2n (s.barrierWait e)) 12 + at' tenant 13) ++
    toLE 4 id ++ toLE 8 c.retired ++ toLE 8 (c.retiredBy.getD fn 0) ++ toLE 8 c.work ++
    toLE 8 (s.count (engineIsland e)).toNat ++ toLE 8 0

/-- The 2,896 bytes of PROGRESS_READ. -/
def State.progressBytes (s : State) (fn : Nat) : List Byte :=
  toLE 4 60 ++ List.replicate 12 0 ++ s.engines.flatMap (s.progressRecord fn)

/-- A packet with a DEST_ADDR alone (R282). -/
def destSpec (op : BitVec 8) (lostOk : Bool) : OpSpec :=
  { opcode := op, assigned := true, may := mayAny, mailbox := false, job := false, lostOk := lostOk, len := fun _ => 8,
    reserved := fun _ => [(0x00, 63, 48), (0x08, 63, 0)] }

/-- PROGRESS_READ at its own checks. -/
def progressRead (p : Pk) (s : State) : Verdict :=
  match p.key with
  | none => .reply stNotPermitted 0 s
  | some k =>
    let va := p.f 0 47 0
    if va % 16 ≠ 0 then .reply stBadParam 0 s
    else
      match s.translate .headgate k va 2896 needW with
      | (.error _, s) => .reply stBadParam 0 s
      | (.ok ps, s) => .reply stOk 2896 (putPieces k.fn ps (s.progressBytes p.fn) s).2

def execProgressRead (src : Src) (p : Packet) (s : State) : Res := .next (s.takePacket (destSpec 0x72 true) progressRead src p)

/-! ## Dumps (R385 to R387) -/

/-- A record: its header, and its body padded with zeros to a multiple of 8 bytes. -/
def dumpRecord (type ctx island : Nat) (outside : Bool) (body : List Byte) : List Byte :=
  let n := 8 + ceilDiv body.length 8 * 8
  toLE 4 (type + at' n 8) ++ toLE 4 (ctx + at' island 16 + at' (b2n outside) 24) ++ takePad 0 (n - 8) body

/-- LDS_SAMPLE of a workgroup. -/
def ldsSample (ctx island : Nat) (save parked : Bool) (w : Workgroup) : List Byte :=
  let n := min 4096 w.bytes
  dumpRecord 0x01 ctx island false
    (toLE 4 w.x ++ toLE 4 w.y ++ toLE 4 w.z ++ toLE 4 (n + at' (b2n save) 16 + at' (b2n parked) 17) ++ readBytes w.lds 0 n)

/-- Whether a workgroup's groups are parked. -/
def parkedWg (gs : List Group) (w : Workgroup) : Bool := gs.any fun g => g.wg == w.id && g.parked

/-- The LDS samples of a context: those of the clusters that hold it, then those of its save area. -/
def State.ldsSamples (s : State) (c : Ctx) : List (List Byte) :=
  ((enumFrom 0 s.clusters).flatMap fun x =>
    if x.2.core.holder = some c.key then
      (sortBy (·.id) x.2.wgs).map fun w => ldsSample c.key.id x.1 false (parkedWg x.2.groups w) w
    else []) ++
  c.saved.flatMap fun v => (sortBy (·.id) v.wgs).map fun w => ldsSample c.key.id 0xFF true (parkedWg v.groups w) w

/-- RESERVOIR_REGION: the 4 KiB pages of a region that lie in the function's Reservoir windows (R386). -/
def State.regionRecord (s : State) (fn : Nat) (r : Word) : List Byte :=
  let base := fld r.toNat 15 0
  let pages := upFrom base (fld r.toNat 31 16)
  let inside := pages.filter fun p => s.ownsGranule fn (p * 4096 / granuleBytes)
  let bs := inside.flatMap fun p => s.rd .reservoir (4096 * p) 4096
  dumpRecord 0x02 0xFFFF 0xFF (decide (inside.length ≠ pages.length)) (toLE 4 (4096 * inside.head?.getD base) ++ toLE 4 bs.length ++ bs)

/-- The code of a context's state. -/
def ctxCode : CtxState → Nat
  | .active => 0
  | .faulted => 1
  | .lost => 2
  | .destroying => 3

/-- The code of a hold (R275, R387). A hold that R275 does not list is 0 (log entry 67). -/
def holdCode : Hold → Nat
  | .barrier => 1
  | .fenceWait => 2
  | .commitArmed => 3
  | .jobLimit => 4
  | .faulted => 5
  | .ringRoom => 6
  | .other => 0

/-- CONTEXT. -/
def State.contextRecord (s : State) (c : Ctx) : List Byte :=
  dumpRecord 0x10 c.key.id 0xFF false
    (toLE 4 (ctxCode c.st + at' c.prio 2 + at' (b2n c.replayable) 5 + at' (b2n c.prot) 6 + at' (b2n c.resident) 7) ++
      toLE 4 c.lastFseq ++ toLE 4 (c.ranges.length + at' (s.queuesOf c.key).length 16))

/-- QUEUE. -/
def State.queueRecord (s : State) (u : Queue) : List Byte :=
  let (seq, op, why) := match u.held with
    | some h => (h.pkt.seq.toNat, h.opcode.toNat, holdCode h.why)
    | none => (0, 0, 0)
  dumpRecord 0x11 u.ctx 0xFF false
    (toLE 4 (u.q + at' (b2n u.halted) 14 + at' (u.owed + u.deferred) 16) ++ toLE 4 u.read ++ toLE 4 u.write ++
      toLE 4 (u.sw + at' u.statusRead 16) ++ toLE 4 seq ++
      toLE 4 (op + at' why 8 + at' (s.startedJobs (.queue u.fn u.q)).length 16))

/-- FENCE_WAIT. -/
def waitRecord (ctx : Nat) (w : Wait) : List Byte :=
  dumpRecord 0x12 ctx 0xFF false
    (toLE 8 w.addr ++ toLE 8 w.value.toNat ++ toLE 8 w.lastValue.toNat ++ toLE 8 (w.lastError.toNat + at' (b2n w.remote) 32))

/-- ARMED_RUN. -/
def armedRecord (j : Job) : List Byte :=
  match j.run? with
  | some r => dumpRecord 0x13 j.key.id 0xFF false (toLE 4 r.handle ++ toLE 4 (r.port + at' r.vc 4) ++ toLE 4 j.origin.seq.toNat)
  | none => []

/-- ENGINE. -/
def State.engineRecord (s : State) (fn : Nat) (e : Engine) : List Byte :=
  let c := (s.engine? e).getD resetEngine
  dumpRecord 0x20 0xFFFF (engineIsland e) false (s.progressRecord fn e ++ toLE 4 (c.ring.length + at' c.epoch.toNat 8))

/-- The contexts of a function in ascending ID. -/
def State.ctxsOf (s : State) (fn : Nat) : List Ctx := sortBy (fun c => c.key.id) (s.ctxs.filter fun c => c.key.fn == fn)

/-- The records of a function's dump, in order (R386). -/
def State.dumpRecords (s : State) (fn : Nat) (f : Fun) : List (List Byte) :=
  if f.service = .normal then
    (s.ctxsOf fn).flatMap s.ldsSamples ++
      (f.dumpRegions.filter fun r => decide (fld r.toNat 31 16 ≠ 0)).map (s.regionRecord fn)
  else
    ((s.ctxsOf fn).flatMap fun c =>
      let qs := sortBy (·.q) (s.queuesOf c.key)
      [s.contextRecord c] ++ qs.map s.queueRecord ++ qs.filterMap (fun u => u.wait.map (waitRecord c.key.id)) ++
        ((s.jobs.filter fun j => decide (j.key = c.key) && j.armed).map armedRecord)) ++
    s.engines.map (s.engineRecord fn)

/-- As many whole records as fit into some bytes, and whether that is all. -/
def fitRecords : Nat → List (List Byte) → List (List Byte) × Bool
  | _, [] => ([], true)
  | room, r :: rs =>
    if r.length ≤ room then
      let (xs, all) := fitRecords (room - r.length) rs
      (r :: xs, all)
    else ([], false)

/-- The code of a service state (R384, R387, R395). -/
def serviceCode : Service → Nat
  | .normal => 0
  | .startup => 1
  | .test => 2
  | .recovery => 3

/-- A dump of at most some bytes. -/
def State.dumpBytes (s : State) (fn n : Nat) (f : Fun) : List Byte :=
  let (rs, all) := fitRecords (n - 64) (s.dumpRecords fn f)
  let body := rs.flatten
  toLE 4 0x504D5544 ++ toLE 4 (serviceCode f.service + at' fn 2 + at' (b2n (!all)) 4) ++ toLE 4 (64 + body.length) ++
    toLE 4 rs.length ++ toLE 8 ((s.count 0x62).toNat + at' 0x62 48) ++ List.replicate 40 0 ++ body

/-- The DUMP_COLLECT packet (R278, R282). -/
def dumpSpec : OpSpec :=
  { opcode := 0x71, assigned := true, may := mayAny, mailbox := false, job := false, lostOk := true, len := fun _ => 8,
    reserved := fun _ => [(0x00, 63, 48), (0x08, 63, 32)] }

/-- DUMP_COLLECT at its own checks. -/
def dumpCollect (p : Pk) (s : State) : Verdict :=
  let va := p.f 0 47 0
  let n := p.f 8 31 0
  match p.key, s.funs[p.fn]? with
  | some k, some f =>
    if n < 64 then .reply stBadParam 0x08 s
    else if va % 16 ≠ 0 then .reply stBadParam 0x00 s
    else
      match s.spanOk .headgate k va n needW with
      | (false, s) => .reply stBadParam 0x00 s
      | (true, s) =>
        let bs := s.dumpBytes p.fn n f
        .reply stOk bs.length (s.putVa .headgate k va bs).2
  | _, _ => .reply stNotPermitted 0 s

def execDumpCollect (src : Src) (p : Packet) (s : State) : Res := .next (s.takePacket dumpSpec dumpCollect src p)

/-! ## Telemetry (R388 to R390) -/

/-- A signed value as a 64-bit pattern. -/
def signed64 (t : Int) : Nat := (t % 18446744073709551616).toNat

/-- A telemetry record: ID, INDEX, VALUE. -/
def telemRecord (id index value : Nat) : List Byte := toLE 4 (id + at' index 16) ++ toLE 4 0 ++ toLE 8 value

/-- The hottest sensor. -/
def hottest (ts : List Int) : Int :=
  match ts with
  | [] => 0
  | t :: ts => ts.foldl (fun a b => if a < b then b else a) t

/-- The records of every page. -/
def State.telemCommon (s : State) : List (List Byte) :=
  let w := s.weir
  [telemRecord 0x0001 0 w.lastMw, telemRecord 0x0002 0 w.limitMw, telemRecord 0x0003 0 w.cap,
   telemRecord 0x0004 0 (b2n w.powerEmerg + at' (b2n w.thermEmerg) 1 + at' (b2n w.trip) 2),
   telemRecord 0x0005 0 (signed64 (hottest w.temps))]

/-- The records of a function's page. -/
def State.telemTenant (s : State) (fn : Nat) (f : Fun) : List (List Byte) :=
  let cs := s.ctxs.filter fun c => c.key.fn == fn
  [telemRecord 0x0010 0 f.clusterUs, telemRecord 0x0011 0 f.arrayUs, telemRecord 0x0012 0 f.copyUs,
   telemRecord 0x0013 0 f.rsvBytes, telemRecord 0x0014 0 f.dramBytes, telemRecord 0x0015 0 f.hostBytes,
   telemRecord 0x0020 0 (countIf (fun c => decide (c.st ≠ .lost)) cs), telemRecord 0x0021 0 (countIf (fun c => decide (c.st = .lost)) cs),
   telemRecord 0x0022 0 (countIf (·.resident) cs), telemRecord 0x0023 0 f.cumEvict, telemRecord 0x0024 0 f.cumFaults,
   telemRecord 0x0025 0 f.cumYields, telemRecord 0x0026 0 f.cumResets] ++
  ((enumFrom 0 s.camera.ports).flatMap fun p => (enumFrom 0 p.2.chans).filterMap fun c =>
    if p.2.owner' c.1 = fn then some (telemRecord 0x0030 (16 * p.1 + c.1) c.2.frameNo.toNat) else none) ++
  (enumFrom 0 s.pipes).filterMap fun p =>
    if (List.range 8).any fun l => layerOwner p.2.applied.owner l == fn then some (telemRecord 0x0031 p.1 p.2.frames.toNat) else none

/-- The records of the device page. -/
def State.telemDevice (s : State) : List (List Byte) :=
  (enumFrom 0 s.weir.temps).map (fun t => telemRecord 0x0040 t.1 (signed64 t.2)) ++
    (s.islands.filter fun i => s.islandUsable i.id && (regulated i.id || isCopyIsland i.id)).map (fun i => telemRecord 0x0041 i.id i.point) ++
    (enumFrom 0 s.pipes).map (fun p => telemRecord 0x0042 p.1 (protCode p.2.protState)) ++
    [telemRecord 0x0043 0 s.weir.planVersion.toNat]

/-- A page: its header and its records (R389). -/
def State.telemPage (s : State) (fn : Nat) (seq : Word) (rs : List (List Byte)) : List Byte :=
  toLE 4 0x4D4C4554 ++ toLE 4 seq.toNat ++ toLE 4 (rs.length + at' fn 16) ++ toLE 4 0 ++
    toLE 8 ((s.count 0x64).toNat + at' 0x64 48) ++ List.replicate 40 0 ++ rs.flatten

/-- The tenant page and the device page as Weir samples them now. -/
def State.tenantSample (s : State) (fn : Nat) (f : Fun) (seq : Word) : List Byte :=
  s.telemPage fn seq (s.telemCommon ++ s.telemTenant fn f)
def State.deviceSample (s : State) (seq : Word) : List Byte := s.telemPage 0 seq (s.telemCommon ++ s.telemDevice)

/-- TELEMETRY_PAGE_WRITE: Weir samples and writes a function's page; SEQ is odd while it writes and even after (R388). PF0's
period also samples the device page (log entry 68). -/
def execTelemetryPageWrite (fn : Nat) (s : State) : Res :=
  match s.funs[fn]? with
  | none => .next s
  | some f =>
    if !(s.procUp 2) ∨ s.aon.mode ≠ .a ∨ f.st ≠ .ready then .next s
    else
      let seq := f.telemSeq + 2
      let bs := s.tenantSample fn f seq
      let s := if fn = 0 then s.modWeir fun w => { w with sample := s.deviceSample seq } else s
      let addr : BitVec 64 := f.telemHi ++ (f.telemLo &&& 0xFFFFF000)
      let off := decide (addr = 0)
      let bad := !off && !(fnAddrOk addr.toNat 4096 && s.fnAreaOk fn addr 4096)
      let s := s.modFun fn fun f => { f with sample := bs, telemSeq := seq, telemBad := bad }
      .next (if off || bad then s
        else
          let s := s.wrFn fn addr 0 bs
          match s.fnAddr fn addr 0 with
          | some (t, a) => s.spanWritten t a bs.length
          | none => s)

/-- The TELEMETRY_READ packet (R278, R282). -/
def telemetrySpec : OpSpec :=
  { opcode := 0x61, assigned := true, may := mayAny, mailbox := false, job := false, lostOk := true, len := fun _ => 8,
    reserved := fun _ => [(0x00, 63, 48), (0x08, 63, 32)] }

/-- TELEMETRY_READ at its own checks: the latest sample; where Weir has taken none yet, one of now (log entry 68). -/
def telemetryRead (p : Pk) (s : State) : Verdict :=
  let sel := p.f 8 31 0
  match p.key, s.funs[p.fn]? with
  | some k, some f =>
    match s.spanOk .headgate k (p.f 0 47 0) 4096 needW with
    | (false, s) => .reply stBadParam 0x00 s
    | (true, s) =>
      if 1 < sel then .reply stBadParam 0x08 s
      else if sel = 1 ∧ p.fn ≠ 0 then .reply stNotPermitted 0 s
      else
        let bs := if sel = 0 then (if f.sample.isEmpty then s.tenantSample p.fn f f.telemSeq else f.sample)
          else (if s.weir.sample.isEmpty then s.deviceSample 0 else s.weir.sample)
        .reply stOk bs.length (s.putVa .headgate k (p.f 0 47 0) bs).2
  | _, _ => .reply stNotPermitted 0 s

def execTelemetryRead (src : Src) (p : Packet) (s : State) : Res := .next (s.takePacket telemetrySpec telemetryRead src p)

/-! ## CLOCK_CORRELATE (R391) -/

/-- The enabled islands in ascending ID. -/
def State.islandsOn (s : State) : List Island := sortBy (·.id) (s.islands.filter fun i => s.islandUsable i.id)

/-- Every island runs at its nominal clock, and none is in A2. -/
def State.clocksNominal (s : State) : Bool := s.islandsOn.all fun i => !i.a2 && decide (i.freqKHz = nominalOf i.id)

/-- The spread of a sample: 50 ns where the spec gives it; elsewhere free (log entry 66). -/
def State.spread (s : State) : Nat × State :=
  if s.clocksNominal then (50, s)
  else
    let (k, s) := s.fresh
    (Config.spreadNs k % 2 ^ 32, s)

/-- The record of an island. -/
def islandRecord (i : Island) : List Byte :=
  toLE 4 (i.id + at' (b2n i.a2) 8) ++ toLE 4 i.freqKHz ++ toLE 8 (i.counter.toNat + at' i.changes.toNat 48)

/-- CLOCK_CORRELATE at its own checks. -/
def clockCorrelate (p : Pk) (s : State) : Verdict :=
  match p.key with
  | none => .reply stNotPermitted 0 s
  | some k =>
    let is := s.islandsOn
    match s.translate .headgate k (p.f 0 47 0) (16 + 16 * is.length) needW with
    | (.error _, s) => .reply stBadParam 0x00 s
    | (.ok ps, s) =>
      let (ns, s) := s.spread
      .reply stOk ns (putPieces k.fn ps (toLE 4 is.length ++ toLE 4 ns ++ toLE 8 0 ++ is.flatMap islandRecord) s).2

def execClockCorrelate (src : Src) (p : Packet) (s : State) : Res :=
  .next (s.takePacket (destSpec 0x62 false) clockCorrelate src p)

end Sys2Proof.Machine
end

