-- ==== Sys2Proof/Machine/Registers.lean ====
section
/-! DEFINITION. The registers of BAR0 (R235 to R237): what a read of each returns and what a write of each does, block by block.
Offsets are those from the block's base. -/

namespace Sys2Proof.Machine

/-! ## FN_ (R256, R285, R395) -/

/-- FN_STATUS.STATE (R256). -/
def fnCode : FnState → Nat
  | .booting => 0
  | .ready => 1
  | .resetting => 2
  | .fatal => 3

/-- FN_SERVICE.STATE (R395). -/
def serviceNo : Service → Nat
  | .normal => 0
  | .startup => 1
  | .test => 2
  | .recovery => 3

/-- FN_STATUS. -/
def Fun.statusReg (f : Fun) : Nat := at' (b2n f.liveWrite) 31 + at' (fnCode f.st) 26 + at' (b2n f.leveeChanged) 25

/-- A read of an FN_ register of a function. -/
def State.readFn (s : State) (fn off : Nat) (f : Fun) : Nat :=
  if off = 0x000 then f.statusReg
  else if off = 0x004 then at' s.part.step.toNat 16 + at' 0x09 8 + fn
  else if off = 0x008 then f.aperture2.toNat
  else if 0x010 ≤ off ∧ off ≤ 0x01C then
    let w := f.dramWin.getD ((off - 0x010) / 4) (0, 0)
    at' w.2 16 + w.1
  else if off = 0x020 then fld f.rsvMask.toNat 31 0
  else if off = 0x024 then fld f.rsvMask.toNat 63 32
  else if off = 0x028 then (if fn = 0 then fld s.levee.protMask.toNat 31 0 else 0)
  else if off = 0x02C then (if fn = 0 then fld s.levee.protMask.toNat 63 32 else 0)
  else if off = 0x030 then
    at' f.badAccess.toNat 24 + at' f.denied.toNat 16 + at' f.unsupported.toNat 8 + f.poisonSent.toNat
  else if 0x100 ≤ off ∧ off ≤ 0x14C then (f.mboxCmd.getD ((off - 0x100) / 4) 0).toNat
  else if 0x180 ≤ off ∧ off ≤ 0x19C then (f.mboxReply.getD ((off - 0x180) / 4) 0).toNat
  else if off = 0x1C0 then at' (b2n f.mboxDone) 2 + at' (b2n f.mboxBusy) 1
  else if off = 0x1C4 then at' f.dbDropped.toNat 16 + f.evDropped.toNat
  else if off = 0x1C8 then at' (b2n f.overflowed) 16 + f.fifo.length
  else if off = 0x200 then serviceNo f.service
  else if off = 0x204 then at' (b2n f.telemBad) 31 + fld f.telemCfg.toNat 9 0
  else if off = 0x208 then f.telemLo.toNat
  else if off = 0x20C then f.telemHi.toNat
  else if 0x210 ≤ off ∧ off ≤ 0x22C then (f.dumpRegions.getD ((off - 0x210) / 4) 0).toNat
  else 0

/-- A write of FN_MBOX_CTRL: DONE is cleared by 1, and GO submits the packet unless BUSY is 1 (R284, R285). -/
def Fun.mboxCtrl (v : Word) (f : Fun) : Fun :=
  let f := if bitOf v.toNat 2 then { f with mboxDone := false } else f
  if bitOf v.toNat 0 ∧ !f.mboxBusy then { f with mboxBusy := true, mboxHeld := false } else f

/-- A write of FN_SERVICE (R384, R395): TEST_ENTER before TEST_EXIT. -/
def Fun.serviceCtrl (v : Word) (f : Fun) : Fun :=
  let f := if bitOf v.toNat 8 then { f with service := .test } else f
  if bitOf v.toNat 9 ∧ f.service = .test then { f with service := .normal } else f

/-- FN_ERR cleared (R256). -/
def Fun.clearErr (f : Fun) : Fun := { f with badAccess := 0, denied := 0, unsupported := 0, poisonSent := 0 }

/-- A write of an FN_ register. While an access to BAR2 waits for a channel the function's block runs and ignores a write of its LIVE
field (R32, R256). -/
def Fun.writeReg (off : Nat) (v : Word) (f : Fun) : Fun :=
  if off = 0x000 then
    { f with liveWrite := f.liveWrite && !(bitOf v.toNat 31), leveeChanged := f.leveeChanged && !(bitOf v.toNat 25) }
  else if off = 0x008 then (if f.bar2Wait.isEmpty then { f with aperture2 := v &&& 0x3FF } else { f with liveWrite := true })
  else if off = 0x034 then (if bitOf v.toNat 0 then f.clearErr else f)
  else if 0x100 ≤ off ∧ off ≤ 0x14C then { f with mboxCmd := setNth ((off - 0x100) / 4) v f.mboxCmd }
  else if off = 0x1C0 then f.mboxCtrl v
  else if off = 0x1C8 then { f with overflowed := f.overflowed && !(bitOf v.toNat 16) }
  else if off = 0x200 then f.serviceCtrl v
  else if off = 0x204 then { f with telemCfg := v &&& 0x3FF }
  else if off = 0x208 then { f with telemLo := v }
  else if off = 0x20C then { f with telemHi := v }
  else if 0x210 ≤ off ∧ off ≤ 0x22C then { f with dumpRegions := setNth ((off - 0x210) / 4) v f.dumpRegions }
  else f

/-! ## The Levee public page (R28, R235) -/

/-- The groups whose out-of-service bank is not the factory's choice, and those retired (R28). -/
def State.repairReg (s : State) : Nat :=
  let bits := fun (p : Nat → Bool) => sumN ((List.range 8).map fun g => at' (b2n (p g)) g)
  let out := fun (g : Nat) => s.rsv.outBank.getD g 0xF
  at' (bits fun g => out g == 0xF) 24 + at' (bits fun g => out g != 0xF && out g != s.part.spare.getD g 0xF) 16 + at' 1 8 + s.rsvGranules

/-- A read of the public page. -/
def State.readPublic (s : State) (off : Nat) : Nat :=
  if off = 0x000 then fld s.part.clEnable.toNat 31 0
  else if off = 0x004 then fld s.part.clEnable.toNat 47 32
  else if off = 0x008 then s.part.nsEnable.toNat
  else if off = 0x00C then sumN ((List.range 8).map fun g => at' (s.rsv.outBank.getD g 0xF) (4 * g))
  else if off = 0x010 then s.repairReg
  else 0

/-! ## PCI_ (R257), HG_ (R286), LV_ (R374) -/

/-- A read of a PCI_ register. -/
def State.readPci (s : State) (off : Nat) : Nat :=
  let p := s.pcie
  if off = 0x000 then
    at' (b2n p.liveWrite) 31 + at' (b2n p.linkUp) 28 + sumN ((enumFrom 0 s.funs).map fun x => at' (b2n x.2.d3hot) x.1)
  else if off = 0x004 then
    at' p.recoveries.toNat 16 + at' p.pm.toNat 10 + at' p.l0pWidth.toNat 7 + at' p.width.toNat 4 + p.rate.toNat
  else if off = 0x008 then p.cfg.toNat
  else if off = 0x00C then p.fec.toNat
  else if off = 0x010 then p.replays.toNat
  else 0

/-- The link's counters as they are found: what the link has corrected and replayed since is free (log entry 97). -/
def State.noteLink (s : State) : State :=
  if !s.pcie.linkUp then s
  else
    let (k, s) := s.fresh
    let more := fun (n : Word) (i : Nat) => BitVec.ofNat 32 (min (n.toNat + Config.linkCount (2 * k + i)) (2 ^ 32 - 1))
    s.modPcie fun p => { p with fec := more p.fec 0, replays := more p.replays 1 }

/-- A write of a PCI_ register: the island is idle only while the link is not trained. -/
def Pcie.writeReg (off : Nat) (v : Word) (p : Pcie) : Pcie :=
  if off = 0x000 then { p with liveWrite := p.liveWrite && !(bitOf v.toNat 31) }
  else if off = 0x008 then (if p.linkUp then { p with liveWrite := true } else { p with cfg := v &&& 0xFF })
  else p

/-- A read of an HG_ register. -/
def State.readHg (s : State) (off : Nat) : Nat :=
  if off = 0x000 then
    at' (b2n (s.procUp 0)) 28 +
      sumN ((enumFrom 0 s.funs).map fun x => at' (b2n (!(x.2.fifo.isEmpty && x.2.pendingMap.isEmpty))) x.1)
  else if off = 0x004 then s.hgPackets.toNat
  else if off = 0x008 then s.queues.length
  else if off = 0x00C then s.ctxs.length
  else 0

/-- LV_FW_STATUS.ACTIVATION (R374). -/
def activationCode : Activation → Nat
  | .none => 0
  | .running => 1
  | .deferred => 2
  | .paused => 2
  | .handingBack => 1

/-- A read of an LV_ management register. -/
def State.readLv (s : State) (off : Nat) : Nat :=
  let v := s.levee
  let procBits := fun (p : Nat → Bool) => sumN ((List.range 4).map fun i => at' (b2n (p i)) i)
  if off = 0x000 then
    at' v.bootFail.toNat 17 % 2 ^ 24 + at' (b2n v.wakeFail) 16 + at' (b2n v.noImage) 15 + at' (b2n v.cfgBad) 14 +
      at' (b2n v.fallback) 13 + at' (b2n v.activeSlot) 12 + at' (b2n v.staged) 11
  else if off = 0x004 then
    at' v.nextProc 10 + at' (activationCode v.activation) 8 + at' (procBits fun p => (s.procs[p]?).any (·.newImage)) 4 +
      procBits s.procUp
  else if off = 0x008 then
    at' (sumN ((enumFrom 0 v.otpKeys).map fun k => at' (b2n k.2.isSome) k.1)) 16 + at' v.otpRevoked.toNat 8 + v.otpSvn % 128
  else if off = 0x00C then sumN ((enumFrom 0 s.procs).map fun p => at' p.2.restarts.toNat (8 * p.1))
  else 0

/-! ## RSV_ and SC_ (R70) -/

/-- A read of an RSV_ register. -/
def Rsv.readReg (r : Rsv) (off : Nat) : Nat :=
  if off = 0x000 then at' (b2n r.liveWrite) 31 + at' (b2n r.s1Pass) 9 + at' (b2n r.active) 8 + r.groupAlert.toNat
  else if off = 0x008 then r.scrubCfg.toNat
  else if off = 0x00C then at' r.doublings 28 + r.passCount.toNat
  else if off = 0x010 then r.ceCount.toNat
  else if off = 0x014 then r.ueCount.toNat
  else if off = 0x018 then r.logAddr.toNat
  else if off = 0x01C then r.logSyn.toNat
  else if off = 0x024 then at' (b2n r.lastLoss) 8 + r.retained.toNat
  else 0

/-- Whether an access to the Reservoir is outstanding (R70). -/
def State.rsvRuns (s : State) : Bool := s.flight.any fun a => decide (a.tgt = .reservoir)

/-- What RSV_ECC_CTRL clears. -/
def Rsv.clearCounts (r : Rsv) : Rsv := { r with ceCount := 0, ueCount := 0 }
def Rsv.clearLog (r : Rsv) : Rsv := { r with logAddr := 0, logSyn := 0 }

/-- A write of an RSV_ register. The block runs while a bank's access is outstanding; the scrubber does not count (R32, R70). -/
def Rsv.writeReg (running : Bool) (off : Nat) (v : Word) (r : Rsv) : Rsv :=
  if off = 0x000 then { r with liveWrite := r.liveWrite && !(bitOf v.toNat 31) }
  else if off = 0x008 then (if running then { r with liveWrite := true } else { r with scrubCfg := v &&& 0xFFF0FFFF })
  else if off = 0x020 then
    let r := if bitOf v.toNat 0 then r.clearCounts else r
    if bitOf v.toNat 1 then r.clearLog else r
  else r

/-- A read of an SC_ register. -/
def State.readSc (s : State) (off : Nat) : Nat :=
  let c := s.sc
  let ways := fun (from_ : Nat) => sumN ((List.range 8).map fun j => at' ((c.slices[from_ + j]?).elim 0 fun x => x.ways.toNat) (4 * j))
  if off = 0x000 then
    at' (b2n c.liveWrite) 31 + at' (b2n (s.scCompat)) 16 +
      sumN ((enumFrom 0 c.slices).map fun x => at' (b2n x.2.cleaning.isSome) x.1)
  else if off = 0x008 then c.mode.toNat
  else if off = 0x010 then ways 0
  else if off = 0x014 then ways 8
  else if off = 0x020 then
    at' s.part.dramGib 16 + at' (b2n s.part.inlineEcc) 15 + at' (b2n s.part.linkEcc) 14 + s.part.rateMts
  else if off = 0x024 then c.patrolCfg.toNat
  else if off = 0x028 then c.dramCe.toNat
  else if off = 0x02C then c.dramUe.toNat
  else if off = 0x030 then c.linkEcc.toNat
  else if off = 0x034 then c.array.toNat
  else if off = 0x038 then c.dramLog.toNat
  else if off = 0x040 then c.retrain.toNat
  else 0

/-- Whether some slice holds a request of a requester (R70): its own prefetches and write-backs do not count here. -/
def Slice.serving (x : Slice) : Bool := (x.misses.any fun m => m.request.isSome) || !(x.waiting.isEmpty && x.coal.isEmpty && x.passing.isEmpty)

/-- The counters that SC_ECC_CTRL.CLEAR_COUNTS clears (R70). -/
def Sc.clearCounts (c : Sc) : Sc := { c with dramCe := 0, dramUe := 0, linkEcc := 0, array := 0, retrain := 0 }

/-- SC_ECC_CTRL.CLEAR_LOG. -/
def Sc.clearLog (c : Sc) : Sc := { c with dramLog := 0 }

/-- A write of an SC_ register. -/
def State.writeSc (off : Nat) (v : Word) (s : State) : State :=
  if off = 0x000 then s.modSc fun c => { c with liveWrite := c.liveWrite && !(bitOf v.toNat 31) }
  else if off = 0x008 then s.writeScMode v
  else if off = 0x024 then
    s.modSc fun c => if c.slices.any Slice.serving then { c with liveWrite := true } else { c with patrolCfg := v &&& 0xFFFF }
  else if off = 0x044 then
    s.modSc fun c =>
      let c := if bitOf v.toNat 0 then c.clearCounts else c
      if bitOf v.toNat 1 then c.clearLog else c
  else s

/-! ## CL_ (R104), FE_ (R139), NS_ (R171) -/

/-- TENANT and CTX_ID of a held context. -/
def holderBits (k : Option CtxKey) : Nat :=
  match k with
  | some k => at' k.fn 24 + k.id
  | none => 0xFFFF

/-- CL_STATUS of a cluster. -/
def Cluster.statusReg (c : Cluster) : Nat :=
  let wait := !c.groups.isEmpty && c.groups.all fun g => match g.st with
    | .barrier _ => true
    | _ => false
  at' (b2n c.core.liveWrite) 31 + at' (b2n c.core.armed) 30 + at' (b2n (c.groups.any Group.stopped)) 28 + at' (b2n wait) 27 +
    at' c.groups.length 16 + holderBits c.core.holder

/-- The phase of a front end's pass (R139). -/
def State.frontPhase (s : State) (f : FrontEnd) : Nat :=
  match (f.job.bind s.job?).map Job.kind with
  | some (.pass _ (some r)) => match r.phase with
    | .idle => 0
    | .geometry => 1
    | .tile => 2
    | .flush => 3
  | _ => 0

/-- A read of an FE_ register. -/
def State.readFe (s : State) (o : Nat) (f : FrontEnd) : Nat :=
  if o = 0x000 then
    at' (b2n f.core.liveWrite) 31 + at' (b2n f.core.armed) 30 + at' (b2n (!f.writes.isEmpty)) 29 + at' (b2n f.job.isSome) 28 +
      at' (s.frontPhase f) 26 + at' (b2n f.direct) 17 + holderBits ((f.job.bind s.job?).map (·.key))
  else if o = 0x004 then f.shadow.toNat
  else if o = 0x008 then f.passes.toNat
  else if o = 0x00C then at' f.flushes.toNat 16 + f.directs.toNat
  else 0

/-- A write of a SHADOW field while the arm is set waits in the pending-write buffer (R29, R30; log entry 14). -/
def FrontEnd.writeReg (o : Nat) (v : Word) (f : FrontEnd) : FrontEnd :=
  if o = 0x000 then { f with core := { f.core with liveWrite := f.core.liveWrite && !(bitOf v.toNat 31) } }
  else if o = 0x004 then
    if f.core.armed then { f with writes := f.writes ++ [v &&& 0xF] } else { f with shadow := v &&& 0xF }
  else f

/-- A read of an NS_ register of an array. -/
def Array.readReg (o : Nat) (a : Array) : Nat :=
  if o = 0x000 then
    at' (b2n a.core.liveWrite) 31 + at' (b2n a.core.armed) 30 + at' (b2n (!a.writes.isEmpty)) 29 + at' (b2n a.layer.isSome) 28 +
      at' (b2n a.grant.isSome) 27 + at' (b2n a.kept.isSome) 26 + holderBits a.core.holder
  else if o = 0x004 then a.shadow.toNat
  else if o = 0x008 then a.layers.toNat
  else 0

def Array.writeReg (o : Nat) (v : Word) (a : Array) : Array :=
  if o = 0x000 then { a with core := { a.core with liveWrite := a.core.liveWrite && !(bitOf v.toNat 31) } }
  else if o = 0x004 then
    if a.core.armed then { a with writes := a.writes ++ [v &&& 7] } else { a with shadow := v &&& 7 }
  else a

/-! ## WEIR_ (R357), AON_ (R358) -/

/-- The first of the hottest sensors. -/
def hotSensor (ts : List Int) : Nat :=
  match (enumFrom 0 ts).find? fun x => x.2 == hottest ts with
  | some x => x.1
  | none => 0

/-- A read of a WEIR_ register. -/
def State.readWeir (s : State) (off : Nat) : Nat :=
  let w := s.weir
  if off = 0x000 then
    at' (b2n w.liveWrite) 31 + at' (b2n w.powerEmerg) 28 + at' (b2n w.thermEmerg) 27 + at' (b2n w.trip) 26 +
      at' (b2n (!w.replans.isEmpty)) 25 + at' (b2n w.belowNominal) 24 + at' (b2n w.fixedLow) 23 + at' (b2n w.alertLow) 22 +
      at' (b2n (s.procUp 2)) 21 + at' (w.cap % 16) 16
  else if off = 0x004 then w.pwrLimit.toNat
  else if off = 0x008 then at' (maxN w.window % 65536) 16 + w.lastMw % 65536
  else if off = 0x00C then w.thermCfg.toNat
  else if off = 0x010 then at' (hotSensor w.temps) 16 + (hottest w.temps % 256).toNat
  else if off = 0x014 then w.cfg.toNat
  else if off = 0x018 then at' ((500 - w.sinceReplan) % 65536) 16 + w.planVersion.toNat
  else if off = 0x01C then w.ageSel.toNat
  else if off = 0x020 then
    let id := w.ageSel.toNat % 256
    if s.islandUsable id then
      match s.island? id with
      | some i => at' (i.fmax0 / 1000 % 65536) 16 + i.fmax / 1000 % 65536
      | none => 0
    else 0
  else if off = 0x024 then w.hours.toNat
  else if off = 0x028 then
    at' w.powerEvents.toNat 24 + at' w.thermEvents.toNat 16 + at' w.trips.toNat 8 + w.droops.toNat
  else 0

/-- Whether three thresholds keep their order (R357). -/
def thermOk (v : Word) : Bool :=
  let t := fld v.toNat 7 0
  let e := fld v.toNat 15 8
  let p := fld v.toNat 23 16
  decide (60 ≤ t) && decide (t < e) && decide (e < p) && decide (p ≤ 125)

/-- A LIVE field of Weir written: ignored while a replan runs (R32, R357). -/
def Weir.live (f : Weir → Weir) (w : Weir) : Weir := if w.replans.isEmpty then f w else { w with liveWrite := true }

/-- A write of a WEIR_ register. A rise of SC_GROUPS_MAX powers the way groups up to it (R332, R61). -/
def State.writeWeir (off : Nat) (v : Word) (s : State) : State :=
  if off = 0x000 then s.modWeir fun w => { w with liveWrite := w.liveWrite && !(bitOf v.toNat 31) }
  else if off = 0x004 then s.modWeir (Weir.live fun w => { w with pwrLimit := v &&& 0x1FF })
  else if off = 0x00C then
    s.modWeir (Weir.live fun w => if thermOk v then { w with thermCfg := v &&& 0xFFFFFF } else w)
  else if off = 0x014 then
    let s := s.modWeir (Weir.live fun w => { w with cfg := v &&& 0x7FFFF })
    if s.weir.scIdle then s else s.modSc fun c => { c with slices := c.slices.map fun x => { x with ways := x.ways ||| s.wayGroups } }
  else if off = 0x01C then s.modWeir fun w => { w with ageSel := v &&& 0xFF }
  else s

/-- A read of an AON_ register. The regulator's draw is a free value (log entry 69). -/
def State.readAon (s : State) (off : Nat) : Nat × State :=
  let a := s.aon
  if off = 0x000 then
    let (k, s) := s.fresh
    (at' (b2n a.liveWrite) 31 + at' (b2n a.ldoLp) 28 + at' a.lpPeakMa.toNat 8 + Config.drawMa k % 256, s)
  else if off = 0x004 then (at' a.wakeSrc.toNat 4 + a.cause.toNat, s)
  else if off = 0x008 then (a.i3cCfg.toNat, s)
  else if off = 0x00C then (a.s3Cfg.toNat, s)
  else if off = 0x010 then (at' (b2n a.saveValid) 31 + at' (b2n a.railTimeout) 30 + a.s3Wakes.toNat, s)
  else (0, s)

/-- A write of an AON_ register: the block runs only during the entry and the exit of S1 and S3 (R358). -/
def Aon.writeReg (off : Nat) (v : Word) (a : Aon) : Aon :=
  let live := fun (b : Aon) => if a.mode = .a then b else { a with liveWrite := true }
  if off = 0x000 then { a with liveWrite := a.liveWrite && !(bitOf v.toNat 31) }
  else if off = 0x008 then live { a with i3cCfg := v &&& 0x37F }
  else if off = 0x00C then live { a with s3Cfg := v &&& 0xFFFF }
  else if off = 0x010 then { a with railTimeout := a.railTimeout && !(bitOf v.toNat 30) }
  else a

/-! ## The management registers (R236) -/

/-- The engine whose register lies at an offset of the management range. -/
def regEngine (off : Nat) : Option Engine :=
  if 0x6000 ≤ off ∧ off < 0x60C0 then some (.cluster ((off - 0x6000) / 4))
  else if 0x7000 ≤ off ∧ off < 0x7100 then some (.front ((off - 0x7000) / 0x40))
  else if 0x8000 ≤ off ∧ off < 0x8240 then some (.array ((off - 0x8000) / 0x40))
  else none

/-- The island that holds the register at an offset of the management range (R236). -/
def regIsland (off : Nat) : Nat :=
  match regEngine off with
  | some e => engineIsland e
  | none =>
    if off < 0x3000 then 0x60
    else if off < 0x4000 then 0x62
    else if off < 0x5000 then 0x63
    else if off < 0x5800 then 0x40
    else if off < 0x6000 then 0x48
    else if off < 0x9000 then 0x63
    else if off < 0xA000 then 0x68 + (off - 0x9000) / 0x100
    else if off < 0xB000 then 0x70
    else if off < 0xC000 then 0x64
    else if off < 0xD000 then 0x7F
    else 0x65

/-- Whether a register access finds its unit: a disabled unit's registers read 0, and an access to a unit that is held in reset is
answered with an error (R20; log entry 75). -/
def State.regReached (s : State) (off : Nat) : Bool :=
  match regEngine off with
  | some e => !(s.enabled e) || s.islandThere (engineIsland e)
  | none => match s.island? (regIsland off) with
    | some i => !i.inReset && !i.off
    | none => true

/-- An access to a register of a unit in A2 waits until the unit is up (R19). -/
def State.wakeForReg (off : Nat) (s : State) : State :=
  match regEngine off with
  | some e => if s.enabled e then s.wakeUnit e else s
  | none => s

/-- A read of a management register. -/
def State.readMgmt (off : Nat) (s : State) : Nat × State :=
  if off < 0x3000 then
    let s := if off = 0x200C ∨ off = 0x2010 then s.noteLink else s
    (s.readPci (off - 0x2000), s)
  else if off < 0x4000 then (s.readHg (off - 0x3000), s)
  else if off < 0x5000 then (s.readSlc (off - 0x4000), s)
  else if off < 0x5800 then (s.rsv.readReg (off - 0x5000), s)
  else if off < 0x6000 then (s.readSc (off - 0x5800), s)
  else if off < 0x7000 then
    let i := (off - 0x6000) / 4
    (if s.enabled (.cluster i) then (s.clusters[i]?).elim 0 Cluster.statusReg else 0, s)
  else if off < 0x8000 then ((s.fronts[(off - 0x7000) / 0x40]?).elim 0 (s.readFe (off % 0x40)), s)
  else if off < 0x9000 then
    if off = 0x8400 then (at' s.nsRestarts.toNat 16 + s.nsMissed.toNat, s)
    else
      let i := (off - 0x8000) / 0x40
      (if s.enabled (.array i) then (s.arrays[i]?).elim 0 (Array.readReg (off % 0x40)) else 0, s)
  else if off < 0xA000 then ((s.pipes[(off - 0x9000) / 0x100]?).elim 0 fun p => p.readReg (off % 0x100), s)
  else if off < 0xB000 then (s.camera.readReg (off - 0xA000), s)
  else if off < 0xC000 then (s.readWeir (off - 0xB000), s)
  else if off < 0xD000 then s.readAon (off - 0xC000)
  else (s.readLv (off - 0xD000), s)

/-- A write of a management register. HG_, SLC_ and LV_ hold nothing that a write changes: their W1C bits are never set. -/
def State.writeMgmt (off : Nat) (v : Word) (s : State) : State :=
  if off < 0x3000 then s.modPcie (Pcie.writeReg (off - 0x2000) v)
  else if off < 0x5000 then s
  else if off < 0x5800 then s.modRsv (Rsv.writeReg s.rsvRuns (off - 0x5000) v)
  else if off < 0x6000 then s.writeSc (off - 0x5800) v
  else if off < 0x7000 then
    let i := (off - 0x6000) / 4
    if s.enabled (.cluster i) ∧ bitOf v.toNat 31 then s.modEngine (.cluster i) fun c => { c with liveWrite := false } else s
  else if off < 0x8000 then s.modFront ((off - 0x7000) / 0x40) (FrontEnd.writeReg (off % 0x40) v)
  else if off < 0x9000 then
    let i := (off - 0x8000) / 0x40
    if s.enabled (.array i) then s.modArray i (Array.writeReg (off % 0x40) v) else s
  else if off < 0xA000 then s.modPipe ((off - 0x9000) / 0x100) (Pipe.writeReg (off % 0x100) v)
  else if off < 0xB000 then s.writeCam (off - 0xA000) v
  else if off < 0xC000 then s.writeWeir (off - 0xB000) v
  else if off < 0xD000 then s.modAon (Aon.writeReg (off - 0xC000) v)
  else s

/-! ## Register space (R235, R237) -/

/-- A completion of a request that is not supported. -/
def State.unsupported (fn : Nat) (s : State) : State := s.say (.unsupported fn)

/-- A 32-bit read in register space: the completion with its value. -/
def State.readSpace (fn off : Nat) (s : State) : State :=
  let give := fun (n : Nat) (s : State) => s.completeData fn (toLE 4 n) false
  match s.funs[fn]? with
  | none => s
  | some f =>
    if off < 0x1000 then give (if s.fatal ∧ off ≠ 0 then 0 else if s.fatal then at' 3 26 else s.readFn fn off f) s
    else if s.fatal then give 0 s
    else if off < 0x2000 then give (s.readPublic (off - 0x1000)) s
    else if !(s.regReached off) then s.unsupported fn
    else
      let (n, s) := (s.wakeForReg off).readMgmt off
      give n s

/-- A 32-bit write in register space. -/
def State.writeSpace (fn off : Nat) (v : Word) (s : State) : State :=
  if s.fatal then s
  else if off < 0x1000 then s.modFun fn (Fun.writeReg off v)
  else if off < 0x2000 then s
  else if !(s.regReached off) then s
  else (s.wakeForReg off).writeMgmt off v

/-- An access in register space: PF1 to PF3 do not reach the management range, and only aligned accesses of 32 bits reach a
register (R237). A refused read returns 0. -/
def State.regAccess (fn : Nat) (write : Bool) (off size : Nat) (v : Word) (s : State) : State :=
  let none' := fun (f : Fun → Fun) (s : State) =>
    let s := if s.fatal then s else s.modFun fn f
    if write then s else s.completeData fn (List.replicate size 0) false
  if 0x2000 ≤ off ∧ fn ≠ 0 then none' (fun f => { f with denied := satInc f.denied }) s
  else if size ≠ 4 ∨ off % 4 ≠ 0 then none' (fun f => { f with badAccess := satInc f.badAccess }) s
  else if write then s.writeSpace fn off v
  else s.readSpace fn off

end Sys2Proof.Machine
end

