-- ==== Sys2Proof/Machine/Link.lean ====
section
/-! DEFINITION. The host link: doorbells (R261 to R263), apertures (R240 to R242), MSI-X (R243), configuration space (R231), the
completions of the device's own requests (R412), and the link's state (R257). -/

namespace Sys2Proof.Machine

/-! ## Doorbells (R238, R261 to R263) -/

/-- A doorbell write that Headgate drops: counted (R263). -/
def State.dbDrop (fn : Nat) (s : State) : State := s.modFun fn fun f => { f with dbDropped := satInc f.dbDropped }

/-- STATUS_READ moved on: the entries up to it are read (R261, R269). -/
def Queue.readTo (r : Nat) (u : Queue) : Queue :=
  let n := (r + 2 ^ u.statusLog2 - u.statusRead) % 2 ^ u.statusLog2
  { u with statusRead := r, unread := u.unread - n }

/-- Whether a queue takes doorbell values: neither it nor its context is being destroyed, and the values lie in its rings
(R263). -/
def State.doorbellOk (s : State) (u : Queue) (write status : Option Nat) : Bool :=
  u.destroying.isNone &&
    (match s.ctx? { fn := u.fn, id := u.ctx } with
      | some c => decide (c.st ≠ .destroying)
      | none => false) &&
    (write.all fun w => decide (w < 2 ^ u.ringLog2)) && (status.all fun r => decide (r < 2 ^ u.statusLog2))

/-- The doorbell of a queue: its values are stored, and the queue enters the FIFO. A HALTED queue takes STATUS_READ only. -/
def State.ring (fn q : Nat) (write status : Option Nat) (s : State) : State :=
  if s.fnState fn ≠ .ready then s
  else
    match s.queue? fn q with
    | none => s.dbDrop fn
    | some u =>
      if !(s.doorbellOk u write status) then s.dbDrop fn
      else
        let s := s.modQueue fn q fun u => status.elim u fun r => u.readTo r
        if u.halted then s
        else (s.modQueue fn q fun u => write.elim u fun w => { u with write := w }).enlist fn q

/-- A write in the doorbell range, at an offset from its start: three forms are taken, the others counted as bad accesses
(R261). -/
def State.doorbell (fn off size : Nat) (v : Nat) (s : State) : State :=
  if s.fatal then s
  else if size = 8 ∧ off % 8 = 0 then s.ring fn (off / 8) (some (fld v 31 0)) (some (fld v 63 32))
  else if size = 4 ∧ off % 8 = 0 then s.ring fn (off / 8) (some (fld v 31 0)) none
  else if size = 4 ∧ off % 8 = 4 then s.ring fn (off / 8) none (some (fld v 31 0))
  else s.modFun fn fun f => { f with badAccess := satInc f.badAccess }

/-! ## MSI-X (R243) -/

/-- The table entry of a vector replaced. -/
def Fun.setVector (e : MsixEntry) (f : Fun) : Fun :=
  { f with msix := insertBy (·.vec) e (f.msix.filter fun x => x.vec != e.vec) }

/-- Pending vectors that nothing masks any more are sent. -/
def State.sendPending (fn : Nat) (s : State) : State :=
  match s.funs[fn]? with
  | none => s
  | some f =>
    if !f.msixEnable ∨ f.msixMaskAll ∨ f.d3hot then s
    else
      let free := f.pba.filter fun v => !((f.vector v).mask)
      let s := s.modFun fn fun f => { f with pba := f.pba.filter fun v => (f.vector v).mask }
      runAll (fun v (s : State) => s.say (.msix fn v (f.vector v).addr (f.vector v).data)) free s

/-- A dword of a table entry written: address, data or vector control. -/
def MsixEntry.put (k : Nat) (w : Nat) (e : MsixEntry) : MsixEntry :=
  let a := e.addr.toNat
  if k = 0 then { e with addr := BitVec.ofNat 64 (a / 2 ^ 32 * 2 ^ 32 + w / 4 * 4) }
  else if k = 1 then { e with addr := BitVec.ofNat 64 (a % 2 ^ 32 + w * 2 ^ 32) }
  else if k = 2 then { e with data := BitVec.ofNat 32 w }
  else { e with mask := bitOf w 0 }

/-- A dword of a table entry read. -/
def MsixEntry.get (k : Nat) (e : MsixEntry) : Nat :=
  if k = 0 then e.addr.toNat % 2 ^ 32
  else if k = 1 then e.addr.toNat / 2 ^ 32
  else if k = 2 then e.data.toNat
  else b2n e.mask

/-- One dword of the MSI-X table. -/
def State.msixWrite (fn off : Nat) (w : Nat) (s : State) : State :=
  let v := off / 16
  (s.modFun fn fun f => f.setVector ((f.vector v).put (off / 4 % 4) w)).sendPending fn

/-- A dword of the MSI-X table or of the pending-bit array, at its offset in BAR0. -/
def Fun.msixRead (f : Fun) (off : Nat) : Nat :=
  if off < 0x88000 then (f.vector ((off - 0x80000) / 16)).get (off / 4 % 4)
  else
    let base := (off - 0x88000) * 8
    sumN ((List.range 32).map fun i => at' (b2n (f.pba.contains (base + i))) i)

/-! ## BAR0 (R235, R237) -/

/-- An access to BAR0. The MSI-X structures take aligned accesses of 4 or 8 bytes; a read of a doorbell, and of what is reserved,
returns 0. -/
def State.bar0 (fn : Nat) (write : Bool) (off size v : Nat) (s : State) : State :=
  match s.funs[fn]? with
  | none => s
  | some f =>
    let zeros := fun (s : State) => if write then s else s.completeData fn (List.replicate size 0) false
    if f.d3hot then (if write then s else s.unsupported fn)
    else if off < 0x10000 then s.regAccess fn write off size (BitVec.ofNat 32 v)
    else if 0x80000 ≤ off ∧ off < 0x88100 ∧ !s.fatal ∧ (size = 4 ∨ size = 8) ∧ off % size = 0 then
      if write then
        if 0x88000 ≤ off then s
        else if size = 4 then s.msixWrite fn (off - 0x80000) (fld v 31 0)
        else (s.msixWrite fn (off - 0x80000) (fld v 31 0)).msixWrite fn (off - 0x80000 + 4) (fld v 63 32)
      else
        s.completeData fn (toLE 4 (f.msixRead off) ++ (if size = 8 then toLE 4 (f.msixRead (off + 4)) else [])) false
    else if 0x100000 ≤ off ∧ off < 0x120000 then
      if write then s.doorbell fn (off - 0x100000) size v
      else if s.fatal then s.unsupported fn
      else zeros s
    else zeros s

/-! ## Apertures (R240 to R242) -/

/-- The parts of a span of window space, each in its own window; none when the span leaves it. -/
def windowParts (wins : List (Nat × Nat)) : Nat → Nat → Nat → Option (List (Nat × Nat))
  | 0, _, n => if n = 0 then some [] else none
  | fuel + 1, o, n =>
    if n = 0 then some []
    else
      match windowAddr wins o with
      | none => none
      | some a =>
        let k := min n (67108864 - o % 67108864)
        (windowParts wins fuel (o + k) (n - k)).map fun ps => (a, k) :: ps

/-- Whether a function's apertures are closed: its tenant domain is being reset, or the device is FATAL (R242, R382). -/
def State.apertureShut (s : State) (fn : Nat) : Bool :=
  decide (s.fnState fn = .resetting) || decide (s.fnState fn = .fatal)

/-- An aperture access outside what the function has (R242). -/
def State.apertureMiss (fn : Nat) (write : Bool) (s : State) : State :=
  let s := s.modFun fn fun f => { f with unsupported := satInc f.unsupported }
  if write then s.aerAdvisory fn else s.unsupported fn

/-- An aperture read of some parts of a memory. -/
def State.apertureRead (fn : Nat) (t : Target) (ps : List (Nat × Nat)) (errs : List EccHit) (s : State) : State :=
  let s := runAll (fun (p : Nat × Nat) (s : State) => s.takeHits t (hitsIn p.1 p.2 errs)) ps s
  let bad := ps.any fun p => s.poisoned t p.1 p.2
  let s := runAll (fun (p : Nat × Nat) (s : State) => s.countUes t p.1 p.2) ps s
  s.completeData fn (ps.flatMap fun p => s.rd t p.1 p.2) bad

/-- An aperture write of some parts of a memory; a refused part of a Reservoir word sets Uncorrectable Internal Error (R44). -/
def State.apertureWrite (fn : Nat) (t : Target) (errs : List EccHit) : List (Nat × Nat) → List Byte → State → State
  | [], _, s => s
  | p :: ps, bs, s =>
    let (bad, s) := (s.takeHits t (hitsPartly p.1 p.2 errs)).wr t p.1 (bs.take p.2)
    let s := if bad.isSome then s.aerUncorrectable fn 22 else s
    s.apertureWrite fn t errs ps (bs.drop p.2)

/-- An access through an aperture, once it is known where it goes. The range table areas of live contexts are closed to writes
(R308). -/
def State.aperture (fn : Nat) (write : Bool) (t : Target) (parts : Option (List (Nat × Nat))) (prot : Bool) (data : List Byte) (ep : Bool)
    (errs : List EccHit) (s : State) : State :=
  match s.funs[fn]? with
  | none => s
  | some f =>
    if f.d3hot ∨ s.apertureShut fn then (if write then s else s.unsupported fn)
    else if write ∧ prot then s.modFun fn fun f => { f with denied := satInc f.denied }
    else
      match parts with
      | none => s.apertureMiss fn write
      | some ps =>
        if !write then s.apertureRead fn t ps errs
        else if ps.any fun p => s.touchesRt fn t p.1 p.2 then s.apertureMiss fn true
        else if ep then s.aerUncorrectable fn 12
        else s.apertureWrite fn t errs ps data

/-- Whether a channel that some parts of DRAM touch is retraining. -/
def State.retrainingIn (s : State) (ps : List (Nat × Nat)) : Bool :=
  ps.any fun p => (List.range (p.2 / 128 + 2)).any fun k =>
    decide (p.1 / 128 * 128 + 128 * k < p.1 + p.2) && (s.dram[channelOf (p.1 / 128 * 128 + 128 * k)]?).any (·.retraining)

/-- BAR2 (R240). Inline ECC alone finds errors of stored words (R65). An access waits while its channel retrains, and later ones of
its function behind it (R68). -/
def State.bar2 (fn : Nat) (write : Bool) (off len : Nat) (data : List Byte) (ep : Bool) (errs : List EccHit) (s : State) : State :=
  match s.funs[fn]? with
  | none => s
  | some f =>
    if 2 ^ f.bar2Log2 < off + len then s
    else
      let parts := windowParts f.dramWin (len / 67108864 + 2) (f.aperture2.toNat % 1024 * 67108864 + off) len
      if s.retrainingIn (parts.getD []) ∨ !f.bar2Wait.isEmpty then
        s.modFun fn fun f => { f with bar2Wait := f.bar2Wait ++ [.bar2Access fn write off len data ep errs] }
      else s.aperture fn write .dram parts false (takePad 0 len data) ep (if s.part.inlineEcc then errs else [])

/-- A BAR2 access that waited, looked at again. -/
def State.bar2Again (c : Instr) (s : State) : State :=
  match c with
  | .bar2Access fn write off len data ep errs => s.bar2 fn write off len data ep errs
  | _ => s

/-- RETRAINING_DONE: the accesses that waited proceed in order (R68). -/
def execRetrainingDone (ch : Nat) (s : State) : Res :=
  if !((s.dram[ch]?).any (·.retraining)) then .next s
  else
    let waited := s.funs.flatMap (·.bar2Wait)
    let s := s.retrained ch
    let s : State := { s with funs := s.funs.map fun f => { f with bar2Wait := [] } }
    .next (runAll State.bar2Again waited s)

/-- BAR4 (R241): every granule of the span is the function's. -/
def State.bar4 (fn : Nat) (write : Bool) (off len : Nat) (data : List Byte) (ep : Bool) (errs : List EccHit) (s : State) : State :=
  if 0x10000000 < off + len then s
  else
    let parts := if s.ownsRsv fn off len then some [(off, len)] else none
    s.aperture fn write .reservoir parts (s.touchesProtected off len) (takePad 0 len data) ep errs

/-! ## Configuration space (R231; log entry 77) -/

/-- The length of a Completion Timeout by its code of Device Control 2, in microseconds: the longest of its range (R412). -/
def timeoutOf (code : Nat) : Option Nat :=
  match code with
  | 0 => some 50000
  | 1 => some 100
  | 2 => some 10000
  | 5 => some 55000
  | 6 => some 210000
  | 9 => some 900000
  | 10 => some 3500000
  | 13 => some 13000000
  | 14 => some 64000000
  | _ => none

/-- What a write of configuration space does to the registers that this chapter names: the power state, MSI-X control, the
Completion Timeout, the size of BAR2, and AER's status, masks and severities. What else a register holds is what it was last
given (`Fun.cfgLast`): Device Control, Device Control 3 and Link Control 2 stand at places 6, 7 and 8. -/
def Fun.configWrite (off : Nat) (v : Nat) (f : Fun) : Fun :=
  if off = Config.cfgPlace 0 then
    let f := if bitOf v 15 then { f with pme := false } else f
    if fld v 1 0 = 0 then { f with d3hot := false } else if fld v 1 0 = 3 then { f with d3hot := true } else f
  else if off = Config.cfgPlace 1 then { f with msixEnable := bitOf v 31, msixMaskAll := bitOf v 30 }
  else if off = Config.cfgPlace 2 then
    let f := { f with noTimeout := bitOf v 4 }
    (timeoutOf (fld v 3 0)).elim f fun t => { f with timeoutUs := t }
  else if off = Config.cfgPlace 3 then
    if 8 ≤ fld v 13 8 ∧ fld v 13 8 ≤ 16 then { f with bar2Log2 := 20 + fld v 13 8 } else f
  else if off = Config.cfgPlace 4 then { f with aerUncorr := f.aerUncorr &&& ~~~(BitVec.ofNat 32 v) }
  else if off = Config.cfgPlace 5 then { f with aerCorr := f.aerCorr &&& ~~~(BitVec.ofNat 32 v) }
  else if off = Config.cfgPlace 9 then { f with aerMask := BitVec.ofNat 32 v }
  else if off = Config.cfgPlace 10 then { f with aerSeverity := BitVec.ofNat 32 v }
  else if off = Config.cfgPlace 11 then { f with aerCorrMask := BitVec.ofNat 32 v }
  else f

/-- A dword of configuration space stored, its old value given up. -/
def Fun.configStore (off : Nat) (v : Word) (f : Fun) : Fun :=
  { f with cfgSpace := insertBy (·.1) (off, v) (f.cfgSpace.filter fun x => x.1 != off) }

/-- A dword of the base address registers as it reads: the address bits that lie above the size, as last written, and in the lower
dword the type, a 64-bit BAR, prefetchable but for BAR0 (R234). -/
def Fun.barDword (f : Fun) (off : Nat) : Nat :=
  let log2 := if off < 0x18 then 24 else if off < 0x20 then f.bar2Log2 else 28
  let v := (f.cfgSpace.find? fun x => x.1 == off).elim 0 fun x => x.2.toNat
  if off % 8 = 0 then v / 2 ^ (min 32 log2) * 2 ^ (min 32 log2) + (if off = 0x10 then 0x4 else 0xC)
  else v / 2 ^ (log2 - 32) * 2 ^ (log2 - 32)

/-- The status of a function's DOE mailbox: Busy, Error, Data Object Ready (R254, R255; log entry 77). -/
def Fun.doeStatus (f : Fun) : Nat := at' (b2n !f.doeRsp.isEmpty) 31 + at' (b2n f.doeError) 2 + b2n f.doeReq.isSome

/-- A read of configuration space: the device's fixed ID; the class code is 0x03_0200; of a dword that nothing here names, the bits that a write
changes are the last ones written and the others are free (log entry 77). -/
def State.configRead (_fn off : Nat) (f : Fun) (s : State) : Nat × State :=
  let (k, s) := s.fresh
  let n :=
    if off = 0x00 then (Config.cfgWord 0 0).toNat
    else if 0x10 ≤ off ∧ off < 0x28 then f.barDword off
    else if off = 0x08 then at' 0x030200 8 + (Config.cfgWord 0 8).toNat % 256
    else if off = Config.cfgPlace 0 then
       (Config.cfgWord k off).toNat / 65536 * 65536 + at' (b2n f.pme) 15 + at' (b2n ((f.cfgLast 0).any fun v => bitOf v 8)) 8 +
        at' (fld (Config.cfgWord k off).toNat 7 2) 2 + (if f.d3hot then 3 else 0)
    else if off = Config.cfgPlace 1 then
      at' (b2n f.msixEnable) 31 + at' (b2n f.msixMaskAll) 30 + (Config.cfgWord k off).toNat % 2 ^ 30
    else if off = Config.cfgPlace 3 then
      (Config.cfgWord k off).toNat / 2 ^ 14 * 2 ^ 14 + at' (f.bar2Log2 - 20) 8 + (Config.cfgWord k off).toNat % 256
    else if off = Config.cfgPlace 4 then f.aerUncorr.toNat
    else if off = Config.cfgPlace 5 then f.aerCorr.toNat
    else if off = Config.cfgPlace 9 then f.aerMask.toNat
    else if off = Config.cfgPlace 10 then f.aerSeverity.toNat
    else if off = Config.cfgPlace 11 then f.aerCorrMask.toNat
    else if off = Config.cfgPlace 12 then f.doeStatus
    else
      let m := Config.cfgMask off
      let old := match f.cfgSpace.find? fun x => x.1 == off with
        | some x => x.2
        | none => Config.cfgWord k off
      ((old &&& m) ||| (Config.cfgWord k off &&& ~~~m)).toNat
  (n % 2 ^ 32, s)

/-- CONFIG_ACCESS's effect: a configuration request of one dword. A function that returns to D0, or whose MSI-X is unmasked,
sends what is pending. -/
def State.config (fn : Nat) (write : Bool) (off : Nat) (v : Word) (s : State) : State :=
  let off := off / 4 * 4
  match s.funs[fn]? with
  | none => s
  | some f =>
    if write then
      (s.modFun fn fun f => (f.configWrite off v.toNat).configStore off v).sendPending fn
    else
      let (n, s) := s.configRead fn off f
      s.completeData fn (toLE 4 n) false

/-! ## The device's own requests (R412, R413) -/

/-- A request of the device ends: with data, or in LINK_ERROR. A flush read counts as completed either way. -/
def State.requestEnds (r : NpReq) (err : Option FaultKind) (s : State) : State :=
  if r.owner.isFlush then s.flushed r
  else
    match r.owner with
    | .group c slot => ((s.endRequest r.tag).groupAnswered c slot r.tag err).orphanFault r.orphan err
    | _ => s.endRequest r.tag

/-- The data of a completion, as the device's view of memory across the link. -/
def State.linkData (r : NpReq) (data : List Byte) (s : State) : State :=
  s.modMem fun m => { m with bus := writeBytes r.addr (takePad 0 r.len data) m.bus }

/-- COMPLETION_RECEIVED (R412): Unsupported Request and Completer Abort end the request in LINK_ERROR. -/
def execCompletionReceived (tag : Nat) (st : CplStatus) (data : List Byte) (s : State) : Res :=
  match s.pcie.reqs.find? fun r => r.tag == tag with
  | none => .next s
  | some r =>
    if !s.pcie.linkUp ∨ !r.issued then .next s
    else
      match st with
      | .success => .next ((s.linkData r data).requestEnds r none)
      | .unsupported => .next ((s.aerUncorrectable r.fn 20).requestEnds r (some .linkError))
      | .abort => .next ((s.aerUncorrectable r.fn 15).requestEnds r (some .linkError))

/-- COMPLETION_TIMEOUT (R412): with Completion Timeout Disabled nothing ends. -/
def execCompletionTimeout (tag : Nat) (s : State) : Res :=
  match s.pcie.reqs.find? fun r => r.tag == tag with
  | none => .next s
  | some r =>
    if (s.funs[r.fn]?).any (·.noTimeout) ∨ !r.issued then .next s
    else .next ((s.aerUncorrectable r.fn 14).requestEnds r (some .linkError))

/-! ## The link's state (R257, R356) -/

/-- LINK_RECOVERY: the link enters Recovery; what it carries is held up and nothing is lost. -/
def execLinkRecovery (s : State) : Res :=
  .next (if s.pcie.linkUp then s.modPcie fun p => { p with recoveries := satInc p.recoveries } else s)

/-- The target of function 0's Link Control 2, which the host sets; without one the highest rate (R231). -/
def State.targetRate (s : State) : Nat :=
  match ((s.funs[0]?).bind fun f => f.cfgLast 8).map fun v => fld v 3 0 with
  | none => 6
  | some 0 => 6
  | some n => n

/-- PCIE_LINK_TRAINED: the link is up at no more than the rate and width that PCI_LINK_CFG offers (R257) and the rate that the host
sets (R231). -/
def execPcieLinkTrained (rate : BitVec 4) (width : BitVec 3) (s : State) : Res :=
  if s.aon.mode = .off ∨ s.aon.mode = .s3 ∨ s.aon.mode = .wakingS3 ∨ rate = 0 ∨ !([1, 2, 4].contains width.toNat) then .next s
  else
    .next (s.modPcie fun p =>
      { p with linkUp := true, rate := BitVec.ofNat 4 (min rate.toNat (min s.targetRate (fld p.cfg.toNat 3 0))),
               width := BitVec.ofNat 3 (min width.toNat (fld p.cfg.toNat 6 4)), l0pWidth := 0, pm := 0 })

/-- LINK_POWER_STATE_CHANGE: L0p only while it is offered. -/
def execLinkPowerStateChange (pm l0pWidth : BitVec 3) (s : State) : Res :=
  if !s.pcie.linkUp ∨ 4 < pm.toNat ∨ (pm = 1 ∧ !(bitOf s.pcie.cfg.toNat 7)) then .next s
  else .next (s.modPcie fun p => { p with pm := pm, l0pWidth := if pm = 1 then l0pWidth else 0 })

end Sys2Proof.Machine
end

