-- ==== Sys2Proof/Machine/NetLoad.lean ====
section
/-! DEFINITION. Network images and the packets that load, run and release them: NET_LOAD (R142 to R156), NET_RUN (R158, R160,
R223) and NET_UNLOAD (R157). -/

namespace Sys2Proof.Machine

/-! ## The image (R150 to R152) -/

/-- n bytes at an offset of an image, as a number. -/
def imgLE (img : List Byte) (off n : Nat) : Nat := ofLE ((img.drop off).take n)

/-- The layer descriptor of 128 bytes (R152). -/
def parseLayerDesc (bs : List Byte) : LayerDesc :=
  let d (o : Nat) : Nat := imgLE bs o 4
  let q (o : Nat) : BitVec 64 := BitVec.ofNat 64 (imgLE bs o 8)
  let lo (o : Nat) : Nat := fld (d o) 15 0
  let hi (o : Nat) : Nat := fld (d o) 31 16
  { op := fld (d 0) 7 0, aFmt := fld (d 0) 15 8, wFmt := fld (d 0) 23 16, oFmt := fld (d 0) 31 24, group := lo 4,
    biasEn := bitOf (d 4) 16, scaleEn := bitOf (d 4) 17, actEn := bitOf (d 4) 18, residualEn := bitOf (d 4) 19,
    sparse := bitOf (d 4) 20, broadcastC := bitOf (d 4) 21, aRef := q 8, wRef := q 0x10, oRef := q 0x18, rRef := q 0x20,
    tRef := q 0x28, inH := lo 0x30 + 1, inW := hi 0x30 + 1, inC := lo 0x34 + 1, outC := hi 0x34 + 1, outH := lo 0x38 + 1,
    outW := hi 0x38 + 1, n := lo 0x3C + 1, groups := hi 0x3C + 1, aRow := d 0x40, oRow := d 0x44, aN := d 0x48, oN := d 0x4C,
    kh := fld (d 0x50) 3 0 + 1, kw := fld (d 0x50) 7 4 + 1, sh := fld (d 0x50) 10 8 + 1, sw := fld (d 0x50) 13 11 + 1,
    dh := fld (d 0x50) 16 14 + 1, dw := fld (d 0x50) 19 17 + 1, padT := fld (d 0x50) 23 20, padL := fld (d 0x50) 27 24,
    inZero := signedOf 16 (lo 0x54), outZero := signedOf 16 (hi 0x54), p0 := BitVec.ofNat 32 (d 0x58),
    p1 := BitVec.ofNat 32 (d 0x5C), p2 := BitVec.ofNat 32 (d 0x60), p3 := BitVec.ofNat 32 (d 0x64), workset := d 0x68,
    weightBytes := d 0x6C, timeNs := d 0x70, timeLayerNs := d 0x74 }

/-- The reserved fields of a layer descriptor are zero (R152; log entry 56). -/
def layerReservedZero (bs : List Byte) : Bool :=
  fld (imgLE bs 4 4) 31 22 == 0 && fld (imgLE bs 0x50 4) 31 28 == 0 && imgLE bs 0x78 8 == 0

/-- A binding table entry of 32 bytes (R150). -/
def parseBinding (bs : List Byte) : Binding :=
  { fmt := imgLE bs 0 1, output := bitOf (imgLE bs 0 4) 8, n := imgLE bs 4 2 + 1, h := imgLE bs 6 2 + 1,
    w := imgLE bs 8 2 + 1, c := imgLE bs 0xA 2 + 1, rowStride := imgLE bs 0xC 4, bytes := imgLE bs 0x10 4 }

/-- A binding table entry obeys R142 and R150. -/
def bindingOk (bs : List Byte) : Bool :=
  netKnown (imgLE bs 0 1) && fld (imgLE bs 0 4) 31 9 == 0 && imgLE bs 0x14 12 == 0

/-- A tensor reference obeys R151. -/
def refOk (binds : Nat) (r : BitVec 64) : Bool :=
  let v := r.toNat
  let b := fld v 51 48
  fld v 63 62 == 0 && fld v 59 52 == 0 && (if fld v 61 60 = 2 then decide (b < binds) else b == 0) && fld v 3 0 == 0

/-- The formats of a compute layer form a pair of R146. -/
def pairOk (a w : Nat) (sparse : Bool) : Bool :=
  let int8 := a == 1 || a == 2
  if sparse then (int8 && w == 1) || (isF8 a && [0x20, 0x21, 0x22, 0x23, 0x25].contains w)
  else (int8 && (w == 1 || w == 3)) || (a == 3 && w == 3) || (isF8 a && (isF8 w || w == 0x24)) || (a == 0x24 && w == 0x24) ||
    (a == 0x18 && w == 0x18) || (a == 0x19 && w == 0x19)

/-- The operation is a compute operation (R147). -/
def isCompute (op : Nat) : Bool := op == 1 || op == 2 || op == 3

/-- The layer has a second operand W (R147). -/
def LayerDesc.usesW (l : LayerDesc) : Bool := isCompute l.op || (l.op == 4 && fld l.p0.toNat 2 0 != 5)

/-- The layer has an operand R: its residual, or the V of an attention. -/
def LayerDesc.usesR (l : LayerDesc) : Bool := l.residualEn || l.op == 3

/-- The layer reads an operand block, or a mask, at T_REF (R147, R149). -/
def LayerDesc.usesT (l : LayerDesc) : Bool := l.biasEn || l.scaleEn || l.actEn || (l.op == 3 && bitOf l.p3.toNat 1)

/-- The formats of a layer: those that it uses are listed, the others are 0, and a compute layer's form a pair (R142, R146,
R147, R152). -/
def LayerDesc.formatsOk (l : LayerDesc) : Bool :=
  if l.op = 0x10 then !l.sparse && [l.aFmt, l.wFmt, l.oFmt].all fun f => f == 0 || netKnown f
  else
    netKnown l.aFmt && netKnown l.oFmt && (if l.usesW then netKnown l.wFmt else l.wFmt == 0) &&
      (if isCompute l.op then pairOk l.aFmt l.wFmt l.sparse else !l.sparse) &&
      (l.op != 3 || [l.aFmt, l.wFmt, l.oFmt].all fun f => isF8 f || isH f) &&
      (!l.sparse || l.op == 3 || l.inC / l.groups % 32 == 0)

/-- The references of a layer: well formed, and 0 where they are unused (R151, R152). -/
def LayerDesc.refsOk (l : LayerDesc) (binds : Nat) : Bool :=
  [l.aRef, l.wRef, l.oRef, l.rRef, l.tRef].all (refOk binds) &&
    (l.op == 0x10 || ((l.usesW || l.wRef == 0) && (l.usesR || l.rRef == 0) && (l.usesT || l.tRef == 0)))

/-- The parameters of the operation lie in their limits (R147). -/
def LayerDesc.paramsOk (l : LayerDesc) (kernelBytes : Nat) : Bool :=
  match l.op with
  | 0x01 => l.inC % l.groups == 0 && l.outC % l.groups == 0
  | 0x02 => l.kh == 1 && l.kw == 1 && l.groups == 1 && l.outH == l.inH && l.outW == l.inW
  | 0x03 =>
    let d := fld l.p1.toNat 8 0
    decide (fld l.p0.toNat 15 0 ≤ 8191) && decide (fld l.p0.toNat 31 16 ≤ 8191) && decide (32 ≤ d) && decide (d ≤ 256) &&
      d % 32 == 0 && fld l.p1.toNat 15 9 == 0 && decide (fld l.p1.toNat 31 16 ≤ 255) && fld l.p3.toNat 31 2 == 0
  | 0x04 => decide (fld l.p0.toNat 2 0 ≤ 5)
  | 0x05 => decide (fld l.p0.toNat 1 0 ≤ 2)
  | 0x06 => true
  | 0x07 => l.actEn
  | 0x08 => true
  | 0x10 =>
    let o := l.p0.toNat + 2 ^ 32 * l.p1.toNat
    o % 64 == 0 && decide (o + 64 ≤ kernelBytes)
  | _ => false

/-- A layer descriptor obeys R142 to R153, given the GROUP of the one before it. -/
def layerOk (binds kernelBytes before : Nat) (bs : List Byte) : Bool :=
  let l := parseLayerDesc bs
  layerReservedZero bs && l.formatsOk && l.refsOk binds && l.paramsOk kernelBytes && decide (before ≤ l.group) &&
    (l.op == 4 || !l.broadcastC) && decide (l.kh ≤ 11) && decide (l.kw ≤ 11) &&
    [l.aRow, l.oRow, l.aN, l.oN].all fun x => x % 16 == 0

/-- The first layer that fails, counted from i. -/
def firstBadLayer (binds kernelBytes : Nat) : Nat → Nat → List (List Byte) → Option Nat
  | _, _, [] => none
  | i, before, b :: bs =>
    if layerOk binds kernelBytes before b then firstBadLayer binds kernelBytes (i + 1) (parseLayerDesc b).group bs else some i

/-- A section lies within an image. -/
def sectionIn (bytes off n : Nat) : Bool := decide (off + n ≤ bytes)

/-- The header of an image is valid (R150, first check of R155), given the IMAGE_BYTES of the load descriptor. -/
def headerValid (img : List Byte) (bytes : Nat) : Bool :=
  let d (o : Nat) : Nat := imgLE img o 4
  d 0 == 0x4956534E && fld (d 4) 15 8 == 1 && d 8 == bytes && decide (256 ≤ bytes) && decide (1 ≤ d 0xC) && decide (d 0xC ≤ 4096) &&
    decide (fld (d 0x10) 4 1 ≤ 8) && decide (1 ≤ fld (d 0x14) 23 16) && decide (fld (d 0x14) 23 16 ≤ 16) &&
    d 0x18 % 128 == 0 && d 0x1C % 128 == 0 && d 0x30 % 4096 == 0 && d 0x24 % 128 == 0 && d 0x2C % 128 == 0 &&
    sectionIn bytes (d 0x18) (128 * d 0xC) && sectionIn bytes (d 0x1C) (32 * fld (d 0x14) 23 16) &&
    sectionIn bytes (d 0x20) (d 0x24) && sectionIn bytes (d 0x28) (d 0x2C) && sectionIn bytes (d 0x30) (d 0x34)

/-- Pieces of n bytes from an offset of an image. -/
def imgParts (img : List Byte) (off size n : Nat) : List (List Byte) :=
  (List.range n).map fun i => (img.drop (off + size * i)).take size

/-- A load descriptor of 64 bytes and an image, as the network that they make (R150, R154). -/
def parseNet (ld img : List Byte) (handle : Nat) : Net :=
  let d (o : Nat) : Nat := imgLE img o 4
  let mode := imgLE ld 0xC 4
  let n : Net :=
    { handle := handle, layerMode := bitOf mode 0, retry := if bitOf mode 1 then fld mode 4 2 else 1,
      image := imgLE ld 0 6, arena := imgLE ld 0x10 6, granules := imgLE ld 0x18 2, need := 0, tableB := d 0x24,
      kernelB := d 0x2C, weightB := d 0x34, weightOff := d 0x30, peakAct := d 0x38, scratch := d 0x3C,
      tileNet := bitOf (d 0x10) 0, haloReq := fld (d 0x10) 4 1, tileW := fld (d 0x14) 7 0, tileH := fld (d 0x14) 15 8,
      binds := (imgParts img (d 0x1C) 32 (fld (d 0x14) 23 16)).map parseBinding,
      layers := (imgParts img (d 0x18) 128 (d 0xC)).map parseLayerDesc }
  { n with need := n.needs }

/-- A tile network keeps its limits (R155). -/
def Net.tileOk (n : Net) : Bool :=
  !n.tileNet || (decide (n.layers.length ≤ 8) && decide (n.weightB ≤ 2097152) && !n.layerMode &&
    n.layers.all fun l => l.op != 0x10)

/-! ## NET_LOAD -/

/-- The arena lies in RESERVOIR ranges with the R and W rights, at a granule boundary (R154, R155). -/
def State.arenaOk (k : CtxKey) (n : Net) (s : State) : Bool × State :=
  if n.arena % granuleBytes ≠ 0 then (false, s)
  else
    match s.translate .headgate k n.arena (granuleBytes * n.granules) { r := true, w := true, a := false } with
    | (.error _, s) => (false, s)
    | (.ok ps, s) => (ps.all fun p => decide (p.tgt = .reservoir), s)

/-- The load record (R156). -/
def Net.record (n : Net) : List Byte :=
  let longest := maxN (n.layers.map fun l => if n.layerMode then l.timeLayerNs else l.timeNs)
  [n.handle, b2n n.layerMode, n.need, longest, n.layers.length, n.groupIds.length].flatMap (toLE 4) ++ List.replicate 40 0

/-- What NET_LOAD writes: the sections of the image into the arena, then the load record (R156). -/
def loadWrites (ld img : List Byte) (n : Net) : List (Nat × List Byte) :=
  let part (off bytes : Nat) : List Byte := (img.drop off).take bytes
  [(n.arena, part (imgLE img 0x20 4) n.tableB), (n.kernelBase, part (imgLE img 0x28 4) n.kernelB)] ++
    (if n.layerMode then [] else [(n.weightBase, part n.weightOff n.weightB)]) ++ [(imgLE ld 0x20 6, n.record)]

/-- One write of NET_LOAD. -/
def State.loadWrite (k : CtxKey) (w : Nat × List Byte) (s : State) : Acc :=
  match s.putVa .headgate k w.1 w.2 with
  | (some f, s) => (some (f.1, true, f.2), s)
  | (none, s) => (none, s)

/-- An access of NET_LOAD that faulted (R156, R414): the fault is recorded, and the packet replies ST_FAULTED with the record's
index (log entry 144). -/
def State.loadFault (p : Pk) (k : CtxKey) (f : FaultKind × Nat) (write : Bool) (s : State) : Verdict :=
  let (idx, s) := s.recordFault (s.readerFault f.1 1 write false 0x62 f.2 none p.origin k)
  .reply stFaulted idx s

/-- The NET_LOAD packet (R278, R282). -/
def netLoadSpec : OpSpec :=
  { opcode := 0x42, assigned := true, may := mayAny, mailbox := false, job := false, lostOk := false, len := fun _ => 8,
    reserved := fun _ => [(0x06, 15, 0), (0x08, 63, 0)] }

/-- The checks of R155 on an image that was read, then the load. An entry of the binding table that fails has no layer whose
index it could report: that detail is free (log entry 57). -/
def State.loadImage (p : Pk) (k : CtxKey) (c : Ctx) (ld img : List Byte) (s : State) : Verdict :=
  let d (o : Nat) : Nat := imgLE img o 4
  if !(headerValid img (imgLE ld 8 4)) then .reply stBadParam 0xFFFFFFFF s
  else if sha256 (img.drop 0x100) ≠ (img.drop 0x40).take 32 then .reply stVerifyFail 0 s
  else
    match firstBadLayer (fld (d 0x14) 23 16) (d 0x2C) 0 0 (imgParts img (d 0x18) 128 (d 0xC)) with
    | some i => .reply stBadParam i s
    | none =>
      if !((imgParts img (d 0x1C) 32 (fld (d 0x14) 23 16)).all bindingOk) then
        let (v, s) := s.fresh
        .reply stBadParam (Config.netWord v % 2 ^ 32) s
      else
        let n := parseNet ld img c.nextHandle
        if !n.tileOk then .reply stBadParam 0xFFFFFFFE s
        else
          match s.arenaOk k n with
          | (false, s) => .reply stBadParam 0xFFFFFFFD s
          | (true, s) =>
            if n.granules < n.need then .reply stTooLarge (n.need - n.granules) s
            else if 64 ≤ c.nets.length then .reply stNoResource 0 s
            else
              match inTurn (State.loadWrite k) (loadWrites ld img n) s with
              | (some f, s) => s.loadFault p k (f.1, f.2.2) true
              | (none, s) => .reply stOk n.handle (s.modCtx k fun c => { c with nets := c.nets ++ [n], nextHandle := c.nextHandle + 1 })

/-- NET_LOAD at its own checks (R154 to R156, R414). An image that does not lie at a 4 KiB boundary fails the first check (log
entry 58). -/
def netLoad (p : Pk) (s : State) : Verdict :=
  match p.key.bind fun k => (s.ctx? k).map fun c => (k, c) with
  | none => .reply stNotPermitted 0 s
  | some (k, c) =>
    match s.readNamed p (p.f 0 47 0) 64 64 with
    | (none, s) => .reply stBadParam 0x00 s
    | (some ld, s) =>
      if imgLE ld 0 6 % 4096 ≠ 0 then .reply stBadParam 0xFFFFFFFF s
      else
        match s.readFor p k (imgLE ld 0 6) (imgLE ld 8 4) with
        | (.error f, s) => s.loadFault p k f false
        | (.ok img, s) => s.loadImage p k c ld img

def execNetLoad (src : Src) (p : Packet) (s : State) : Res := .next (s.takePacket netLoadSpec netLoad src p)

/-! ## NET_UNLOAD -/

/-- The NET_UNLOAD packet (R278, R282). -/
def netUnloadSpec : OpSpec :=
  { opcode := 0x44, assigned := true, may := mayAny, mailbox := false, job := false, lostOk := false, len := fun _ => 8,
    reserved := fun _ => [(0x04, 95, 0)] }

/-- A run of a handle is armed or running (R157); one that has fired and waits counts as running. -/
def State.handleUsed (s : State) (k : CtxKey) (handle : Nat) : Bool :=
  s.jobs.any fun j => decide (j.key = k) && decide (j.outcome = .running) && (match j.run? with
    | some r => r.handle == handle
    | none => false)

/-- NET_UNLOAD at its own checks (R157). -/
def netUnload (p : Pk) (s : State) : Verdict :=
  match p.key with
  | none => .reply stNotPermitted 0 s
  | some k =>
    let h := p.f 0 31 0
    if (s.net? k h).isNone then .reply stBadParam 0x00 s
    else if s.handleUsed k h then .reply stNotPermitted 0 s
    else .reply stOk 0 (s.modCtx k fun c => { c with nets := c.nets.filter fun n => n.handle != h })

def execNetUnload (src : Src) (p : Packet) (s : State) : Res := .next (s.takePacket netUnloadSpec netUnload src p)

/-! ## NET_RUN -/

/-- A run descriptor of 160 bytes (R158), as a run that is not yet armed. -/
def parseRun (bs : List Byte) : NetRun :=
  let t := imgLE bs 4 4
  { handle := imgLE bs 0 4, trigger := fld t 1 0 == 1, port := fld t 4 2, vc := fld t 8 5, bindFrame := bitOf t 9,
    result := imgLE bs 8 6, binds := (List.range 16).map fun i => imgLE bs (0x18 + 8 * i) 6, armed := false, running := false,
    buffer := none, attempt := 0, group := 0, left := [], executed := 0, sat := 0, startStamp := 0, endStamp := 0,
    faulted := false, dealt := [] }

/-- The run descriptor is valid for a network (R158). -/
def runOk (bs : List Byte) (r : NetRun) (n : Net) : Bool :=
  !n.tileNet && decide (fld (imgLE bs 4 4) 1 0 ≤ 1) && (!r.trigger || decide (r.port ≤ 5)) && r.result % 32 == 0 &&
    imgLE bs 0x10 1 == n.binds.length

/-- NET_RUN at its own checks (R158, R160, R223, R414): a FRAME_END run is armed, any other starts when no earlier run of its
handle still runs. A descriptor whose contents fail is refused with the offset of its address (log entry 59). -/
def netRun (p : Pk) (s : State) : Verdict :=
  match p.key with
  | none => .reply stNotPermitted 0 s
  | some k =>
    match s.jobFenceOk k p with
    | (false, s) => .reply stBadParam 0x00 s
    | (true, s) =>
      match s.readNamed p (p.f 0x10 47 0) 160 32 with
      | (none, s) => .reply stBadParam 0x10 s
      | (some bs, s) =>
        let r := parseRun bs
        match s.net? k r.handle with
        | none => .reply stBadParam 0x10 s
        | some n =>
          if !(runOk bs r n) then .reply stBadParam 0x10 s
          else if r.trigger ∧ !(s.ownsChannel p.fn r.port r.vc) then .reply stNotPermitted 0 s
          else if r.trigger ∧ 16 ≤ (s.armedRuns r.port r.vc).length then .reply stNoResource 0 s
          else
            let (_, s) := s.startJob p k (.net { r with armed := r.trigger })
            .owed s.tryRuns

def execNetRun (src : Src) (p : Packet) (s : State) : Res := .next (s.takePacket (jobSpec 0x43) netRun src p)

end Sys2Proof.Machine
end

