-- ==== Sys2Proof/Machine/Tlp.lean ====
section
/-! DEFINITION. What arrives over the host link: register writes, doorbells, aperture accesses, configuration requests, resets of
a function and data objects (R231 to R263), and the exit from S1 that they wake (R346, R347). -/

namespace Sys2Proof.Machine

/-- A register operation of a function's own block, while its registers take writes. -/
def State.onFun (fn : Nat) (f : Fun → Fun) (s : State) : State := if s.regsLive fn then s.modFun fn f else s

/-- A register operation of the device's blocks by the host. -/
def State.onRegs (f : State → State) (s : State) : State := if !s.fatal && s.linkSide then f s else s

/-- MSIX_VECTOR_UNMASK: the vector's mask bit is cleared, and its pending message sent (R243). -/
def State.unmask (fn vec : Nat) (s : State) : State :=
  if s.regsLive fn then
    (s.modFun fn fun f => if vec < 2048 then f.setVector { f.vector vec with mask := false } else f).sendPending fn
  else s

/-- What a request that came over the link does. -/
def serveTlp (c : Instr) (s : State) : State :=
  match c with
  | .rsvEccClearLog => s.onRegs fun s => { s with rsv := s.rsv.clearLog }
  | .rsvEccClearCounts => s.onRegs fun s => { s with rsv := s.rsv.clearCounts }
  | .scEccClearLog => s.onRegs fun s => s.modSc Sc.clearLog
  | .scEccClearCounts => s.onRegs fun s => s.modSc Sc.clearCounts
  | .scModeWrite v => s.onRegs fun s => s.writeScMode v
  | .registerWrite fn off v => s.bar0 fn true off 4 v.toNat
  | .dspCtrlCommit p => s.onRegs fun s => s.onPipe p (Pipe.arm none)
  | .linkTrain p => s.onRegs fun s => s.onPipe p Pipe.trainStart
  | .auxGo p => s.onRegs fun s => s.onPipe p Pipe.auxStart
  | .camStart port => s.onRegs fun s => s.onPort port Port.start
  | .camStop port => s.onRegs fun s => s.onPort port Port.stop
  | .doorbellWrite fn off size v => if (s.funs[fn]?).any (·.d3hot) then s else s.doorbell fn off size v.toNat
  | .bar0Access fn write off size v => s.bar0 fn write off size v.toNat
  | .bar2Access fn write off len data ep errs => s.bar2 fn write off len data ep errs
  | .bar4Access fn write off len data ep errs => s.bar4 fn write off len data ep errs
  | .configAccess fn write off v => s.config fn write off v
  | .flr fn => s.flr fn
  | .doeDiscovery fn req => s.doeObject fn 0 req
  | .getVersion fn req => s.spdmObject fn 0x84 req
  | .getCapabilities fn req => s.spdmObject fn 0xE1 req
  | .negotiateAlgorithms fn req => s.spdmObject fn 0xE3 req
  | .getDigests fn req => s.spdmObject fn 0x81 req
  | .getCertificate fn req => s.spdmObject fn 0x82 req
  | .challenge fn req => s.spdmObject fn 0x83 req
  | .getMeasurements fn req => s.spdmObject fn 0xE0 req
  | .doeAbort fn => s.doeAbort fn
  | .fnErrClear fn => s.onFun fn Fun.clearErr
  | .mboxGo fn => s.onFun fn (Fun.mboxCtrl 1)
  | .testEnter fn => s.onFun fn (Fun.serviceCtrl 0x100)
  | .testExit fn => s.onFun fn (Fun.serviceCtrl 0x200)
  | .msixVectorUnmask fn vec => s.unmask fn vec
  | _ => s

/-- Whether the device is in S1, or entering a sleep or leaving one: a request over the link is then held. -/
def PowerMode.asleep (m : PowerMode) : Bool := [PowerMode.s1, .enteringS1, .leavingS1, .enteringS3].contains m

/-- A request over the link: in S1 it is held and wakes the device, which serves it after the exit (R346, R347). Without the link
there is none. -/
def State.tlp (c : Instr) (s : State) : State :=
  if !s.linkSide then s
  else if s.aon.mode.asleep then (s.modPcie fun p => { p with held := p.held ++ [c] }).wakeBy 4
  else serveTlp c s

/-- S1_EXIT: a wake source that arrived brings the device out; it is recorded, and the requests held meanwhile are served in
their order. -/
def execS1Exit (s : State) : Res :=
  match s.aon.mode, s.aon.wakePending with
  | .s1, some src => .next (runAll serveTlp s.pcie.held ((s.leaveS1 src).modPcie fun p => { p with held := [] }))
  | _, _ => .next s

/-! ## The commands of the link -/

/-- RSV_ECC_CTRL.CLEAR_LOG (R70). -/
def execRsvEccClearLog (s : State) : Res := .next (s.tlp (.rsvEccClearLog))

/-- RSV_ECC_CTRL.CLEAR_COUNTS (R70). -/
def execRsvEccClearCounts (s : State) : Res := .next (s.tlp (.rsvEccClearCounts))

/-- SC_ECC_CTRL.CLEAR_LOG (R70). -/
def execScEccClearLog (s : State) : Res := .next (s.tlp (.scEccClearLog))

/-- SC_ECC_CTRL.CLEAR_COUNTS (R70). -/
def execScEccClearCounts (s : State) : Res := .next (s.tlp (.scEccClearCounts))

/-- A write of SC_MODE (R58). -/
def execScModeWrite (v : Word) (s : State) : Res := .next (s.tlp (.scModeWrite v))

/-- A write of one register word (R32, R235). -/
def execRegisterWrite (fn : Nat) (off : Nat) (v : Word) (s : State) : Res := .next (s.tlp (.registerWrite fn off v))

/-- DSP_CTRL.COMMIT (R210). -/
def execDspCtrlCommit (p : Nat) (s : State) : Res := .next (s.tlp (.dspCtrlCommit p))

/-- DSP_LINK.TRAIN (R229). -/
def execLinkTrain (p : Nat) (s : State) : Res := .next (s.tlp (.linkTrain p))

/-- DSP_AUX_CMD.GO (R229). -/
def execAuxGo (p : Nat) (s : State) : Res := .next (s.tlp (.auxGo p))

/-- CAM_PORT_CTRL.START (R230). -/
def execCamStart (port : Nat) (s : State) : Res := .next (s.tlp (.camStart port))

/-- CAM_PORT_CTRL.STOP (R230). -/
def execCamStop (port : Nat) (s : State) : Res := .next (s.tlp (.camStop port))

/-- A doorbell write, at its offset in the doorbell range (R261). -/
def execDoorbellWrite (fn off size : Nat) (v : BitVec 64) (s : State) : Res := .next (s.tlp (.doorbellWrite fn off size v))

/-- An access to BAR0 (R235). -/
def execBar0Access (fn : Nat) (write : Bool) (off size : Nat) (v : BitVec 64) (s : State) : Res := .next (s.tlp (.bar0Access fn write off size v))

/-- An access through BAR2 (R240). -/
def execBar2Access (fn : Nat) (write : Bool) (off len : Nat) (data : List Byte) (ep : Bool) (errs : List EccHit) (s : State) : Res := .next (s.tlp (.bar2Access fn write off len data ep errs))

/-- An access through BAR4 (R241). -/
def execBar4Access (fn : Nat) (write : Bool) (off len : Nat) (data : List Byte) (ep : Bool) (errs : List EccHit) (s : State) : Res := .next (s.tlp (.bar4Access fn write off len data ep errs))

/-- A configuration request (R231). -/
def execConfigAccess (fn : Nat) (write : Bool) (off : Nat) (v : Word) (s : State) : Res := .next (s.tlp (.configAccess fn write off v))

/-- A function-level reset (R233). -/
def execFlr (fn : Nat) (s : State) : Res := .next (s.tlp (.flr fn))

/-- A DOE Discovery object (R255). -/
def execDoeDiscovery (fn : Nat) (req : List Byte) (s : State) : Res := .next (s.tlp (.doeDiscovery fn req))

/-- SPDM GET_VERSION (R255). -/
def execGetVersion (fn : Nat) (req : List Byte) (s : State) : Res := .next (s.tlp (.getVersion fn req))

/-- SPDM GET_CAPABILITIES (R255). -/
def execGetCapabilities (fn : Nat) (req : List Byte) (s : State) : Res := .next (s.tlp (.getCapabilities fn req))

/-- SPDM NEGOTIATE_ALGORITHMS (R255). -/
def execNegotiateAlgorithms (fn : Nat) (req : List Byte) (s : State) : Res := .next (s.tlp (.negotiateAlgorithms fn req))

/-- SPDM GET_DIGESTS (R255). -/
def execGetDigests (fn : Nat) (req : List Byte) (s : State) : Res := .next (s.tlp (.getDigests fn req))

/-- SPDM GET_CERTIFICATE (R255). -/
def execGetCertificate (fn : Nat) (req : List Byte) (s : State) : Res := .next (s.tlp (.getCertificate fn req))

/-- SPDM CHALLENGE (R255). -/
def execChallenge (fn : Nat) (req : List Byte) (s : State) : Res := .next (s.tlp (.challenge fn req))

/-- SPDM GET_MEASUREMENTS (R255). -/
def execGetMeasurements (fn : Nat) (req : List Byte) (s : State) : Res := .next (s.tlp (.getMeasurements fn req))

/-- A DOE Abort (R255). -/
def execDoeAbort (fn : Nat) (s : State) : Res := .next (s.tlp (.doeAbort fn))

/-- FN_ERR_CTRL.CLEAR (R256). -/
def execFnErrClear (fn : Nat) (s : State) : Res := .next (s.tlp (.fnErrClear fn))

/-- FN_MBOX_CTRL.GO (R284). -/
def execMboxGo (fn : Nat) (s : State) : Res := .next (s.tlp (.mboxGo fn))

/-- FN_SERVICE.TEST_ENTER (R384). -/
def execTestEnter (fn : Nat) (s : State) : Res := .next (s.tlp (.testEnter fn))

/-- FN_SERVICE.TEST_EXIT (R384). -/
def execTestExit (fn : Nat) (s : State) : Res := .next (s.tlp (.testExit fn))

/-- An MSI-X vector unmasked (R243). -/
def execMsixVectorUnmask (fn vec : Nat) (s : State) : Res := .next (s.tlp (.msixVectorUnmask fn vec))

end Sys2Proof.Machine
end

