-- ==== Sys2Proof/Machine/Dispatch.lean ====
section
/-! DEFINITION. The meaning of every command: one arm for each constructor of Instr. -/

namespace Sys2Proof.Machine

/-- The effect of a command on everything but the queue of waiting commands. -/
def exec (i : Instr) (s : State) : Host.Outcome State Fault Refusal :=
  match i with
  | .skip c g w => Sys2Proof.Machine.execSkip c g w s
  | .endGroup c g w => Sys2Proof.Machine.execEndGroup c g w s
  | .jump c g w => Sys2Proof.Machine.execJump c g w s
  | .call c g w => Sys2Proof.Machine.execCall c g w s
  | .ret c g w => Sys2Proof.Machine.execRet c g w s
  | .sync c g w => Sys2Proof.Machine.execSync c g w s
  | .order c g w => Sys2Proof.Machine.execOrder c g w s
  | .cede c g w => Sys2Proof.Machine.execCede c g w s
  | .sval c g w => Sys2Proof.Machine.execSval c g w s
  | .dbgstop c g w => Sys2Proof.Machine.execDbgstop c g w s
  | .iadd c g w => Sys2Proof.Machine.execIadd c g w s
  | .isub c g w => Sys2Proof.Machine.execIsub c g w s
  | .imul c g w => Sys2Proof.Machine.execImul c g w s
  | .imulhi c g w => Sys2Proof.Machine.execImulhi c g w s
  | .imuladd c g w => Sys2Proof.Machine.execImuladd c g w s
  | .imin c g w => Sys2Proof.Machine.execImin c g w s
  | .imax c g w => Sys2Proof.Machine.execImax c g w s
  | .iabs c g w => Sys2Proof.Machine.execIabs c g w s
  | .and c g w => Sys2Proof.Machine.execAnd c g w s
  | .or c g w => Sys2Proof.Machine.execOr c g w s
  | .xor c g w => Sys2Proof.Machine.execXor c g w s
  | .not c g w => Sys2Proof.Machine.execNot c g w s
  | .shl c g w => Sys2Proof.Machine.execShl c g w s
  | .shr c g w => Sys2Proof.Machine.execShr c g w s
  | .fldx c g w => Sys2Proof.Machine.execFldx c g w s
  | .fldi c g w => Sys2Proof.Machine.execFldi c g w s
  | .bitcnt c g w => Sys2Proof.Machine.execBitcnt c g w s
  | .leadz c g w => Sys2Proof.Machine.execLeadz c g w s
  | .bitrev c g w => Sys2Proof.Machine.execBitrev c g w s
  | .iadd64 c g w => Sys2Proof.Machine.execIadd64 c g w s
  | .imuladdw c g w => Sys2Proof.Machine.execImuladdw c g w s
  | .icmp c g w => Sys2Proof.Machine.execIcmp c g w s
  | .pick c g w => Sys2Proof.Machine.execPick c g w s
  | .mov c g w => Sys2Proof.Machine.execMov c g w s
  | .fadd c g w => Sys2Proof.Machine.execFadd c g w s
  | .fmul c g w => Sys2Proof.Machine.execFmul c g w s
  | .fmuladd c g w => Sys2Proof.Machine.execFmuladd c g w s
  | .fmin c g w => Sys2Proof.Machine.execFmin c g w s
  | .fmax c g w => Sys2Proof.Machine.execFmax c g w s
  | .fcmp c g w => Sys2Proof.Machine.execFcmp c g w s
  | .frecip c g w => Sys2Proof.Machine.execFrecip c g w s
  | .frsqrt c g w => Sys2Proof.Machine.execFrsqrt c g w s
  | .fsqrt c g w => Sys2Proof.Machine.execFsqrt c g w s
  | .fexp2 c g w => Sys2Proof.Machine.execFexp2 c g w s
  | .flog2 c g w => Sys2Proof.Machine.execFlog2 c g w s
  | .fsin c g w => Sys2Proof.Machine.execFsin c g w s
  | .fcos c g w => Sys2Proof.Machine.execFcos c g w s
  | .hpadd c g w => Sys2Proof.Machine.execHpadd c g w s
  | .hpmul c g w => Sys2Proof.Machine.execHpmul c g w s
  | .hpmuladd c g w => Sys2Proof.Machine.execHpmuladd c g w s
  | .hpmin c g w => Sys2Proof.Machine.execHpmin c g w s
  | .hpmax c g w => Sys2Proof.Machine.execHpmax c g w s
  | .hpcmp c g w => Sys2Proof.Machine.execHpcmp c g w s
  | .dadd c g w => Sys2Proof.Machine.execDadd c g w s
  | .dmul c g w => Sys2Proof.Machine.execDmul c g w s
  | .dmuladd c g w => Sys2Proof.Machine.execDmuladd c g w s
  | .dcmp c g w => Sys2Proof.Machine.execDcmp c g w s
  | .dmin c g w => Sys2Proof.Machine.execDmin c g w s
  | .dmax c g w => Sys2Proof.Machine.execDmax c g w s
  | .convFF c g w => Sys2Proof.Machine.execConvFF c g w s
  | .convFI c g w => Sys2Proof.Machine.execConvFI c g w s
  | .convIF c g w => Sys2Proof.Machine.execConvIF c g w s
  | .ld c g w => Sys2Proof.Machine.execLd c g w s
  | .st c g w => Sys2Proof.Machine.execSt c g w s
  | .ldw c g w => Sys2Proof.Machine.execLdw c g w s
  | .stw c g w => Sys2Proof.Machine.execStw c g w s
  | .rmw c g w => Sys2Proof.Machine.execRmw c g w s
  | .rmwn c g w => Sys2Proof.Machine.execRmwn c g w s
  | .rmww c g w => Sys2Proof.Machine.execRmww c g w s
  | .ldsc c g w => Sys2Proof.Machine.execLdsc c g w s
  | .sample c g w => Sys2Proof.Machine.execSample c g w s
  | .fetch c g w => Sys2Proof.Machine.execFetch c g w s
  | .tilerd c g w => Sys2Proof.Machine.execTilerd c g w s
  | .tilewr c g w => Sys2Proof.Machine.execTilewr c g w s
  | .emit c g w => Sys2Proof.Machine.execEmit c g w s
  | .ray c g w => Sys2Proof.Machine.execRay c g w s
  | .rayresume c g w => Sys2Proof.Machine.execRayresume c g w s
  | .rayaccept c g w => Sys2Proof.Machine.execRayaccept c g w s
  | .rayTraversalDone c g visits => Sys2Proof.Machine.execRayTraversalDone c g visits s
  | .xlane c g w => Sys2Proof.Machine.execXlane c g w s
  | .preduce c g w => Sys2Proof.Machine.execPreduce c g w s
  | .pxfer c g w => Sys2Proof.Machine.execPxfer c g w s
  | .plogic c g w => Sys2Proof.Machine.execPlogic c g w s
  | .lreduce c g w => Sys2Proof.Machine.execLreduce c g w s
  | .unassignedInstruction c g op w => Sys2Proof.Machine.execUnassignedInstruction c g op w s
  | .faultReport n => Sys2Proof.Machine.execFaultReport n s
  | .kernelStop c => Sys2Proof.Machine.execKernelStop c s
  | .groupsParked fn ctx => Sys2Proof.Machine.execGroupsParked fn ctx s
  | .kernelDispatch c => Sys2Proof.Machine.execKernelDispatch c s
  | .clusterUnitEnd c => Sys2Proof.Machine.execClusterUnitEnd c s
  | .accessComplete e epoch how => Sys2Proof.Machine.execAccessComplete e epoch how s
  | .reservoirAccess who write addr len data errs => Sys2Proof.Machine.execReservoirAccess who write addr len data errs s
  | .reservoirAtomic who op wide addr x cmp errs => Sys2Proof.Machine.execReservoirAtomic who op wide addr x cmp errs s
  | .scrubLine errs => Sys2Proof.Machine.execScrubLine errs s
  | .systemCacheAccess st tgt a cacheable hint victim err => Sys2Proof.Machine.execSystemCacheAccess st tgt a cacheable hint victim err s
  | .sliceStore st tgt addr data cacheable hint victim => Sys2Proof.Machine.execSliceStore st tgt addr data cacheable hint victim s
  | .trackerIdleExpiry slice st => Sys2Proof.Machine.execTrackerIdleExpiry slice st s
  | .sliceFillComplete slice st how => Sys2Proof.Machine.execSliceFillComplete slice st how s
  | .writeAroundDrain slice => Sys2Proof.Machine.execWriteAroundDrain slice s
  | .writeBackAccepted slice tgt w => Sys2Proof.Machine.execWriteBackAccepted slice tgt w s
  | .sliceAtomic st tgt addr op wide x cmp cacheable found => Sys2Proof.Machine.execSliceAtomic st tgt addr op wide x cmp cacheable found s
  | .wayGroupPowerDown slice group => Sys2Proof.Machine.execWayGroupPowerDown slice group s
  | .wayGroupCleaned slice group => Sys2Proof.Machine.execWayGroupCleaned slice group s
  | .dramAccess write addr len data valid errs link allocates => Sys2Proof.Machine.execDramAccess write addr len data valid errs link allocates s
  | .dramRefresh r => Sys2Proof.Machine.execDramRefresh r s
  | .mr4Poll ch rate => Sys2Proof.Machine.execMr4Poll ch rate s
  | .dqsOscillatorCheck sub drift => Sys2Proof.Machine.execDqsOscillatorCheck sub drift s
  | .retraining ch => Sys2Proof.Machine.execRetraining ch s
  | .retrainingDone ch => Sys2Proof.Machine.execRetrainingDone ch s
  | .patrol errs => Sys2Proof.Machine.execPatrol errs s
  | .scModeWrite v => Sys2Proof.Machine.execScModeWrite v s
  | .registerWrite fn off v => Sys2Proof.Machine.execRegisterWrite fn off v s
  | .passStart f => Sys2Proof.Machine.execPassStart f s
  | .geometryBatchDone f half => Sys2Proof.Machine.execGeometryBatchDone f half s
  | .flushTilesStored f => Sys2Proof.Machine.execFlushTilesStored f s
  | .passComplete f => Sys2Proof.Machine.execPassComplete f s
  | .tileStore c tile => Sys2Proof.Machine.execTileStore c tile s
  | .quadDispatch f slice qx qy seq => Sys2Proof.Machine.execQuadDispatch f slice qx qy seq s
  | .fragmentArrive slice qx qy seq => Sys2Proof.Machine.execFragmentArrive slice qx qy seq s
  | .layerStart a => Sys2Proof.Machine.execLayerStart a s
  | .layerComplete a => Sys2Proof.Machine.execLayerComplete a s
  | .netRunRestart job => Sys2Proof.Machine.execNetRunRestart job s
  | .flumeGrant f c tile a => Sys2Proof.Machine.execFlumeGrant f c tile a s
  | .flumeAccess a c write off len data => Sys2Proof.Machine.execFlumeAccess a c write off len data s
  | .flumeRelease a => Sys2Proof.Machine.execFlumeRelease a s
  | .schedulePick e us => Sys2Proof.Machine.execSchedulePick e us s
  | .switchDrained e => Sys2Proof.Machine.execSwitchDrained e s
  | .makeResident fn ctx => Sys2Proof.Machine.execMakeResident fn ctx s
  | .slotOpen n us => Sys2Proof.Machine.execSlotOpen n us s
  | .slotClose n us => Sys2Proof.Machine.execSlotClose n us s
  | .slotLapse n us => Sys2Proof.Machine.execSlotLapse n us s
  | .remoteWaitPoll e how => Sys2Proof.Machine.execRemoteWaitPoll e how s
  | .evictedFencePoll fn ctx how => Sys2Proof.Machine.execEvictedFencePoll fn ctx how s
  | .vblankStart p us => Sys2Proof.Machine.execVblankStart p us s
  | .flatWriteDone p => Sys2Proof.Machine.execFlatWriteDone p s
  | .pixelUnderrun p => Sys2Proof.Machine.execPixelUnderrun p s
  | .protectCrcCheck p => Sys2Proof.Machine.execProtectCrcCheck p s
  | .dspCtrlCommit p => Sys2Proof.Machine.execDspCtrlCommit p s
  | .linkTrain p => Sys2Proof.Machine.execLinkTrain p s
  | .auxGo p => Sys2Proof.Machine.execAuxGo p s
  | .auxTransactionDone p result data => Sys2Proof.Machine.execAuxTransactionDone p result data s
  | .hpdEvent p kind => Sys2Proof.Machine.execHpdEvent p kind s
  | .trainingLost p => Sys2Proof.Machine.execTrainingLost p s
  | .camStart port => Sys2Proof.Machine.execCamStart port s
  | .camStop port => Sys2Proof.Machine.execCamStop port s
  | .csiPacket port vc line => Sys2Proof.Machine.execCsiPacket port vc line s
  | .frameStart port vc => Sys2Proof.Machine.execFrameStart port vc s
  | .frameEndPacket port vc => Sys2Proof.Machine.execFrameEndPacket port vc s
  | .frameEnd port vc us => Sys2Proof.Machine.execFrameEnd port vc us s
  | .doorbellWrite fn off size v => Sys2Proof.Machine.execDoorbellWrite fn off size v s
  | .bar0Access fn write off size v => Sys2Proof.Machine.execBar0Access fn write off size v s
  | .bar2Access fn write off len data ep errs => Sys2Proof.Machine.execBar2Access fn write off len data ep errs s
  | .bar4Access fn write off len data ep errs => Sys2Proof.Machine.execBar4Access fn write off len data ep errs s
  | .msixVectorUnmask fn vec => Sys2Proof.Machine.execMsixVectorUnmask fn vec s
  | .configAccess fn write off v => Sys2Proof.Machine.execConfigAccess fn write off v s
  | .flr fn => Sys2Proof.Machine.execFlr fn s
  | .completionReceived tag st data => Sys2Proof.Machine.execCompletionReceived tag st data s
  | .completionTimeout tag => Sys2Proof.Machine.execCompletionTimeout tag s
  | .doeDiscovery fn req => Sys2Proof.Machine.execDoeDiscovery fn req s
  | .getVersion fn req => Sys2Proof.Machine.execGetVersion fn req s
  | .getCapabilities fn req => Sys2Proof.Machine.execGetCapabilities fn req s
  | .negotiateAlgorithms fn req => Sys2Proof.Machine.execNegotiateAlgorithms fn req s
  | .getDigests fn req => Sys2Proof.Machine.execGetDigests fn req s
  | .getCertificate fn req => Sys2Proof.Machine.execGetCertificate fn req s
  | .challenge fn req => Sys2Proof.Machine.execChallenge fn req s
  | .getMeasurements fn req => Sys2Proof.Machine.execGetMeasurements fn req s
  | .doeAbort fn => Sys2Proof.Machine.execDoeAbort fn s
  | .fnErrClear fn => Sys2Proof.Machine.execFnErrClear fn s
  | .mboxGo fn => Sys2Proof.Machine.execMboxGo fn s
  | .unassignedOpcode src op p => Sys2Proof.Machine.execUnassignedOpcode src op p s
  | .jobEnd job => Sys2Proof.Machine.execJobEnd job s
  | .leveeSet src p => Sys2Proof.Machine.execLeveeSet src p s
  | .sluiceLoad src p => Sys2Proof.Machine.execSluiceLoad src p s
  | .powerState src p => Sys2Proof.Machine.execPowerState src p s
  | .fwStage src p => Sys2Proof.Machine.execFwStage src p s
  | .fwStageWritten ok => Sys2Proof.Machine.execFwStageWritten ok s
  | .fwActivate src p => Sys2Proof.Machine.execFwActivate src p s
  | .fwActivateCancel src p => Sys2Proof.Machine.execFwActivateCancel src p s
  | .handoverDone proc how => Sys2Proof.Machine.execHandoverDone proc how s
  | .marginReplan src p => Sys2Proof.Machine.execMarginReplan src p s
  | .protectSet src p => Sys2Proof.Machine.execProtectSet src p s
  | .ctxCreate src p => Sys2Proof.Machine.execCtxCreate src p s
  | .ctxDestroy src p => Sys2Proof.Machine.execCtxDestroy src p s
  | .teardownDrained fn ctx => Sys2Proof.Machine.execTeardownDrained fn ctx s
  | .flushReadComplete tag => Sys2Proof.Machine.execFlushReadComplete tag s
  | .queueCreate src p => Sys2Proof.Machine.execQueueCreate src p s
  | .queueDestroy src p => Sys2Proof.Machine.execQueueDestroy src p s
  | .ctxReplay src p => Sys2Proof.Machine.execCtxReplay src p s
  | .rangeMap src p => Sys2Proof.Machine.execRangeMap src p s
  | .rangeUnmap src p => Sys2Proof.Machine.execRangeUnmap src p s
  | .unmapDrained fn ctx => Sys2Proof.Machine.execUnmapDrained fn ctx s
  | .rangeCheck src p => Sys2Proof.Machine.execRangeCheck src p s
  | .rangeWalk who fn ctx va => Sys2Proof.Machine.execRangeWalk who fn ctx va s
  | .fenceInit src p => Sys2Proof.Machine.execFenceInit src p s
  | .fenceSignal src p => Sys2Proof.Machine.execFenceSignal src p s
  | .fenceWait src p => Sys2Proof.Machine.execFenceWait src p s
  | .passSubmit src p => Sys2Proof.Machine.execPassSubmit src p s
  | .kernelSubmit src p => Sys2Proof.Machine.execKernelSubmit src p s
  | .netLoad src p => Sys2Proof.Machine.execNetLoad src p s
  | .netRun src p => Sys2Proof.Machine.execNetRun src p s
  | .netUnload src p => Sys2Proof.Machine.execNetUnload src p s
  | .copy src p => Sys2Proof.Machine.execCopy src p s
  | .copyChunk e => Sys2Proof.Machine.execCopyChunk e s
  | .copyChunkDone e how => Sys2Proof.Machine.execCopyChunkDone e how s
  | .dspLayerSet src p => Sys2Proof.Machine.execDspLayerSet src p s
  | .dspCommit src p => Sys2Proof.Machine.execDspCommit src p s
  | .camConfig src p => Sys2Proof.Machine.execCamConfig src p s
  | .camBind src p => Sys2Proof.Machine.execCamBind src p s
  | .powerVote src p => Sys2Proof.Machine.execPowerVote src p s
  | .telemetryRead src p => Sys2Proof.Machine.execTelemetryRead src p s
  | .clockCorrelate src p => Sys2Proof.Machine.execClockCorrelate src p s
  | .attest src p => Sys2Proof.Machine.execAttest src p s
  | .resetDomain src p => Sys2Proof.Machine.execResetDomain src p s
  | .dumpCollect src p => Sys2Proof.Machine.execDumpCollect src p s
  | .progressRead src p => Sys2Proof.Machine.execProgressRead src p s
  | .nop src p => Sys2Proof.Machine.execNop src p s
  | .resetComplete n => Sys2Proof.Machine.execResetComplete n s
  | .resetLimitExpiry n => Sys2Proof.Machine.execResetLimitExpiry n s
  | .testEnter fn => Sys2Proof.Machine.execTestEnter fn s
  | .testExit fn => Sys2Proof.Machine.execTestExit fn s
  | .telemetryPageWrite fn => Sys2Proof.Machine.execTelemetryPageWrite fn s
  | .flashLogAppend type payload ok => Sys2Proof.Machine.execFlashLogAppend type payload ok s
  | .powerWindow mw => Sys2Proof.Machine.execPowerWindow mw s
  | .sensorSample temps => Sys2Proof.Machine.execSensorSample temps s
  | .droopStretch island => Sys2Proof.Machine.execDroopStretch island s
  | .severeDroop island => Sys2Proof.Machine.execSevereDroop island s
  | .severeDroopEnd island => Sys2Proof.Machine.execSevereDroopEnd island s
  | .voltageTrim island slack => Sys2Proof.Machine.execVoltageTrim island slack s
  | .pointChange island => Sys2Proof.Machine.execPointChange island s
  | .a2Entry e => Sys2Proof.Machine.execA2Entry e s
  | .a2Wake e => Sys2Proof.Machine.execA2Wake e s
  | .replanDone fmax logOk => Sys2Proof.Machine.execReplanDone fmax logOk s
  | .s3Wake src crcOk => Sys2Proof.Machine.execS3Wake src crcOk s
  | .i3cAddressMatch i2c => Sys2Proof.Machine.execI3cAddressMatch i2c s
  | .perst level => Sys2Proof.Machine.execPerst level s
  | .corePgood level => Sys2Proof.Machine.execCorePgood level s
  | .coldBoot mbist cfgCrcOk => Sys2Proof.Machine.execColdBoot mbist cfgCrcOk s
  | .mbistComplete failing => Sys2Proof.Machine.execMbistComplete failing s
  | .watchdogExpiry proc ramOk => Sys2Proof.Machine.execWatchdogExpiry proc ramOk s
  | .processorException proc ramOk => Sys2Proof.Machine.execProcessorException proc ramOk s
  | .processorRestartDone proc => Sys2Proof.Machine.execProcessorRestartDone proc s
  | .dpLinkTrainingDone p ok => Sys2Proof.Machine.execDpLinkTrainingDone p ok s
  | .pcieLinkTrained rate width => Sys2Proof.Machine.execPcieLinkTrained rate width s
  | .linkPowerStateChange pm l0pWidth => Sys2Proof.Machine.execLinkPowerStateChange pm l0pWidth s
  | .deskewBurst port result => Sys2Proof.Machine.execDeskewBurst port result s
  | .scAllIdle50ms => Sys2Proof.Machine.execScAllIdle50ms s
  | .rsvEccClearLog => Sys2Proof.Machine.execRsvEccClearLog s
  | .rsvEccClearCounts => Sys2Proof.Machine.execRsvEccClearCounts s
  | .scEccClearLog => Sys2Proof.Machine.execScEccClearLog s
  | .scEccClearCounts => Sys2Proof.Machine.execScEccClearCounts s
  | .roundBoundary => Sys2Proof.Machine.execRoundBoundary s
  | .roundTimer => Sys2Proof.Machine.execRoundTimer s
  | .lockLost => Sys2Proof.Machine.execLockLost s
  | .fenceReread => Sys2Proof.Machine.execFenceReread s
  | .thermalRank => Sys2Proof.Machine.execThermalRank s
  | .hotReset => Sys2Proof.Machine.execHotReset s
  | .linkRecovery => Sys2Proof.Machine.execLinkRecovery s
  | .handoverPoint => Sys2Proof.Machine.execHandoverPoint s
  | .pwrAlert => Sys2Proof.Machine.execPwrAlert s
  | .powerEmergencyEnd => Sys2Proof.Machine.execPowerEmergencyEnd s
  | .thermalEmergencyEnd => Sys2Proof.Machine.execThermalEmergencyEnd s
  | .thermalCapLower => Sys2Proof.Machine.execThermalCapLower s
  | .thermalCapRise => Sys2Proof.Machine.execThermalCapRise s
  | .activeHour => Sys2Proof.Machine.execActiveHour s
  | .s1PowerDown => Sys2Proof.Machine.execS1PowerDown s
  | .s1Exit => Sys2Proof.Machine.execS1Exit s
  | .s3Entry => Sys2Proof.Machine.execS3Entry s
  | .railWaitTimeout => Sys2Proof.Machine.execRailWaitTimeout s
  | .wakePin => Sys2Proof.Machine.execWakePin s
  | .wake => Sys2Proof.Machine.execWake s
  | .privateRead => Sys2Proof.Machine.execPrivateRead s
  | .getpid => Sys2Proof.Machine.execGetpid s
  | .getbcr => Sys2Proof.Machine.execGetbcr s
  | .getdcr => Sys2Proof.Machine.execGetdcr s
  | .getstatus => Sys2Proof.Machine.execGetstatus s
  | .rstdaa => Sys2Proof.Machine.execRstdaa s
  | .enec => Sys2Proof.Machine.execEnec s
  | .disec => Sys2Proof.Machine.execDisec s
  | .brownOut => Sys2Proof.Machine.execBrownOut s
  | .aonReset => Sys2Proof.Machine.execAonReset s
  | .pgoodWaitTimeout => Sys2Proof.Machine.execPgoodWaitTimeout s
  | .vaonLoss => Sys2Proof.Machine.execVaonLoss s
  | .weirDownClamp => Sys2Proof.Machine.execWeirDownClamp s
  | .xtal32kStable => Sys2Proof.Machine.execXtal32kStable s
  | .sysclkInDetected => Sys2Proof.Machine.execSysclkInDetected s
  | .aonRstRelease => Sys2Proof.Machine.execAonRstRelease s
  | .vaonReturn => Sys2Proof.Machine.execVaonReturn s
  | .pwrAlertRelease => Sys2Proof.Machine.execPwrAlertRelease s

end Sys2Proof.Machine
end

