-- ==== Sys2Proof/Machine/Step.lean ====
section
/-! DEFINITION. One step of the block: the command at the front of the queue, or, when none waits, one microsecond of the
Sluice timer (log entry 1). -/

namespace Sys2Proof.Machine

/-- The state with the front command taken off the queue. -/
def State.rest (s : State) (cs : List Instr) : State := { s with pending := cs }

/-- One step: the front command's effect on the state with the queue's rest; on an empty queue time passes (R15). -/
def step (s : State) : Host.Outcome State Fault Refusal :=
  match s.pending with
  | [] => .next (s.advance (s.now + 1))
  | c :: cs => exec c (s.rest cs)

/-- The state with the command that a word spells at the front of its queue; the state as it is where the word spells
none. -/
def State.withFetchWord (s : State) (nbits w : Nat) : State :=
  match Sys2Proof.decodeTableWord nbits w with
  | some c => { s with pending := c :: s.pending }
  | none => s

end Sys2Proof.Machine
end

