-- ==== Sys2Proof/Safety.lean ====
section
/-! DEFINITION. What counts as a safe step, and the notions in which the statements speak: an instruction that issues, a
packet that Headgate takes, and the shapes of the register files. -/

namespace Sys2Proof.Machine

/-- A step is safe when it answers a next state: no fault and no refusal. -/
def SafeStep (s : State) : Prop := ∃ t, step s = .next t

/-! ## A Heith instruction that issues -/

/-- Group g of cluster c issues the word w of an opcode's shape: the group runs on a cluster that runs, its fetch succeeds
and leaves s1, and the encoding is legal (R71, R94, R98 to R103). -/
structure Issues (sh : Shape) (c g : Nat) (w : HWord) (s : State) (cl : Cluster) (run : KernelRun) (gr : Group) (s1 : State) :
    Prop where
  cluster : s.clusters[c]? = some cl
  group   : cl.group? g = some gr
  kernel  : cl.run = some run
  ready   : s.canIssue c cl gr = true
  fetched : s.fetch c run.key gr.pc.toNat (wordLen w) w.fetch = (none, s1)
  lawful  : legal sh w = true
  exist   : regsExist gr.v.length sh w = true
  aligned : regsAligned sh w = true

/-- The state after an instruction of a group: the group as the instruction leaves it, and one more instruction counted on
its cluster. Nothing else changes. -/
def State.retired (c : Nat) (g : Group) (s : State) : State :=
  (s.putGroup c g).modCluster c fun cl => { cl with core := { cl.core with work := cl.core.work + 1 } }

/-- The register files of a group have the sizes that R71 gives: rows of 32 lanes, 64 scalars, 8 predicates. -/
structure Group.Shaped (g : Group) : Prop where
  rows : ∀ r ∈ g.v, r.length = 32
  sca  : g.s.length = 64
  pre  : g.p.length = 8

/-! ## A packet that Headgate takes (R264 to R286) -/

/-- Steps 5 to 9 of R266 pass: the opcode is assigned, the issuing function and context may issue it, LEN is that of the opcode, the
context is not LOST unless the opcode is taken then, nor FAULTED under a job packet, and no reserved field is set. -/
structure Passes (spec : OpSpec) (pk : Pk) (len : Nat) (s : State) : Prop where
  assigned : spec.assigned = true
  may : s.mayIssue spec pk = true
  length : len = spec.len pk
  notLost : ∀ k c, pk.key = some k → s.ctx? k = some c → c.st = .lost → spec.lostOk = true
  notFaulted : ∀ k c, pk.key = some k → s.ctx? k = some c → c.st = .faulted → spec.job = false
  clean : firstReserved pk (spec.reserved pk) = none

/-- A packet at the head of a queue's ring that nothing holds: Headgate serves the function, the queue has the turn and is free to go on, its status
ring has room, the reads of the ring leave `a` and then `b`, the whole packet lies in the ring, and steps 1 to 4 of R266 pass. -/
structure AtHead (spec : OpSpec) (fn q : Nat) (p : Packet) (u : Queue) (c : Ctx) (s a b : State) : Prop where
  queue : s.queue? fn q = some u
  ctx : s.ctx? ⟨fn, u.ctx⟩ = some c
  alive : c.st ≠ .destroying
  serves : s.serves fn = true
  open_ : u.halted = false ∧ u.destroying = none ∧ u.wait = none
  held : ∀ h, u.held = some h → h.opcode = spec.opcode ∧ h.pkt = p ∧ (spec.job = true → s.inReset ⟨fn, u.ctx⟩ = false)
  awaits : s.awaitsReply fn q = false
  turn : s.mayServe fn q = true
  pending : u.read ≠ u.write
  room : u.owed + u.deferred < u.free
  header : s.ringRead u u.read 16 p.ring = (none, a)
  body : a.ringRead u u.read (4 * p.len.toNat) p.ring = (none, b)
  size : lenValid p.len.toNat = true ∧ u.read + p.len.toNat / 4 ≤ 2 ^ u.ringLog2
  whole : p.len.toNat / 4 ≤ (u.write + 2 ^ u.ringLog2 - u.read) % 2 ^ u.ringLog2
  barrier : p.barrier = true → u.owed = countIf Job.armed (a.startedJobs (.queue fn q))
  jobs : spec.job = true → (a.startedJobs (.queue fn q)).length < 64
  names : p.queue.toNat = q ∧ p.ctx.toNat = u.ctx
  zero : p.rsv0 = 0 ∧ p.rsv3 = 0
  ends : s.neverEnds fn p.ring = false ∧ s.neverEnds fn p.named = false

/-- A packet in a function's command registers with BUSY set that Headgate takes, and whose steps 1 to 4 of R266 pass. -/
structure InMailbox (spec : OpSpec) (fn : Nat) (p : Packet) (f : Fun) (s : State) : Prop where
  fun_ : s.funs[fn]? = some f
  serves : s.serves fn = true
  busy : f.mboxBusy = true ∧ f.mboxServing = false
  holds : f.holds spec.opcode p = true
  turn : s.mayMbox fn = true
  size : lenValid p.len.toNat = true ∧ p.len.toNat ≤ 20
  names : p.ctx = 0xFFFF ∧ p.queue = 0xFFFF
  zero : p.rsv0 = 0 ∧ p.rsv3 = 0
  ends : s.neverEnds fn p.ring = false ∧ s.neverEnds fn p.named = false

/-- Headgate comes to step 5 of R266 with a packet: `b` is the state after its reads. -/
def Reaches (spec : OpSpec) (src : Src) (p : Packet) (pk : Pk) (s b : State) : Prop :=
  match src with
  | .queue fn q => ∃ u c a, AtHead spec fn q p u c s a b ∧
      pk = { src := src, fn := fn, key := some ⟨fn, u.ctx⟩, origin := packetOrigin p src spec.opcode, bytes := packetBytes p, named := p.named }
  | .mailbox fn => ∃ f, InMailbox spec fn p f s ∧ b = s.closeTurn fn false ∧
      pk = { src := src, fn := fn, key := none, origin := packetOrigin p src spec.opcode, bytes := packetBytes p, named := p.named }

/-- The packet leaves the head of its ring: the read index passes it and its reply is owed. A mailbox packet stays where it is. -/
def offHead (src : Src) (p : Packet) (b : State) : State :=
  match src with
  | .queue fn q => b.takeHead fn q p.len.toNat
  | .mailbox _ => b

/-- Headgate comes to the opcode's own checks of a packet. -/
def Taken (spec : OpSpec) (src : Src) (p : Packet) (pk : Pk) (s b : State) : Prop :=
  Reaches spec src p pk s b ∧ Passes spec pk p.len.toNat (offHead src p b)

/-- Headgate is done with a packet: the queue's turn goes on, or the mailbox packet is counted. -/
def served (src : Src) (t : State) : State :=
  match src with
  | .queue fn q => t.afterTake fn q
  | .mailbox _ => t.countPacket

/-- A packet whose effect left `t` is replied to by Headgate with a status and a detail. -/
def answered (src : Src) (pk : Pk) (status detail : Nat) (t : State) : State := served src (t.replyHg pk.origin status detail)

/-- A packet is replied to by another island, with a fence value. -/
def answeredBy (src : Src) (pk : Pk) (island status detail : Nat) (v : BitVec 64) (t : State) : State :=
  served src (t.reply (t.entry pk.origin island status detail v))

/-- A packet whose effect left `t` and whose reply comes later; in a mailbox it is being served while BUSY is still set. -/
def awaited (src : Src) (t : State) : State :=
  match src with
  | .queue fn q => t.afterTake fn q
  | .mailbox fn => t.countPacket.modFun fn fun f => { f with mboxServing := f.mboxBusy }

end Sys2Proof.Machine
end

