-- ==== Sys2Proof/WellFormed.lean ====
section
/-! DEFINITION. Which commands are well formed: every number names a unit, a function, a queue or a context that the part
can have (R1, R2, R13, R63). A command that is not well formed names nothing. -/

namespace Sys2Proof

/-- The engines of the part (R172). -/
def Engine.wf : Engine → Bool
  | .cluster i => decide (i < 48)
  | .front i => decide (i < 4)
  | .array i => decide (i < 9)
  | .copy i => decide (i < 4)

/-- The requesters of the part. -/
def Requester.wf : Requester → Bool
  | .engine e => e.wf
  | .pipe p => decide (p < 4)
  | .compositor => true
  | .camera => true
  | .headgate => true
  | .sluice => true
  | .host fn => decide (fn < 4)

/-- A queue of a function is one of 16,384 (R258). -/
def Src.wf : Src → Bool
  | .queue fn q => decide (fn < 4) && decide (q < 16384)
  | .mailbox fn => decide (fn < 4)

/-- A packet's parameters are whole dwords after its header, at most 1,024 of them (R265). -/
def Packet.wf (p : Packet) : Bool := decide (p.params.length ≤ 1024)

/-- A stream's tenant and requester exist. -/
def Stream.wf (s : Stream) : Bool := s.who.wf && decide (s.fn < 4) && decide (s.ctx < 1024)

/-- The opcodes of Heith that R102 lists. -/
def heithOpcodes : List Nat :=
  [0x00, 0x01, 0x02, 0x03, 0x04, 0x05, 0x06, 0x07, 0x08, 0x0B, 0x10, 0x11, 0x12, 0x13, 0x14, 0x15,
   0x16, 0x17, 0x18, 0x19, 0x1A, 0x1B, 0x1C, 0x1D, 0x1E, 0x1F, 0x20, 0x21, 0x22, 0x23, 0x24, 0x25,
   0x26, 0x27, 0x30, 0x31, 0x32, 0x33, 0x34, 0x35, 0x36, 0x37, 0x38, 0x39, 0x3A, 0x3B, 0x3C, 0x40,
   0x41, 0x42, 0x43, 0x44, 0x45, 0x48, 0x49, 0x4A, 0x4B, 0x4C, 0x4D, 0x50, 0x51, 0x52, 0x60, 0x61,
   0x62, 0x63, 0x64, 0x65, 0x66, 0x67, 0x68, 0x69, 0x70, 0x71, 0x72, 0x74, 0x75, 0x76, 0x78, 0x79,
   0x7A, 0x7B, 0x7C]

/-- The opcodes of a packet that R278 lists. -/
def packetOpcodes : List Nat :=
  [0x01, 0x02, 0x03, 0x04, 0x05, 0x06, 0x07, 0x10, 0x11, 0x12, 0x13, 0x14, 0x20, 0x21, 0x22, 0x30,
   0x31, 0x32, 0x40, 0x41, 0x42, 0x43, 0x44, 0x45, 0x50, 0x51, 0x52, 0x53, 0x60, 0x61, 0x62, 0x63,
   0x70, 0x71, 0x72, 0x7F]

/-- Whether a command is well formed. -/
def Instr.wf : Instr → Bool
  | .skip c g _ => decide (c < 48) && decide (g < 64)
  | .endGroup c g _ => decide (c < 48) && decide (g < 64)
  | .jump c g _ => decide (c < 48) && decide (g < 64)
  | .call c g _ => decide (c < 48) && decide (g < 64)
  | .ret c g _ => decide (c < 48) && decide (g < 64)
  | .sync c g _ => decide (c < 48) && decide (g < 64)
  | .order c g _ => decide (c < 48) && decide (g < 64)
  | .cede c g _ => decide (c < 48) && decide (g < 64)
  | .sval c g _ => decide (c < 48) && decide (g < 64)
  | .dbgstop c g _ => decide (c < 48) && decide (g < 64)
  | .iadd c g _ => decide (c < 48) && decide (g < 64)
  | .isub c g _ => decide (c < 48) && decide (g < 64)
  | .imul c g _ => decide (c < 48) && decide (g < 64)
  | .imulhi c g _ => decide (c < 48) && decide (g < 64)
  | .imuladd c g _ => decide (c < 48) && decide (g < 64)
  | .imin c g _ => decide (c < 48) && decide (g < 64)
  | .imax c g _ => decide (c < 48) && decide (g < 64)
  | .iabs c g _ => decide (c < 48) && decide (g < 64)
  | .and c g _ => decide (c < 48) && decide (g < 64)
  | .or c g _ => decide (c < 48) && decide (g < 64)
  | .xor c g _ => decide (c < 48) && decide (g < 64)
  | .not c g _ => decide (c < 48) && decide (g < 64)
  | .shl c g _ => decide (c < 48) && decide (g < 64)
  | .shr c g _ => decide (c < 48) && decide (g < 64)
  | .fldx c g _ => decide (c < 48) && decide (g < 64)
  | .fldi c g _ => decide (c < 48) && decide (g < 64)
  | .bitcnt c g _ => decide (c < 48) && decide (g < 64)
  | .leadz c g _ => decide (c < 48) && decide (g < 64)
  | .bitrev c g _ => decide (c < 48) && decide (g < 64)
  | .iadd64 c g _ => decide (c < 48) && decide (g < 64)
  | .imuladdw c g _ => decide (c < 48) && decide (g < 64)
  | .icmp c g _ => decide (c < 48) && decide (g < 64)
  | .pick c g _ => decide (c < 48) && decide (g < 64)
  | .mov c g _ => decide (c < 48) && decide (g < 64)
  | .fadd c g _ => decide (c < 48) && decide (g < 64)
  | .fmul c g _ => decide (c < 48) && decide (g < 64)
  | .fmuladd c g _ => decide (c < 48) && decide (g < 64)
  | .fmin c g _ => decide (c < 48) && decide (g < 64)
  | .fmax c g _ => decide (c < 48) && decide (g < 64)
  | .fcmp c g _ => decide (c < 48) && decide (g < 64)
  | .frecip c g _ => decide (c < 48) && decide (g < 64)
  | .frsqrt c g _ => decide (c < 48) && decide (g < 64)
  | .fsqrt c g _ => decide (c < 48) && decide (g < 64)
  | .fexp2 c g _ => decide (c < 48) && decide (g < 64)
  | .flog2 c g _ => decide (c < 48) && decide (g < 64)
  | .fsin c g _ => decide (c < 48) && decide (g < 64)
  | .fcos c g _ => decide (c < 48) && decide (g < 64)
  | .hpadd c g _ => decide (c < 48) && decide (g < 64)
  | .hpmul c g _ => decide (c < 48) && decide (g < 64)
  | .hpmuladd c g _ => decide (c < 48) && decide (g < 64)
  | .hpmin c g _ => decide (c < 48) && decide (g < 64)
  | .hpmax c g _ => decide (c < 48) && decide (g < 64)
  | .hpcmp c g _ => decide (c < 48) && decide (g < 64)
  | .dadd c g _ => decide (c < 48) && decide (g < 64)
  | .dmul c g _ => decide (c < 48) && decide (g < 64)
  | .dmuladd c g _ => decide (c < 48) && decide (g < 64)
  | .dcmp c g _ => decide (c < 48) && decide (g < 64)
  | .dmin c g _ => decide (c < 48) && decide (g < 64)
  | .dmax c g _ => decide (c < 48) && decide (g < 64)
  | .convFF c g _ => decide (c < 48) && decide (g < 64)
  | .convFI c g _ => decide (c < 48) && decide (g < 64)
  | .convIF c g _ => decide (c < 48) && decide (g < 64)
  | .ld c g _ => decide (c < 48) && decide (g < 64)
  | .st c g _ => decide (c < 48) && decide (g < 64)
  | .ldw c g _ => decide (c < 48) && decide (g < 64)
  | .stw c g _ => decide (c < 48) && decide (g < 64)
  | .rmw c g _ => decide (c < 48) && decide (g < 64)
  | .rmwn c g _ => decide (c < 48) && decide (g < 64)
  | .rmww c g _ => decide (c < 48) && decide (g < 64)
  | .ldsc c g _ => decide (c < 48) && decide (g < 64)
  | .sample c g _ => decide (c < 48) && decide (g < 64)
  | .fetch c g _ => decide (c < 48) && decide (g < 64)
  | .tilerd c g _ => decide (c < 48) && decide (g < 64)
  | .tilewr c g _ => decide (c < 48) && decide (g < 64)
  | .emit c g _ => decide (c < 48) && decide (g < 64)
  | .ray c g _ => decide (c < 48) && decide (g < 64)
  | .rayresume c g _ => decide (c < 48) && decide (g < 64)
  | .rayaccept c g _ => decide (c < 48) && decide (g < 64)
  | .rayTraversalDone c g _ => decide (c < 48) && decide (g < 64)
  | .xlane c g _ => decide (c < 48) && decide (g < 64)
  | .preduce c g _ => decide (c < 48) && decide (g < 64)
  | .pxfer c g _ => decide (c < 48) && decide (g < 64)
  | .plogic c g _ => decide (c < 48) && decide (g < 64)
  | .lreduce c g _ => decide (c < 48) && decide (g < 64)
  | .unassignedInstruction c g op _ => decide (c < 48) && decide (g < 64) && !(heithOpcodes.contains op.toNat)
  | .faultReport _ => true
  | .kernelStop c => decide (c < 48)
  | .groupsParked fn ctx => decide (fn < 4) && decide (ctx < 1024)
  | .kernelDispatch c => decide (c < 48)
  | .clusterUnitEnd c => decide (c < 48)
  | .accessComplete e _ _ => e.wf
  | .reservoirAccess who _ _ _ _ _ => who.wf
  | .reservoirAtomic who _ _ _ _ _ _ => who.wf
  | .scrubLine _ => true
  | .systemCacheAccess s _ _ _ _ _ _ => s.wf
  | .sliceStore s _ _ _ _ _ _ => s.wf
  | .trackerIdleExpiry slice s => decide (slice < 16) && s.wf
  | .sliceFillComplete slice s _ => decide (slice < 16) && s.wf
  | .writeAroundDrain slice => decide (slice < 16)
  | .writeBackAccepted slice _ _ => decide (slice < 16)
  | .sliceAtomic s _ _ _ _ _ _ _ _ => s.wf
  | .wayGroupPowerDown slice group => decide (slice < 16) && decide (group < 4)
  | .wayGroupCleaned slice group => decide (slice < 16) && decide (group < 4)
  | .dramAccess _ _ _ _ _ _ _ _ => true
  | .dramRefresh (.perBank ch) => decide (ch < 8)
  | .dramRefresh (.management ch) => decide (ch < 8)
  | .mr4Poll ch _ => decide (ch < 8)
  | .dqsOscillatorCheck sub _ => decide (sub < 16)
  | .retraining ch => decide (ch < 8)
  | .retrainingDone ch => decide (ch < 8)
  | .patrol _ => true
  | .scModeWrite _ => true
  | .registerWrite fn _ _ => decide (fn < 4)
  | .passStart f => decide (f < 4)
  | .geometryBatchDone f half => decide (f < 4) && decide (half < 2)
  | .flushTilesStored f => decide (f < 4)
  | .passComplete f => decide (f < 4)
  | .tileStore c _ => decide (c < 48)
  | .quadDispatch f slice _ _ _ => decide (f < 4) && decide (slice < 48)
  | .fragmentArrive slice _ _ _ => decide (slice < 48)
  | .layerStart a => decide (a < 9)
  | .layerComplete a => decide (a < 9)
  | .netRunRestart _ => true
  | .flumeGrant f c _ a => decide (f < 4) && decide (c < 48) && decide (a < 9)
  | .flumeAccess a c _ _ _ _ => decide (a < 9) && decide (c < 48)
  | .flumeRelease a => decide (a < 9)
  | .schedulePick e _ => e.wf
  | .switchDrained e => e.wf
  | .makeResident fn ctx => decide (fn < 4) && decide (ctx < 1024)
  | .slotOpen i _ => decide (i < 512)
  | .slotClose i _ => decide (i < 512)
  | .slotLapse i _ => decide (i < 512)
  | .remoteWaitPoll e _ => e.wf
  | .evictedFencePoll fn ctx _ => decide (fn < 4) && decide (ctx < 1024)
  | .vblankStart p _ => decide (p < 4)
  | .flatWriteDone p => decide (p < 4)
  | .pixelUnderrun p => decide (p < 4)
  | .protectCrcCheck p => decide (p < 4)
  | .dspCtrlCommit p => decide (p < 4)
  | .linkTrain p => decide (p < 4)
  | .auxGo p => decide (p < 4)
  | .auxTransactionDone p _ _ => decide (p < 4)
  | .hpdEvent p _ => decide (p < 4)
  | .trainingLost p => decide (p < 4)
  | .camStart port => decide (port < 6)
  | .camStop port => decide (port < 6)
  | .csiPacket port vc _ => decide (port < 6) && decide (vc < 16)
  | .frameStart port vc => decide (port < 6) && decide (vc < 16)
  | .frameEndPacket port vc => decide (port < 6) && decide (vc < 16)
  | .frameEnd port vc _ => decide (port < 6) && decide (vc < 16)
  | .doorbellWrite fn _ _ _ => decide (fn < 4)
  | .bar0Access fn _ _ _ _ => decide (fn < 4)
  | .bar2Access fn _ _ _ _ _ _ => decide (fn < 4)
  | .bar4Access fn _ _ _ _ _ _ => decide (fn < 4)
  | .msixVectorUnmask fn _ => decide (fn < 4)
  | .configAccess fn _ _ _ => decide (fn < 4)
  | .flr fn => decide (fn < 4)
  | .completionReceived _ _ _ => true
  | .completionTimeout _ => true
  | .doeDiscovery fn _ => decide (fn < 4)
  | .getVersion fn _ => decide (fn < 4)
  | .getCapabilities fn _ => decide (fn < 4)
  | .negotiateAlgorithms fn _ => decide (fn < 4)
  | .getDigests fn _ => decide (fn < 4)
  | .getCertificate fn _ => decide (fn < 4)
  | .challenge fn _ => decide (fn < 4)
  | .getMeasurements fn _ => decide (fn < 4)
  | .doeAbort fn => decide (fn < 4)
  | .fnErrClear fn => decide (fn < 4)
  | .mboxGo fn => decide (fn < 4)
  | .unassignedOpcode src op p => src.wf && p.wf && !(packetOpcodes.contains op.toNat)
  | .jobEnd _ => true
  | .leveeSet src p => src.wf && p.wf
  | .sluiceLoad src p => src.wf && p.wf
  | .powerState src p => src.wf && p.wf
  | .fwStage src p => src.wf && p.wf
  | .fwStageWritten _ => true
  | .fwActivate src p => src.wf && p.wf
  | .fwActivateCancel src p => src.wf && p.wf
  | .handoverDone proc _ => decide (proc < 4)
  | .marginReplan src p => src.wf && p.wf
  | .protectSet src p => src.wf && p.wf
  | .ctxCreate src p => src.wf && p.wf
  | .ctxDestroy src p => src.wf && p.wf
  | .teardownDrained fn ctx => decide (fn < 4) && decide (ctx < 1024)
  | .flushReadComplete _ => true
  | .queueCreate src p => src.wf && p.wf
  | .queueDestroy src p => src.wf && p.wf
  | .ctxReplay src p => src.wf && p.wf
  | .rangeMap src p => src.wf && p.wf
  | .rangeUnmap src p => src.wf && p.wf
  | .unmapDrained fn ctx => decide (fn < 4) && decide (ctx < 1024)
  | .rangeCheck src p => src.wf && p.wf
  | .rangeWalk who fn ctx _ => who.wf && decide (fn < 4) && decide (ctx < 1024)
  | .fenceInit src p => src.wf && p.wf
  | .fenceSignal src p => src.wf && p.wf
  | .fenceWait src p => src.wf && p.wf
  | .passSubmit src p => src.wf && p.wf
  | .kernelSubmit src p => src.wf && p.wf
  | .netLoad src p => src.wf && p.wf
  | .netRun src p => src.wf && p.wf
  | .netUnload src p => src.wf && p.wf
  | .copy src p => src.wf && p.wf
  | .copyChunk e => decide (e < 4)
  | .copyChunkDone e _ => decide (e < 4)
  | .dspLayerSet src p => src.wf && p.wf
  | .dspCommit src p => src.wf && p.wf
  | .camConfig src p => src.wf && p.wf
  | .camBind src p => src.wf && p.wf
  | .powerVote src p => src.wf && p.wf
  | .telemetryRead src p => src.wf && p.wf
  | .clockCorrelate src p => src.wf && p.wf
  | .attest src p => src.wf && p.wf
  | .resetDomain src p => src.wf && p.wf
  | .dumpCollect src p => src.wf && p.wf
  | .progressRead src p => src.wf && p.wf
  | .nop src p => src.wf && p.wf
  | .resetComplete _ => true
  | .resetLimitExpiry _ => true
  | .testEnter fn => decide (fn < 4)
  | .testExit fn => decide (fn < 4)
  | .telemetryPageWrite fn => decide (fn < 4)
  | .flashLogAppend _ _ _ => true
  | .powerWindow _ => true
  | .sensorSample _ => true
  | .droopStretch island => decide (island < 128)
  | .severeDroop island => decide (island < 128)
  | .severeDroopEnd island => decide (island < 128)
  | .voltageTrim island _ => decide (island < 128)
  | .pointChange island => decide (island < 128)
  | .a2Entry e => e.wf
  | .a2Wake e => e.wf
  | .replanDone _ _ => true
  | .s3Wake _ _ => true
  | .i3cAddressMatch _ => true
  | .perst _ => true
  | .corePgood _ => true
  | .coldBoot _ _ => true
  | .mbistComplete _ => true
  | .watchdogExpiry proc _ => decide (proc < 4)
  | .processorException proc _ => decide (proc < 4)
  | .processorRestartDone proc => decide (proc < 4)
  | .dpLinkTrainingDone p _ => decide (p < 4)
  | .pcieLinkTrained _ _ => true
  | .linkPowerStateChange _ _ => true
  | .deskewBurst port _ => decide (port < 6)
  | .scAllIdle50ms => true
  | .rsvEccClearLog => true
  | .rsvEccClearCounts => true
  | .scEccClearLog => true
  | .scEccClearCounts => true
  | .roundBoundary => true
  | .roundTimer => true
  | .lockLost => true
  | .fenceReread => true
  | .thermalRank => true
  | .hotReset => true
  | .linkRecovery => true
  | .handoverPoint => true
  | .pwrAlert => true
  | .powerEmergencyEnd => true
  | .thermalEmergencyEnd => true
  | .thermalCapLower => true
  | .thermalCapRise => true
  | .activeHour => true
  | .s1PowerDown => true
  | .s1Exit => true
  | .s3Entry => true
  | .railWaitTimeout => true
  | .wakePin => true
  | .wake => true
  | .privateRead => true
  | .getpid => true
  | .getbcr => true
  | .getdcr => true
  | .getstatus => true
  | .rstdaa => true
  | .enec => true
  | .disec => true
  | .brownOut => true
  | .aonReset => true
  | .pgoodWaitTimeout => true
  | .vaonLoss => true
  | .weirDownClamp => true
  | .xtal32kStable => true
  | .sysclkInDetected => true
  | .aonRstRelease => true
  | .vaonReturn => true
  | .pwrAlertRelease => true

end Sys2Proof
end

