-- ==== Sys2Proof/Certificates/Slice0/Obligations.lean ====
section
/-! DEFINITION. The statements for the provers: what the commands of the block do, as the numbered rules of spec/ say. A statement whose
parts have names of their own is the conjunction of those parts. -/

open Sys2Proof Sys2Proof.Machine

/-! ## Heith: integer arithmetic (R101, R102) -/

/-- A compare code of R101 on two numbers: EQ, NE, LT, LE, GT, GE. -/
def Sys2Proof.comparesAs (code : Nat) (a b : Int) : Prop :=
  (code = 0 ∧ a = b) ∨ (code = 1 ∧ a ≠ b) ∨ (code = 2 ∧ a < b) ∨ (code = 3 ∧ a ≤ b) ∨ (code = 4 ∧ b < a) ∨ (code = 5 ∧ b ≤ a)

/-- A 32-bit number read as R101's MOD [0] says: signed when it is 1. -/
def Sys2Proof.readAs (w : HWord) (v : Nat) : Int := if w.mode.toNat.testBit 0 then (if v < 2 ^ 31 then (v : Int) else (v : Int) - 2 ^ 32) else v

/-- The number that each integer instruction gives in a lane, before it is cut to the destination's width: cluster, group,
word, the shape of its operands, and the number as a function of the lane's sources. -/
def Sys2Proof.intMeaning : Instr → Option (Nat × Nat × HWord × Shape × (Srcs → Int))
  | .iadd c g w => some (c, g, w, int2, fun x => x.a + x.b)
  | .isub c g w => some (c, g, w, int2, fun x => x.a - x.b)
  | .imul c g w => some (c, g, w, int2, fun x => x.a * x.b)
  | .imulhi c g w => some (c, g, w, int2Signed, fun x => readAs w x.a * readAs w x.b / 2 ^ 32)
  | .imuladd c g w => some (c, g, w, int3, fun x => x.a * x.b + x.c)
  | .imin c g w => some (c, g, w, int2Signed, fun x => min (readAs w x.a) (readAs w x.b))
  | .imax c g w => some (c, g, w, int2Signed, fun x => max (readAs w x.a) (readAs w x.b))
  | .and c g w => some (c, g, w, int2, fun x => (x.a &&& x.b : Nat))
  | .or c g w => some (c, g, w, int2, fun x => (x.a ||| x.b : Nat))
  | .xor c g w => some (c, g, w, int2, fun x => (x.a ^^^ x.b : Nat))
  | .not c g w => some (c, g, w, int1, fun x => -x.a - 1)
  | .shl c g w => some (c, g, w, int2, fun x => x.a * 2 ^ (x.b % 32))
  | .shr c g w => some (c, g, w, int2Signed, fun x => readAs w x.a / 2 ^ (x.b % 32))
  | .bitcnt c g w => some (c, g, w, int1, fun x => ((List.range 32).countP fun i => x.a.testBit i : Nat))
  | .leadz c g w => some (c, g, w, int1, fun x => if x.a = 0 then 32 else 31 - (Nat.log2 x.a : Int))
  | .iadd64 c g w => some (c, g, w, iadd64Shape, fun x => x.a + x.b)
  | .imuladdw c g w => some (c, g, w, imuladdwShape, fun x => x.a * x.b + x.c)
  | .pick c g w => some (c, g, w, pickShape, fun x => if x.c = 1 then x.a else x.b)
  | .mov c g w => some (c, g, w, int1, fun x => x.a)
  | _ => none

/-- IADD, ISUB, IMUL, IMULHI, IMULADD, IMIN, IMAX, AND, OR, XOR, NOT, SHL, SHR, BITCNT, LEADZ, IADD64, IMULADDW, PICK, MOV: an
instruction that issues completes. In every active lane its destination holds its number, cut to the destination's width; the
program counter moves past it; nothing else of the state that the fetch leaves changes but the cluster's count. That IMULADDW
is unsigned is the model's reading (log entry 25). -/
def Sys2Proof.integerResultsRules : Prop :=
  ∀ (i : Instr) (c g : Nat) (w : HWord) (sh : Shape) (r : Srcs → Int) (s : State) (cl : Cluster) (run : KernelRun) (gr : Group)
    (s1 : State), intMeaning i = some (c, g, w, sh, r) → Issues sh c g w s cl run gr s1 →
    exec i s = .next (s1.retired c ((gr.putResult sh w fun l => (r (gr.srcs sh w l) % 2 ^ (32 * sh.dregs)).toNat).advance w))

/-- The bits of a 32-bit number from a place on, up to a width. -/
def Sys2Proof.bitsFrom (v place width : Nat) : Nat := v / 2 ^ place % 2 ^ width

/-- IABS, FLDX and FLDI (R102): where the spec states a result for every lane that executes, the destination holds it. The most
negative number has no stated absolute value and a field past bit 31 no stated result: those lanes' values are free (log entry
21), and the statement holds of them too: the instruction completes whatever the operands. -/
def Sys2Proof.fieldMeaning : Instr → Option (Nat × Nat × HWord × Shape × (Srcs → Bool) × (Srcs → Int))
  | .iabs c g w => some (c, g, w, int1, fun x => x.a != 2 ^ 31, fun x => if x.a < 2 ^ 31 then x.a else 2 ^ 32 - x.a)
  | .fldx c g w => some (c, g, w, int3, fun x => decide (x.b + x.c ≤ 32), fun x => bitsFrom x.a x.b x.c)
  | .fldi c g w =>
    some (c, g, w, int3, fun x => decide (bitsFrom x.b 0 5 + bitsFrom x.b 8 5 ≤ 32), fun x =>
      let o := bitsFrom x.b 0 5
      let n := bitsFrom x.b 8 5
      (x.c : Int) + (bitsFrom x.a 0 n - bitsFrom x.c o n) * 2 ^ o)
  | .bitrev c g w => some (c, g, w, int1, fun _ => true, fun x =>
      (((List.range 32).map fun i => if x.a.testBit i then 2 ^ (31 - i) else 0).foldl (· + ·) 0 : Nat))
  | _ => none

/-- IABS, FLDX, FLDI and BITREV complete on all operands, and give the stated result in every lane that has one. -/
def Sys2Proof.integerFieldsRules : Prop :=
  ∀ (i : Instr) (c g : Nat) (w : HWord) (sh : Shape) (has : Srcs → Bool) (r : Srcs → Int) (s : State) (cl : Cluster)
    (run : KernelRun) (gr : Group) (s1 : State), fieldMeaning i = some (c, g, w, sh, has, r) →
    Issues sh c g w s cl run gr s1 →
    ∃ (n : Nat) (f : Nat → Nat), exec i s = .next (({ s1 with fv := s1.fv + n } : State).retired c ((gr.putResult sh w f).advance w)) ∧
      ∀ l, has (gr.srcs sh w l) = true → f l % 2 ^ 32 = (r (gr.srcs sh w l) % 2 ^ 32).toNat

/-- The integer instructions of Heith: what each computes, and the extraction and insertion of fields. -/
def Obligations.IntegerResults : Prop := integerResultsRules ∧ integerFieldsRules

/-! ## Heith: floating point (R101, R102) -/

/-- The value that each floating-point instruction rounds, in a lane: the shape, the format, and the exact value as a function
of the control fields, the index of the lane's free choices and the flushed inputs. -/
def Sys2Proof.fpMeaning : Instr → Option (Nat × Nat × HWord × Shape × Fmt × (FpCtl → Nat → FVal → FVal → FVal → FVal))
  | .fadd c g w => some (c, g, w, fp2, f32, fun t _ a b _ => fAdd t.mode a b)
  | .fmul c g w => some (c, g, w, fp2, f32, fun _ _ a b _ => fMul a b)
  | .fmuladd c g w => some (c, g, w, fp3, f32, fun t _ a b x => fAdd t.mode (fMul a b) x)
  | .fmin c g w => some (c, g, w, fp2, f32, fun _ k a b _ => fMin k a b)
  | .fmax c g w => some (c, g, w, fp2, f32, fun _ k a b _ => fMax k a b)
  | .fsqrt c g w => some (c, g, w, fp1, f32, fun _ _ a _ _ => fSqrt a)
  | .frecip c g w => some (c, g, w, fp1, f32, fun t k a _ _ => fRecip t k a)
  | .frsqrt c g w => some (c, g, w, fp1, f32, fun t k a _ _ => fRsqrt t k a)
  | .fexp2 c g w => some (c, g, w, fp1, f32, fun t k a _ _ => fExp2 t k a)
  | .flog2 c g w => some (c, g, w, fp1, f32, fun t k a _ _ => fLog2 t k a)
  | .fsin c g w => some (c, g, w, fp1, f32, fun t k a _ _ => fTrig false t k a)
  | .fcos c g w => some (c, g, w, fp1, f32, fun t k a _ _ => fTrig true t k a)
  | .dadd c g w => some (c, g, w, fd2, f64, fun t _ a b _ => fAdd t.mode a b)
  | .dmul c g w => some (c, g, w, fd2, f64, fun _ _ a b _ => fMul a b)
  | .dmuladd c g w => some (c, g, w, fd3, f64, fun t _ a b x => fAdd t.mode (fMul a b) x)
  | .dmin c g w => some (c, g, w, fd2, f64, fun _ k a b _ => fMin k a b)
  | .dmax c g w => some (c, g, w, fd2, f64, fun _ k a b _ => fMax k a b)
  | _ => none

/-- FADD, FMUL, FMULADD, FMIN, FMAX, FSQRT, FRECIP, FRSQRT, FEXP2, FLOG2, FSIN, FCOS and the FP64 arithmetic complete: in every
active lane the destination holds the exact value of the flushed inputs, saturated, rounded once in the mode of MOD and flushed
again. -/
def Sys2Proof.floatResultsRules : Prop :=
  ∀ (i : Instr) (c g : Nat) (w : HWord) (sh : Shape) (f : Fmt) (op : FpCtl → Nat → FVal → FVal → FVal → FVal) (s : State)
    (cl : Cluster) (run : KernelRun) (gr : Group) (s1 : State), fpMeaning i = some (c, g, w, sh, f, op) →
    Issues sh c g w s cl run gr s1 →
    exec i s = .next (({ s1 with fv := s1.fv + 1 } : State).retired c ((gr.putResult sh w fun l =>
      let t := fpCtlOf w.mode.toNat
      let x := gr.srcs sh w l
      let k := 64 * s1.fv + 2 * l
      f.result t k (op t k (f.input t (4 * k) x.a) (f.input t (4 * k + 1) x.b) (f.input t (4 * k + 2) x.c))).advance w))

/-- The exact value of each packed FP16 instruction. -/
def Sys2Proof.halfMeaning : Instr → Option (Nat × Nat × HWord × Shape × (FpCtl → Nat → FVal → FVal → FVal → FVal))
  | .hpadd c g w => some (c, g, w, fp2, fun t _ a b _ => fAdd t.mode a b)
  | .hpmul c g w => some (c, g, w, fp2, fun _ _ a b _ => fMul a b)
  | .hpmuladd c g w => some (c, g, w, fp3, fun t _ a b x => fAdd t.mode (fMul a b) x)
  | .hpmin c g w => some (c, g, w, fp2, fun _ k a b _ => fMin k a b)
  | .hpmax c g w => some (c, g, w, fp2, fun _ k a b _ => fMax k a b)
  | _ => none

/-- One half of a packed FP16 operation: the halves h of the operands, the exact operation, one rounding. -/
def Sys2Proof.halfResult (t : FpCtl) (op : FpCtl → Nat → FVal → FVal → FVal → FVal) (k h : Nat) (x : Srcs) : Nat :=
  f16.result t k (op t k (f16.input t (4 * k) (bitsFrom x.a (16 * h) 16)) (f16.input t (4 * k + 1) (bitsFrom x.b (16 * h) 16))
    (f16.input t (4 * k + 2) (bitsFrom x.c (16 * h) 16)))

/-- HPADD, HPMUL, HPMULADD, HPMIN and HPMAX complete: each half of the destination is the operation of the same halves of the
sources. -/
def Sys2Proof.packedHalfResultsRules : Prop :=
  ∀ (i : Instr) (c g : Nat) (w : HWord) (sh : Shape) (op : FpCtl → Nat → FVal → FVal → FVal → FVal) (s : State)
    (cl : Cluster) (run : KernelRun) (gr : Group) (s1 : State), halfMeaning i = some (c, g, w, sh, op) →
    Issues sh c g w s cl run gr s1 →
    exec i s = .next (({ s1 with fv := s1.fv + 1 } : State).retired c ((gr.putResult sh w fun l =>
      let t := fpCtlOf w.mode.toNat
      let k := 64 * s1.fv + 2 * l
      halfResult t op k 0 (gr.srcs sh w l) + 2 ^ 16 * halfResult t op (k + 1) 1 (gr.srcs sh w l)).advance w))

/-- The floating-point instructions of Heith in the three formats. -/
def Obligations.FloatResults : Prop := floatResultsRules ∧ packedHalfResultsRules

/-- The exact magnitude m × 2^e lies between the patterns of two neighbours of a format, and roundMag gives one of them. Here a
magnitude pattern b of a format stands for the value of its positive number. -/
def Sys2Proof.magValue (f : Fmt) (b : Nat) : Nat × Int :=
  if b < 2 ^ f.mb then (b, f.minExp) else (2 ^ f.mb + b % 2 ^ f.mb, f.minExp + (b / 2 ^ f.mb - 1 : Nat))

/-- Twice the distance of m × 2^e from a number p × 2^q, in units of 2^u, where u is at most e and q. -/
def Sys2Proof.twiceDistance (m : Nat) (e : Int) (p : Nat) (q : Int) (u : Int) : Nat :=
  2 * ((m * 2 ^ (e - u).toNat : Nat) - (p * 2 ^ (q - u).toNat : Nat) : Int).natAbs

/-- Rounding to nearest (R101): the result of a positive exact value that does not overflow is within half a unit in the last
place of it, the unit being that of the result's own binade or of the one below. -/
def Obligations.RoundsToNearest : Prop :=
  ∀ (f : Fmt) (neg : Bool) (m : Nat) (e : Int), 0 < m → f ∈ [f16, bf16, f32, f64] →
    f.roundMag .nearest neg m e false < f.infBits →
    let r := magValue f (f.roundMag .nearest neg m e false)
    let u := min e f.minExp
    twiceDistance m e r.1 r.2 u ≤ 2 ^ (r.2 - u).toNat

/-! ## Heith: compares and conversions -/

/-- The comparison that each compare instruction makes of a lane's sources. -/
def Sys2Proof.compareMeaning : Instr → Option (Nat × Nat × HWord × Shape × (Srcs → Prop))
  | .icmp c g w => some (c, g, w, icmpShape, fun x =>
      if w.mode.toNat.testBit 3 then comparesAs (w.mode.toNat % 8) x.a x.b
      else comparesAs (w.mode.toNat % 8) (if x.a < 2 ^ 31 then (x.a : Int) else (x.a : Int) - 2 ^ 32)
        (if x.b < 2 ^ 31 then (x.b : Int) else (x.b : Int) - 2 ^ 32))
  | .fcmp c g w => some (c, g, w, fcmpShape, fun x => fCompare (w.mode.toNat % 8) (f32.value x.a) (f32.value x.b) = true)
  | .dcmp c g w => some (c, g, w, dcmpShape, fun x => fCompare (w.mode.toNat % 8) (f64.value x.a) (f64.value x.b) = true)
  | _ => none

/-- ICMP, FCMP and DCMP complete: in every active lane the destination predicate takes the comparison's truth, ANDed with its
old bit when MOD [4] is 1; the bits of the other lanes stay, and so does every register. -/
def Sys2Proof.compareResultsRules : Prop :=
  ∀ (i : Instr) (c g : Nat) (w : HWord) (sh : Shape) (test : Srcs → Prop) (s : State) (cl : Cluster) (run : KernelRun)
    (gr : Group) (s1 : State), compareMeaning i = some (c, g, w, sh, test) → Issues sh c g w s cl run gr s1 →
    ∃ v : Word, exec i s = .next (s1.retired c ((gr.putPred w.dst.toNat (gr.active w) v).advance w)) ∧
      ∀ l < 32, (v.toNat.testBit l = true ↔
        test (gr.srcs sh w l) ∧ (w.mode.toNat.testBit 4 = true → (gr.pred w.dst.toNat).toNat.testBit l = true))

/-- HPCMP, CONV.FF, CONV.FI and CONV.IF complete. HPCMP compares the low halves into its destination predicate and the high halves
into the next one. CONV.FF rounds the value of the source format into the destination format; CONV.FI gives the integer nearest
in the rounding mode, brought into the range of the type; CONV.IF rounds the integer. A 16-bit result's high half is free. -/
def Sys2Proof.halfComparesAndConversionsRules : Prop :=
  (∀ (c g : Nat) (w : HWord) (s : State) (cl : Cluster) (run : KernelRun) (gr : Group) (s1 : State),
    Issues hpcmpShape c g w s cl run gr s1 →
    ∃ lo hi : Word, exec (.hpcmp c g w) s = .next (s1.retired c
        (((gr.putPred w.dst.toNat (gr.active w) lo).putPred (w.dst.toNat + 1) (gr.active w) hi).advance w)) ∧
      ∀ l < 32, ∀ h < 2, ((if h = 0 then lo else hi).toNat.testBit l = true ↔
        fCompare (w.mode.toNat % 8) (f16.value (bitsFrom (gr.srcs hpcmpShape w l).a (16 * h) 16))
            (f16.value (bitsFrom (gr.srcs hpcmpShape w l).b (16 * h) 16)) = true ∧
          (w.mode.toNat.testBit 4 = true → (gr.pred (w.dst.toNat + h)).toNat.testBit l = true))) ∧
  (∀ (c g : Nat) (w : HWord) (s : State) (cl : Cluster) (run : KernelRun) (gr : Group) (s1 : State),
    Issues (convFFShape w) c g w s cl run gr s1 →
    ∃ f : Nat → Nat, exec (.convFF c g w) s = .next (({ s1 with fv := s1.fv + 1 } : State).retired c
        ((gr.putResult (convFFShape w) w f).advance w)) ∧
      ∀ l, f l % 2 ^ (convFmts w.mode.toNat).2.width = (convFmts w.mode.toNat).2.result
        { mode := rmodeOf (w.mode.toNat / 8), ftz := false, sat := false } (64 * s1.fv + 2 * l)
        ((convFmts w.mode.toNat).1.value ((gr.srcs (convFFShape w) w l).a % 2 ^ (convFmts w.mode.toNat).1.width)) %
          2 ^ (convFmts w.mode.toNat).2.width) ∧
  (∀ (c g : Nat) (w : HWord) (s : State) (cl : Cluster) (run : KernelRun) (gr : Group) (s1 : State),
    Issues convShape c g w s cl run gr s1 →
    ∃ f : Nat → Nat, exec (.convFI c g w) s = .next (({ s1 with fv := s1.fv + 1 } : State).retired c
        ((gr.putResult convShape w f).advance w)) ∧
      ∀ l neg m e, f32.value (gr.srcs convShape w l).a = .fin neg m e false →
        f l = word32 (max (intRange (intType w.mode.toNat)).1 (min (intRange (intType w.mode.toNat)).2
          (roundInt (rmodeOf (w.mode.toNat / 8)) neg m e)))) ∧
  ∀ (c g : Nat) (w : HWord) (s : State) (cl : Cluster) (run : KernelRun) (gr : Group) (s1 : State),
    Issues convShape c g w s cl run gr s1 →
    exec (.convIF c g w) s = .next (({ s1 with fv := s1.fv + 1 } : State).retired c ((gr.putResult convShape w fun l =>
      let t := intType w.mode.toNat
      let v := (gr.srcs convShape w l).a % 2 ^ t.1
      let n : Int := if t.2 && decide (2 ^ (t.1 - 1) ≤ v) then (v : Int) - 2 ^ t.1 else v
      f32.result { mode := rmodeOf (w.mode.toNat / 8), ftz := false, sat := false } (64 * s1.fv + 2 * l) (fOfInt n)).advance w))

/-- The compares and the conversions of Heith. -/
def Obligations.CompareResults : Prop := compareResultsRules ∧ halfComparesAndConversionsRules

/-! ## Heith: special values, lanes and predicates (R101 to R103) -/

/-- The source lane of XLANE (R101): FROM, BELOW, ABOVE, MIRROR; a lane outside 0 to 31 is the own lane. -/
def Sys2Proof.laneRead (mode l : Nat) (b : Nat) (x : Nat) : Prop :=
  let t : Int := if mode = 0 then b else if mode = 1 then (l : Int) - b else if mode = 2 then (l : Int) + b else (l ^^^ b : Nat)
  (0 ≤ t ∧ t < 32 ∧ (x : Int) = t) ∨ (¬(0 ≤ t ∧ t < 32) ∧ x = l)

/-- SVAL and XLANE complete. SVAL gives the lane number (in a vector destination), the partition, the island, and the two parts
of the island's counter; XLANE gives every lane the first source of the lane that its mode and second source name. -/
def Sys2Proof.specialValuesAndLanesRules : Prop :=
  (∀ (c g : Nat) (w : HWord) (s : State) (cl : Cluster) (run : KernelRun) (gr : Group) (s1 : State),
    Issues svalShape c g w s cl run gr s1 →
    ∃ f : Nat → Nat, exec (.sval c g w) s = .next (({ s1 with fv := s1.fv + 1 } : State).retired c
        ((gr.putResult svalShape w f).advance w)) ∧
      ∀ l, ((gr.srcs svalShape w l).a = 0 ∧ w.dk = 0 → f l = l) ∧ ((gr.srcs svalShape w l).a = 1 → f l = gr.part) ∧
        ((gr.srcs svalShape w l).a = 2 → f l = c) ∧
        ((gr.srcs svalShape w l).a = 3 → f l = (s1.count c).toNat % 2 ^ 32) ∧
        ((gr.srcs svalShape w l).a = 4 → f l = (s1.count c).toNat / 2 ^ 32)) ∧
  ∀ (c g : Nat) (w : HWord) (s : State) (cl : Cluster) (run : KernelRun) (gr : Group) (s1 : State),
    Issues xlaneShape c g w s cl run gr s1 →
    ∃ from_ : Nat → Nat, exec (.xlane c g w) s = .next (s1.retired c
        ((gr.putResult xlaneShape w fun l => (gr.srcs xlaneShape w (from_ l)).a).advance w)) ∧
      ∀ l < 32, laneRead w.mode.toNat l (gr.srcs xlaneShape w l).b (from_ l)

/-- The lanes that execute an instruction. -/
def Sys2Proof.actives (gr : Group) (w : HWord) : List Nat := (List.range 32).filter fun l => (gr.active w).toNat.testBit l

/-- PREDUCE, PXFER, PLOGIC and LREDUCE complete. PREDUCE.ALL and .ANY give in every active lane whether all or any of the
active lanes has the predicate (log entry 26 says that the reduction is over the active lanes), MASK the predicate's 32 bits in a
scalar; PXFER copies a predicate to a scalar or a scalar's bits to a predicate; PLOGIC combines two predicates bit by bit;
LREDUCE gives in a scalar the sum, the least or the greatest of the active lanes' signed words. -/
def Sys2Proof.predicateResultsRules : Prop :=
  (∀ (c g : Nat) (w : HWord) (s : State) (cl : Cluster) (run : KernelRun) (gr : Group) (s1 : State),
    Issues (preduceShape w) c g w s cl run gr s1 →
    (w.mode = 2 → exec (.preduce c g w) s =
      .next (s1.retired c ((gr.putSca w.dst.toNat (gr.pred w.src0.toNat).toNat).advance w))) ∧
    (w.mode ≠ 2 → ∃ yes : Bool, exec (.preduce c g w) s =
        .next (s1.retired c ((gr.putPred w.dst.toNat (gr.active w) (if yes then 0xFFFFFFFF else 0)).advance w)) ∧
      (yes = true ↔ if w.mode = 0 then ∀ l ∈ actives gr w, (gr.pred w.src0.toNat).toNat.testBit l = true
        else ∃ l ∈ actives gr w, (gr.pred w.src0.toNat).toNat.testBit l = true))) ∧
  (∀ (c g : Nat) (w : HWord) (s : State) (cl : Cluster) (run : KernelRun) (gr : Group) (s1 : State),
    Issues (pxferShape w) c g w s cl run gr s1 →
    exec (.pxfer c g w) s = .next (s1.retired c ((if w.dk = 1 then gr.putSca w.dst.toNat (gr.pred w.src0.toNat).toNat
      else gr.putPred w.dst.toNat (gr.active w) (gr.s.getD w.src0.toNat 0)).advance w))) ∧
  (∀ (c g : Nat) (w : HWord) (s : State) (cl : Cluster) (run : KernelRun) (gr : Group) (s1 : State),
    Issues plogicShape c g w s cl run gr s1 →
    ∃ v : Word, exec (.plogic c g w) s = .next (s1.retired c ((gr.putPred w.dst.toNat (gr.active w) v).advance w)) ∧
      ∀ l < 32, (v.toNat.testBit l = true ↔
        let a := (gr.pred w.src0.toNat).toNat.testBit l
        let b := (gr.pred w.src1.toNat).toNat.testBit l
        (if w.mode = 0 then a && b else if w.mode = 1 then a || b else if w.mode = 2 then a != b else a && !b) = true)) ∧
  ∀ (c g : Nat) (w : HWord) (s : State) (cl : Cluster) (run : KernelRun) (gr : Group) (s1 : State),
    Issues lreduceShape c g w s cl run gr s1 →
    ∃ v : Nat, exec (.lreduce c g w) s = .next (s1.retired c ((gr.putSca w.dst.toNat v).advance w)) ∧
      let xs := (List.range 32).map fun l => (gr.srcs lreduceShape w l).a
      (w.mode = 0 → v = xs.foldr (· + ·) 0) ∧
      (w.mode = 1 → v ∈ xs ∧ ∀ x ∈ xs, signedOf 32 v ≤ signedOf 32 x) ∧
      (w.mode = 2 → v ∈ xs ∧ ∀ x ∈ xs, signedOf 32 x ≤ signedOf 32 v)

/-- Special values, exchanges between lanes, and the predicate instructions of Heith. -/
def Obligations.LaneAndPredicateResults : Prop := specialValuesAndLanesRules ∧ predicateResultsRules

/-- What a write of a result does to the registers of a group whose register files have R71's sizes: in a vector destination the
active lanes of the named registers take the parts of the result, low word first, every other lane and register keeps its word
(R76); in a scalar destination the named scalars do; predicates, the program counter and the rest stay. -/
def Sys2Proof.resultWritesRegistersRules : Prop :=
  ∀ (gr : Group) (sh : Shape) (w : HWord) (f : Nat → Nat), gr.Shaped → sh.dks ⊆ [0, 1] → dstLegal sh w = true →
    regsExist gr.v.length sh w = true →
    let t := gr.putResult sh w f
    t.Shaped ∧ t.p = gr.p ∧ t.pc = gr.pc ∧ t.st = gr.st ∧ t.slot = gr.slot ∧ t.wg = gr.wg ∧ t.v.length = gr.v.length ∧
    (∀ r < gr.v.length, ∀ l < 32, t.vreg r l =
      if w.dk = 0 ∧ w.dst.toNat ≤ r ∧ r < w.dst.toNat + sh.dregs ∧ (gr.active w).toNat.testBit l = true
      then f l / 2 ^ (32 * (r - w.dst.toNat)) % 2 ^ 32 else gr.vreg r l) ∧
    (∀ r < 64, t.sreg r =
      if w.dk = 1 ∧ w.dst.toNat ≤ r ∧ r < w.dst.toNat + sh.dregs then f 0 / 2 ^ (32 * (r - w.dst.toNat)) % 2 ^ 32 else gr.sreg r)

/-- What a write of a predicate does (R75, R76): the active lanes of the register take the new bits, the others keep theirs;
predicate 0 stays all ones; every other predicate and register stays. -/
def Sys2Proof.predicateWritesRules : Prop :=
  ∀ (gr : Group) (n : Nat) (act v : Word), gr.Shaped → n < 8 →
    let t := gr.putPred n act v
    t.Shaped ∧ t.v = gr.v ∧ t.s = gr.s ∧ t.pc = gr.pc ∧ t.pred 0 = 0xFFFFFFFF ∧
    ∀ m < 8, ∀ l < 32, (t.pred m).toNat.testBit l =
      if m = n ∧ m ≠ 0 ∧ act.toNat.testBit l = true then v.toNat.testBit l else (gr.pred m).toNat.testBit l

/-- Where a result goes: vector and scalar registers under the predicate, and predicate registers. -/
def Obligations.ResultWrites : Prop := resultWritesRegistersRules ∧ predicateWritesRules

/-! ## Heith: control (R77, R81, R82, R91, R94, R98, R102) -/

/-- The program counter after an instruction: 8 bytes on, 16 with an extension word (R98). -/
def Sys2Proof.pcAfter (gr : Group) (w : HWord) : BitVec 64 := gr.pc + (if w.ext.isSome then 16 else 8)

/-- SKIP, CEDE, JUMP, CALL and RET complete. SKIP and CEDE only move the program counter. A uniform JUMP goes to the next
instruction's address plus the signed offset of its extension word, CALL does so and puts the next instruction's address into
S40 and S41, RET goes to the address in its scalar pair; with no active lane each only moves past itself; a branch on a
predicate that differs between lanes faults with BRANCH_MIXED (R77). -/
def Sys2Proof.controlFlowRules : Prop :=
  ∀ (c g : Nat) (w : HWord) (s : State) (cl : Cluster) (run : KernelRun) (gr : Group) (s1 : State),
    (Issues shape0 c g w s cl run gr s1 →
      exec (.skip c g w) s = .next (s1.retired c { gr with pc := pcAfter gr w }) ∧
      exec (.cede c g w) s = .next (s1.retired c { gr with pc := pcAfter gr w })) ∧
    (Issues jumpShape c g w s cl run gr s1 → ∀ e, w.ext = some e →
      let target := (pcAfter gr w).toNat + signedOf 32 (e.toNat % 2 ^ 32)
      (gr.active w = 0xFFFFFFFF →
        exec (.jump c g w) s = .next (s1.retired c { gr with pc := BitVec.ofInt 64 target }) ∧
        exec (.call c g w) s = .next (s1.retired c
          { gr with pc := BitVec.ofInt 64 target
                    s := setNth 41 ((pcAfter gr w).extractLsb' 32 32) (setNth 40 ((pcAfter gr w).extractLsb' 0 32) gr.s) })) ∧
      (gr.active w = 0 → exec (.jump c g w) s = .next (s1.retired c { gr with pc := pcAfter gr w }) ∧
        exec (.call c g w) s = .next (s1.retired c { gr with pc := pcAfter gr w })) ∧
      (gr.active w ≠ 0 → gr.active w ≠ 0xFFFFFFFF →
        let f : GFault := { kind := .branchMixed, addr := 0, lanes := gr.active w, write := false, atomic := false }
        exec (.jump c g w) s = .next (s1.groupFault c run gr f) ∧ exec (.call c g w) s = .next (s1.groupFault c run gr f))) ∧
    (Issues retShape c g w s cl run gr s1 →
      (gr.active w = 0xFFFFFFFF → ∀ r, w.k0 = 1 → r = w.src0.toNat →
        exec (.ret c g w) s = .next (s1.retired c { gr with pc := gr.s.getD (r + 1) 0 ++ gr.s.getD r 0 })) ∧
      (gr.active w = 0 → exec (.ret c g w) s = .next (s1.retired c { gr with pc := pcAfter gr w })) ∧
      (gr.active w ≠ 0 → gr.active w ≠ 0xFFFFFFFF →
        exec (.ret c g w) s = .next (s1.groupFault c run gr
          { kind := .branchMixed, addr := 0, lanes := gr.active w, write := false, atomic := false })))

/-- END, SYNC and ORDER complete. END of a group of a kernel with no workgroup left to deal removes the group; the memories
and the contexts stay. SYNC n moves the group past itself to barrier n; when every other group of its workgroup waits there, all
of them run again (R81). ORDER moves past itself; the DEVICE and SYSTEM scopes empty the cluster's L1, and SYSTEM, while the link
is up, then waits for a read of the host (R91). -/
def Sys2Proof.endsAndBarriersRules : Prop :=
  ∀ (c g : Nat) (w : HWord) (s : State) (cl : Cluster) (run : KernelRun) (gr : Group) (s1 : State),
    (Issues shape0 c g w s cl run gr s1 → run.work.kind = .kernel → gr.quads = [] →
      (∀ j d next done total, s1.job? run.work.job = some j → j.kind = .kernel d next done total → total ≤ next) →
      ∃ t, exec (.endGroup c g w) s = .next t ∧ (∀ cl', t.clusters[c]? = some cl' → cl'.group? g = none) ∧
        t.mem = s1.mem ∧ t.ctxs = s1.ctxs ∧ t.queues = s1.queues) ∧
    (Issues syncShape c g w s cl run gr s1 → ∀ cl1, s1.clusters[c]? = some cl1 → cl1.groups = cl.groups →
      ∃ t cl', exec (.sync c g w) s = .next t ∧ t.clusters[c]? = some cl' ∧ t.mem = s1.mem ∧
        let waits := ∀ x ∈ cl.groups, x.wg = gr.wg → x.slot ≠ g → x.st = .barrier w.mode.toNat
        (waits → ∀ x ∈ cl'.groups, x.wg = gr.wg → x.st = .running) ∧
        (¬waits → cl'.group? g = some { gr with pc := pcAfter gr w, st := .barrier w.mode.toNat })) ∧
    (Issues orderShape c g w s cl run gr s1 →
      (w.mode = 0 ∨ w.mode = 1 → exec (.order c g w) s = .next (s1.retired c { gr with pc := pcAfter gr w })) ∧
      (w.mode = 2 → exec (.order c g w) s = .next ((s1.emptyL1 c).retired c { gr with pc := pcAfter gr w })) ∧
      (w.mode = 3 → (s1.emptyL1 c).pcie.linkUp = true →
        exec (.order c g w) s = .next (((s1.emptyL1 c).issueRead run.key.fn (.order c gr.slot) 0 0).2.retired c
          { gr with pc := pcAfter gr w, st := .flush (s1.emptyL1 c).pcie.nextTag })) ∧
      (w.mode = 3 → (s1.emptyL1 c).pcie.linkUp = false →
        exec (.order c g w) s = .next ((s1.emptyL1 c).retired c { gr with pc := pcAfter gr w })))

/-- Branches, calls, the end of a group and the barriers. -/
def Obligations.ControlInstructions : Prop := controlFlowRules ∧ endsAndBarriersRules

/-- What a fault of a cluster group is (R95 step 1): the group parks before the instruction, and a report that carries the kind,
the program address, the lanes and the address of the fault goes to Sluice. -/
def Sys2Proof.parks (c : Nat) (run : KernelRun) (gr : Group) (kind : FaultKind) (lanes : Word) (s1 t : State) : Prop :=
  (∃ r, t.sluice.reports = s1.sluice.reports ++ [r] ∧ r.kind = kind ∧ r.source = 0 ∧ r.loc = gr.pc.toNat ∧ r.lanes = lanes ∧
    r.address = 0 ∧ r.job = some run.work.job ∧ r.island = c ∧ r.stamp = s1.count c) ∧
  (∀ cl', t.clusters[c]? = some cl' → ∀ x ∈ cl'.groups, x.slot = gr.slot → x.st = .faulted kind ∧ x.pc = gr.pc ∧ x.v = gr.v ∧
    x.s = gr.s ∧ x.p = gr.p)

/-- DBGSTOP faults with BREAKPOINT in its active lanes (R102), an unassigned opcode with ILLEGAL_INSTR (R94, R102); where no lane
is active neither faults and the group moves past it (R76). The effect of these commands is that fault. -/
def Obligations.StopsAndIllegalOpcodes : Prop :=
  (∀ (c g : Nat) (w : HWord) (s : State) (cl : Cluster) (run : KernelRun) (gr : Group) (s1 : State) (j : Job),
    Issues shape0 c g w s cl run gr s1 → s1.job? run.work.job = some j → run.work.kind = .kernel →
    (gr.active w = 0 → exec (.dbgstop c g w) s = .next (s1.retired c { gr with pc := pcAfter gr w })) ∧
    (gr.active w ≠ 0 → ∃ t, exec (.dbgstop c g w) s = .next t ∧ parks c run gr .breakpoint (gr.active w) s1 t)) ∧
  ∀ (c g : Nat) (op : BitVec 8) (w : HWord) (s : State) (cl : Cluster) (run : KernelRun) (gr : Group) (s1 : State) (j : Job),
    s.clusters[c]? = some cl → cl.group? g = some gr → cl.run = some run → s.canIssue c cl gr = true →
    s.fetch c run.key gr.pc.toNat (wordLen w) w.fetch = (none, s1) → s1.job? run.work.job = some j → run.work.kind = .kernel →
    (gr.active w = 0 → exec (.unassignedInstruction c g op w) s = .next (s1.retired c { gr with pc := pcAfter gr w })) ∧
    (gr.active w ≠ 0 → ∃ t, exec (.unassignedInstruction c g op w) s = .next t ∧ parks c run gr .illegalInstr (gr.active w) s1 t)

/-! ## Heith: memory (R76, R85 to R88, R93, R94, R100, R101) -/

/-- Two groups of the state are those of another: only a cluster's group and its count of instructions may differ. -/
def Sys2Proof.sameBut (s t : State) : Prop :=
  t.ctxs = s.ctxs ∧ t.queues = s.queues ∧ t.jobs = s.jobs ∧ t.sluice = s.sluice ∧ t.pipes = s.pipes ∧ t.camera = s.camera ∧
    t.weir = s.weir ∧ t.aon = s.aon ∧ t.levee = s.levee ∧ t.resets = s.resets ∧ t.now = s.now

/-- A loaded number as it stands in the destination: the signed sizes are extended to 32 bits (R101). -/
def Sys2Proof.extended (mode v : Nat) : Nat :=
  if mode % 8 = 5 ∧ 128 ≤ v then v + 2 ^ 32 - 2 ^ 8 else if mode % 8 = 6 ∧ 2 ^ 15 ≤ v then v + 2 ^ 32 - 2 ^ 16 else v

/-- The bytes of a memory instruction's data item: 1, 2, 4, 8 or 16; the signed sizes are 1 and 2 (R101). -/
def Sys2Proof.itemBytes (mode : Nat) : Nat := [1, 2, 4, 8, 16, 1, 2].getD (mode % 8) 0

/-- LD and LDSC from uncached ranges of DRAM or the Reservoir whose words hold no uncorrectable error complete: every active
lane of LD, or the scalar of LDSC, takes the little-endian item at its address, extended for the signed sizes; memory, and every
other register, stays. -/
def Sys2Proof.loadResultsRules : Prop :=
  (∀ (c g : Nat) (w : HWord) (s : State) (cl : Cluster) (run : KernelRun) (gr : Group) (s1 s2 : State) (as : List LaneAcc),
    Issues (ldShape w) c g w s cl run gr s1 →
    laneAccesses c run.key .load (itemBytes w.mode.toNat) (gr.addresses (ldShape w) w (actives gr w)) s1 = (as, [], s2) →
    (∀ a ∈ as, a.cached = false ∧ (a.tgt = .dram ∨ a.tgt = .reservoir) ∧
      s2.poisoned a.tgt a.pa (itemBytes w.mode.toNat) = false) →
    ∃ (f : Nat → Nat) (s3 : State), exec (.ld c g w) s = .next (s3.retired c ((gr.putResult (ldShape w) w f).advance w)) ∧
      s3.mem = s2.mem ∧ s3.clusters = s2.clusters ∧ sameBut s2 s3 ∧ as.map (·.lane) = actives gr w ∧
      ∀ a ∈ as, f a.lane = extended w.mode.toNat (ofLE (s2.mem.read a.tgt a.pa (itemBytes w.mode.toNat)))) ∧
  ∀ (c g : Nat) (w : HWord) (s : State) (cl : Cluster) (run : KernelRun) (gr : Group) (s1 s2 : State) (a : LaneAcc),
    Issues (ldscShape w) c g w s cl run gr s1 →
    laneAccesses c run.key .scalarLoad (itemBytes w.mode.toNat) (gr.addresses (ldscShape w) w [0]) s1 = ([a], [], s2) →
    a.cached = false → a.tgt = .dram ∨ a.tgt = .reservoir → s2.poisoned a.tgt a.pa (itemBytes w.mode.toNat) = false →
    ∃ s3 : State, exec (.ldsc c g w) s = .next (s3.retired c
        ((gr.putResult (ldscShape w) w fun _ => ofLE (s2.mem.read a.tgt a.pa (itemBytes w.mode.toNat))).advance w)) ∧
      s3.mem = s2.mem ∧ s3.clusters = s2.clusters ∧ sameBut s2 s3

/-- ST to uncached ranges completes: the active lanes' items are written in ascending lane order at the lanes' addresses, little
end first (R88), and every other byte of memory stays; no register changes. The Reservoir's words must take the write (R44), and
no wait is registered that the store could satisfy. -/
def Sys2Proof.storeWritesRules : Prop :=
  ∀ (c g : Nat) (w : HWord) (s : State) (cl : Cluster) (run : KernelRun) (gr : Group) (s1 s2 : State) (as : List LaneAcc),
    Issues (stShape w) c g w s cl run gr s1 →
    laneAccesses c run.key .store (itemBytes w.mode.toNat) (gr.addresses (stShape w) w (actives gr w)) s1 = (as, [], s2) →
    (∀ a ∈ as, a.cached = false ∧ (a.tgt = .reservoir → s2.mem.writable .reservoir a.pa (itemBytes w.mode.toNat) = true)) →
    (∀ u ∈ s2.queues, u.wait = none) →
    ∃ s3 : State, exec (.st c g w) s = .next (s3.retired c { gr with pc := pcAfter gr w }) ∧ s3.clusters = s2.clusters ∧
      sameBut s2 s3 ∧ as.map (·.lane) = actives gr w ∧
      s3.mem = as.foldl (fun m a => m.write a.tgt a.pa (toLE (itemBytes w.mode.toNat) (gr.srcs (stShape w) w a.lane).b)) s2.mem

/-- Loads and stores of Heith through ranges. -/
def Obligations.LoadsAndStores : Prop := loadResultsRules ∧ storeWritesRules

/-- The integer operations of an atomic on a word of n bits (R42, R101). -/
def Sys2Proof.atomMeaning (code n old x cmp : Nat) : Nat :=
  let sg : Nat → Int := fun v => if v < 2 ^ (n - 1) then v else (v : Int) - 2 ^ n
  if code = 0 then (old + x) % 2 ^ n
  else if code = 1 then (if sg x < sg old then x else old)
  else if code = 2 then (if sg old < sg x then x else old)
  else if code = 3 then min old x
  else if code = 4 then max old x
  else if code = 5 then old &&& x
  else if code = 6 then old ||| x
  else if code = 7 then old ^^^ x
  else if code = 8 then x
  else if old = cmp then x else old

/-- Some lanes' operations on one word in order: what each lane receives, and the word afterwards (R86). -/
def Sys2Proof.atomsInOrder (code n : Nat) : Nat → List (Nat × Nat × Nat) → List (Nat × Nat) × Nat
  | old, [] => ([], old)
  | old, (l, x, y) :: rest =>
    let r := atomsInOrder code n (atomMeaning code n old x y) rest
    ((l, old) :: r.1, r.2)

/-- The width in bytes of an atomic (R101: MOD [4]). -/
def Sys2Proof.atomBytes (w : HWord) : Nat := if w.mode.toNat.testBit 4 then 8 else 4

/-- RMW and RMWN of an integer operation, all of whose active lanes name one word of DRAM or the Reservoir without error:
the lanes' operations take effect in ascending lane order, RMW gives every lane the value just before its own (R86), the word
holds the last, and every other byte stays. RMWN gives no result. -/
def Sys2Proof.atomicsInLaneOrderRules : Prop :=
  ∀ (c g : Nat) (w : HWord) (s : State) (cl : Cluster) (run : KernelRun) (gr : Group) (s1 s2 : State) (as : List LaneAcc)
    (tgt : Target) (pa : Nat) (ret : Bool),
    Issues (if ret then rmwShape w else rmwnShape w) c g w s cl run gr s1 → w.mode.toNat % 16 < 10 →
    laneAccesses c run.key (.atomic ret) (atomBytes w) (gr.addresses (rmwShape w) w (actives gr w)) s1 = (as, [], s2) →
    as ≠ [] → (∀ a ∈ as, a.tgt = tgt ∧ a.pa = pa) → tgt = .dram ∨ tgt = .reservoir → s2.line? c tgt pa = none →
    s2.poisoned tgt pa (atomBytes w) = false → (∀ u ∈ s2.queues, u.wait = none) →
    let r := atomsInOrder (w.mode.toNat % 16) (8 * atomBytes w) (ofLE (s2.mem.read tgt pa (atomBytes w)))
      (as.map fun a => (a.lane, (gr.srcs (rmwShape w) w a.lane).b, (gr.srcs (rmwShape w) w a.lane).c))
    ∃ (f : Nat → Nat) (s3 : State),
      exec (if ret then .rmw c g w else .rmwn c g w) s = .next (s3.retired c
        (if ret then (gr.putResult (rmwShape w) w f).advance w else { gr with pc := pcAfter gr w })) ∧
      s3.mem = s2.mem.write tgt pa (toLE (atomBytes w) r.2) ∧ s3.clusters = s2.clusters ∧ sameBut s2 s3 ∧
      ∀ x ∈ r.1, f x.1 = x.2

/-- LDW, STW and RMWW on local shared memory (R93): with every active lane's address aligned and inside the workgroup's
allocation, LDW gives each lane the item at its address, STW writes the items in ascending lane order, and RMWW of an integer
operation whose active lanes name one word acts on it in ascending lane order. The memories of the device stay. -/
def Sys2Proof.localMemoryRules : Prop :=
  (∀ (c g : Nat) (w : HWord) (s : State) (cl : Cluster) (run : KernelRun) (gr : Group) (s1 : State) (m : Memory) (size : Nat),
    Issues (ldwShape w) c g w s cl run gr s1 → s1.ldsOf c gr.wg = (m, size) →
    (∀ x ∈ gr.ldsAddresses (ldwShape w) w, x.2 % itemBytes w.mode.toNat = 0 ∧ x.2 + itemBytes w.mode.toNat ≤ size) →
    ∃ f : Nat → Nat, exec (.ldw c g w) s = .next (({ s1 with fv := s1.fv + 1 } : State).retired c
        ((gr.putResult (ldwShape w) w f).advance w)) ∧
      ∀ x ∈ gr.ldsAddresses (ldwShape w) w, f x.1 = extended w.mode.toNat (ofLE (readBytes m x.2 (itemBytes w.mode.toNat)))) ∧
  (∀ (c g : Nat) (w : HWord) (s : State) (cl : Cluster) (run : KernelRun) (gr : Group) (s1 : State) (m : Memory) (size : Nat),
    Issues (stwShape w) c g w s cl run gr s1 → s1.ldsOf c gr.wg = (m, size) →
    (∀ x ∈ gr.ldsAddresses (stwShape w) w, x.2 % itemBytes w.mode.toNat = 0 ∧ x.2 + itemBytes w.mode.toNat ≤ size) →
    let put : Memory → Memory := fun m => (gr.ldsAddresses (stwShape w) w).foldl
      (fun m y => writeBytes y.2 (toLE (itemBytes w.mode.toNat) (gr.srcs (stwShape w) w y.1).b) m) m
    exec (.stw c g w) s =
      .next ((s1.modWg c gr.wg fun x => { x with lds := put x.lds }).retired c { gr with pc := pcAfter gr w })) ∧
  ∀ (c g : Nat) (w : HWord) (s : State) (cl : Cluster) (run : KernelRun) (gr : Group) (s1 : State) (m : Memory) (size a : Nat),
    Issues (rmwwShape w) c g w s cl run gr s1 → s1.ldsOf c gr.wg = (m, size) → w.mode.toNat % 16 < 10 →
    gr.ldsAddresses (rmwwShape w) w ≠ [] → (∀ x ∈ gr.ldsAddresses (rmwwShape w) w, x.2 = a) → a % atomBytes w = 0 →
    a + atomBytes w ≤ size →
    let r := atomsInOrder (w.mode.toNat % 16) (8 * atomBytes w) (ofLE (readBytes m a (atomBytes w)))
      ((gr.ldsAddresses (rmwwShape w) w).map fun x => (x.1, (gr.srcs (rmwwShape w) w x.1).b, (gr.srcs (rmwwShape w) w x.1).c))
    ∃ f : Nat → Nat, exec (.rmww c g w) s = .next
        ((({ s1 with fv := s1.fv + 1 } : State).modWg c gr.wg fun x => { x with lds := writeBytes a (toLE (atomBytes w) r.2) m }).retired c
          ((gr.putResult (rmwwShape w) w f).advance w)) ∧
      ∀ x ∈ r.1, f x.1 = x.2

/-- Atomics in lane order, and local shared memory. -/
def Obligations.AtomicsAndLocalMemory : Prop := atomicsInLaneOrderRules ∧ localMemoryRules

/-! ## Texture, tile memory and rays (R123, R127 to R138) -/

/-- FETCH and SAMPLE complete: every active lane in ascending order takes its texel, four words from red to alpha; a FETCH
outside the surface, of a level, a layer or a sample that is not there, answers zeros and reads nothing (R128). A texel of a
surface without a state table is read where R124 places it, and each channel is what the swizzle selects of it (R127). -/
def Sys2Proof.textureResultsRules : Prop :=
  (∀ (c g : Nat) (w : HWord) (s : State) (cl : Cluster) (run : KernelRun) (gr : Group) (s1 s2 : State) (vs : List (Nat × Nat)),
    (Issues fetchShape c g w s cl run gr s1 →
      texLanes (fetchLane w { c := c, run := run, wide := wordLen w } gr) (actives gr w) s1 = (vs, [], s2) →
      ∃ f : Nat → Nat, exec (.fetch c g w) s = .next (s2.retired c ((gr.putResult fetchShape w f).advance w)) ∧
        vs.map (·.1) = actives gr w ∧ ∀ x ∈ vs, f x.1 = x.2) ∧
    (Issues sampleShape c g w s cl run gr s1 →
      texLanes (sampleLane w { c := c, run := run, wide := wordLen w } gr) (actives gr w) s1 = (vs, [], s2) →
      ∃ f : Nat → Nat, exec (.sample c g w) s = .next (s2.retired c ((gr.putResult sampleShape w f).advance w)) ∧
        vs.map (·.1) = actives gr w ∧ ∀ x ∈ vs, f x.1 = x.2)) ∧
  ∀ (w : HWord) (i : Issuer) (gr : Group) (l : Nat) (s : State) (t : TexDesc) (at_ : Nat → Nat),
    t = parseTexture (gr.srcs fetchShape w l).a → t.known = true →
    (∀ j, at_ j = (gr.srcs fetchShape w l).b / 2 ^ (32 * j) % 2 ^ 32) →
    (max 1 (t.width / 2 ^ at_ 3) ≤ at_ 0 ∨ t.levels ≤ at_ 3 ∨ t.samples ≤ at_ 4 →
      (fetchLane w i gr l s).1 = .ok 0 ∧ (fetchLane w i gr l s).2.mem = s.mem) ∧
    (t.dim = 0 → t.samples = 1 → t.tst = 0 → at_ 0 < max 1 (t.width / 2 ^ at_ 3) → at_ 1 < max 1 (t.height / 2 ^ at_ 3) →
      at_ 3 < t.levels → at_ 4 = 0 → s.inAttachment i.run.key (t.surf.texel 0 (at_ 3) 0 (at_ 0) (at_ 1)).1 (formatBytes t.format) = false →
      ∀ bs s2,
      ({ s with fv := s.fv + 1 } : State).unitRead i.c i.run.key (t.surf.texel 0 (at_ 3) 0 (at_ 0) (at_ 1)).1
        (formatBytes t.format) = (.ok bs, s2) →
      ∃ v, (fetchLane w i gr l s).1 = .ok v ∧ (fetchLane w i gr l s).2 = s2 ∧ v < 2 ^ 128 ∧
        ∀ j < 4, v / 2 ^ (32 * j) % 2 ^ 32 = t.channel s.fv (ofLE bs) (t.surf.texel 0 (at_ 3) 0 (at_ 0) (at_ 1)).2.1
          (t.surf.texel 0 (at_ 3) 0 (at_ 0) (at_ 1)).2.2 j % 2 ^ 32)

/-- A sample's texels (R127, R128): under every address mode a texel lies in the level or, under clamp to border alone, on the
border; wrap repeats the level, mirror turns it over and repeats, clamp to edge stops at its ends, mirror once turns it over
once. A nearest filter reads the texel that holds the point with weight 1. A linear one reads along each axis one or two
neighbours, whose weights add to 1 and whose centres, weighted, give the point (log entry 38). A filtered channel is one of the
two FP32 neighbours of the weighted sum. MIP none reads level 0, MIP nearest the level nearest to the level of detail, and no
level past the last is read. -/
def Sys2Proof.sampleRules : Prop :=
  (∀ (n : Nat) (i : Int), 0 < n →
    (∀ mode j, mode < 5 → addrOf mode n i = some j → j < n) ∧ (addrOf 3 n i = none ↔ i < 0 ∨ (n : Int) ≤ i) ∧
    (∀ mode, mode < 5 → 0 ≤ i → i < (n : Int) → addrOf mode n i = some i.toNat) ∧
    addrOf 0 n (i + n) = addrOf 0 n i ∧ addrOf 1 n (-1 - i) = addrOf 1 n i ∧ addrOf 1 n (i + 2 * n) = addrOf 1 n i ∧
    (i < 0 → addrOf 2 n i = some 0) ∧ ((n : Int) ≤ i → addrOf 2 n i = some (n - 1)) ∧ (i < 0 → addrOf 4 n i = addrOf 2 n (-1 - i)) ∧
    ((n : Int) ≤ i → addrOf 4 n i = some (n - 1))) ∧
  (∀ (mode n : Nat) (x : Rat), axisTaps false mode n x = [(addrOf mode n (x * (n : Nat)).floor, 1)]) ∧
  (∀ (mode n : Nat) (x : Rat), ∃ (i : Int) (f : Rat), 0 ≤ f ∧ f < 1 ∧ (i : Rat) + 1 / 2 + f = x * (n : Nat) ∧
    axisTaps true mode n x = (if f = 0 then [(addrOf mode n i, 1)] else [(addrOf mode n i, 1 - f), (addrOf mode n (i + 1), f)])) ∧
  (∀ (t : TexDesc) (v i : Nat) (taps : List (List Nat × Rat)) (q : List Rat), uintFormat t.format = false → 2 ≤ taps.length →
    taps.map (fun x => exactOf (x.1.getD i 0)) = q.map some →
    ∃ away neg0, t.filtered v taps i = (roundRat away neg0 ((q.zip taps).foldl (fun acc x => acc + x.1 * x.2.2) 0)).toNat) ∧
  (∀ (p : Sampler) (n : Nat) (l : Rat), 0 < n → (∀ x ∈ p.levels n l, x.1 < n) ∧ (p.mip = 0 → p.levels n l = [(0, 1)]) ∧
    (p.mip = 1 → ∀ k : Nat, k < n → (k : Rat) ≤ l + 1 / 2 → l + 1 / 2 < (k : Rat) + 1 → p.levels n l = [(k, 1)])) ∧
  ∀ (away neg0 : Bool) (w : Nat), w < 2 ^ 32 → ∀ q, exactOf w = some q → q ≠ 0 → roundRat away neg0 q = BitVec.ofNat 32 w

/-- TILERD, TILEWR and EMIT complete. In a tile batch of a BINNED pass, when no earlier group has a fragment of the quads
outstanding, TILERD gives each active lane the sample of its own pixel that its index names, and TILEWR of one lane and one
sample writes that sample alone. Outside a tile batch both fault with ILLEGAL_INSTR (R131). EMIT without LAST records the active
lanes' colours and, with MOD[4], their depths; with LAST the group is done and every lane's fragment is sent, those of inactive
lanes killed. -/
def Sys2Proof.tileInstructionsRules : Prop :=
  ∀ (c g : Nat) (w : HWord) (s : State) (cl : Cluster) (run : KernelRun) (gr : Group) (s1 : State) (cl1 : Cluster) (r : PassRun)
    (slot : TileSlot), s1.clusters[c]? = some cl1 → cl1.blocked gr = false →
    (∀ ts, run.work.kind = .tileBatch ts → s1.passRun? run.work.job = some r → cl1.shading = some slot →
      (Issues (tilerdShape w) c g w s cl run gr s1 →
        ∃ f : Nat → Nat, exec (.tilerd c g w) s =
            .next (({ s1 with fv := s1.fv + 1 } : State).retired c ((gr.putResult (tilerdShape w) w f).advance w)) ∧
          ∀ l ∈ actives gr w, ∀ p n a, gr.pixel r slot.tile l = some p → r.desc.selected w.mode.toNat = some (n, a) →
            (gr.srcs (tilerdShape w) w l).b < r.desc.samples →
            f l = sampleWords (256 * s1.fv + 8 * l) n a.format
              (ofLE (readBytes cl1.tileMem (r.sampleAt slot n p.1 p.2 (gr.srcs (tilerdShape w) w l).b) (attSize n a)))) ∧
      (Issues (tilewrShape w) c g w s cl run gr s1 → ∀ l p n a smp, actives gr w = [l] → gr.pixel r slot.tile l = some p →
        r.desc.selected w.mode.toNat = some (n, a) → smp < r.desc.samples →
        (∀ b < r.desc.samples, (gr.srcs (tilewrShape w) w l).b.testBit b = decide (b = smp)) →
        let place := r.sampleAt slot n p.1 p.2 smp
        exec (.tilewr c g w) s = .next (((({ s1 with fv := s1.fv + 1 } : State).putTile c place (toLE (attSize n a)
          (tileData s1.fv n a (gr.srcs (tilewrShape w) w l).a (ofLE (readBytes cl1.tileMem place (attSize n a)))))).touchTile c).retired c
            { gr with pc := pcAfter gr w }))) ∧
    ((∀ ts, run.work.kind ≠ .tileBatch ts) → (∀ n, run.work.kind ≠ .kernelLayer n) → ∀ j, s1.job? run.work.job = some j →
      gr.active w ≠ 0 → (Issues (tilerdShape w) c g w s cl run gr s1 → ∃ t, exec (.tilerd c g w) s = .next t ∧
        parks c run gr .illegalInstr (gr.active w) s1 t) ∧
      (Issues (tilewrShape w) c g w s cl run gr s1 → ∃ t, exec (.tilewr c g w) s = .next t ∧
        parks c run gr .illegalInstr (gr.active w) s1 t)) ∧
    (Issues (emitShape w) c g w s cl run gr s1 → gr.quads ≠ [] → gr.last = false → w.mode.toNat.testBit 3 = false →
      ∃ sent depths, exec (.emit c g w) s =
          .next (s1.retired c { gr with pc := pcAfter gr w, sent := sent, depths := depths }) ∧
        (∀ l ∈ actives gr w, sent.find? (fun x => x.1 == l && x.2.1 == w.mode.toNat % 8) = some (l, w.mode.toNat % 8,
          (List.range 4).map fun ch => BitVec.ofNat 32 ((gr.srcs (emitShape w) w l).a / 2 ^ (32 * ch)))) ∧
        (∀ x, (x.1 ∉ actives gr w ∨ x.2.1 ≠ w.mode.toNat % 8) → (x ∈ sent ↔ x ∈ gr.sent)) ∧
        (w.mode.toNat.testBit 4 = false → depths = gr.depths) ∧
        (w.mode.toNat.testBit 4 = true → ∀ l ∈ actives gr w, ∀ d, (l, d) ∈ depths → d = BitVec.ofNat 32 (gr.srcs (emitShape w) w l).b)) ∧
    (Issues (emitShape w) c g w s cl run gr s1 → gr.quads ≠ [] → gr.last = false → w.mode.toNat.testBit 3 = true →
      exec (.emit c g w) s = .next (((((s1.putGroup c { gr.emit w with pc := pcAfter gr w, last := true }).sendFragments c run
        { gr.emit w with pc := pcAfter gr w } fun l => !((gr.active w).toNat.testBit l)).proceed c).modCluster c
          fun x => { x with core := { x.core with work := x.core.work + 1 } })))

/-- The texture instructions, and those of tile memory. -/
def Obligations.TextureAndTileInstructions : Prop := textureResultsRules ∧ sampleRules ∧ tileInstructionsRules

/-- RAY, RAYRESUME, RAYACCEPT and the end of a traversal complete. RAY takes root, ray and mask of each active lane from
registers and its flags from MOD, and waits for the unit. RAYRESUME returns the results of lanes that have finished unchanged
(R137). RAYACCEPT commits the candidate of every active lane with a callback pending, a procedural hit only when its t lies in
reach (R137). Where every active lane's ray finishes or stops, the group goes on, the results in its registers. -/
def Sys2Proof.rayInstructionsRules : Prop :=
  (∀ (c g : Nat) (w : HWord) (s : State) (cl : Cluster) (run : KernelRun) (gr : Group) (s1 : State),
    Issues rayShape c g w s cl run gr s1 → gr.active w ≠ 0 → (gr.srcs rayShape w 0).c % 16 = 0 →
    ∀ cl1, s1.clusters[c]? = some cl1 → cl1.groups = cl.groups →
    ∃ t cl' gr', exec (.ray c g w) s = .next t ∧ t.clusters[c]? = some cl' ∧ cl'.group? g = some gr' ∧ t.mem = s1.mem ∧
      gr'.st = .tracing false ∧ gr'.pc = gr.pc ∧ gr'.v = gr.v ∧ gr'.s = gr.s ∧ gr'.p = gr.p ∧ gr'.rays.length = 32 ∧
      ∀ l < 32, gr'.rays.getD l noRay = if (gr.active w).getLsbD l then
        { noRay with world := (List.range 8).map fun i => BitVec.ofNat 32 ((gr.srcs rayShape w l).b / 2 ^ (32 * i)),
                     flags := w.mode, mask := BitVec.ofNat 8 ((gr.srcs rayShape w l).c / 2 ^ 24),
                     root := (gr.srcs rayShape w l).a, todo := [{ kind := .node, va := (gr.srcs rayShape w l).a, more := 0 }] }
        else gr.rays.getD l noRay) ∧
  (∀ (c g : Nat) (w : HWord) (s : State) (cl : Cluster) (run : KernelRun) (gr : Group) (s1 : State),
    Issues rayresumeShape c g w s cl run gr s1 → gr.rays.length = 32 → (gr.srcs rayresumeShape w 0).c % 16 = 0 →
    (∀ l < 32, (gr.rays.getD l noRay).world ≠ []) → (∀ l ∈ actives gr w, (gr.rays.getD l noRay).status < 2) →
    exec (.rayresume c g w) s = .next (({ s1 with fv := s1.fv + 1 } : State).retired c ((gr.putRays w (gr.active w)).advance w))) ∧
  (∀ (c g : Nat) (w : HWord) (s : State) (cl : Cluster) (run : KernelRun) (gr : Group) (s1 : State),
    Issues rayacceptShape c g w s cl run gr s1 →
    ∃ rays, exec (.rayaccept c g w) s = .next (({ s1 with fv := s1.fv + 1 } : State).retired c
        { gr with rays := rays, pc := pcAfter gr w }) ∧ rays.length = gr.rays.length ∧
      ∀ l r, l < 32 → gr.rays[l]? = some r → ∃ r', rays[l]? = some r' ∧
        let t := BitVec.ofNat 32 (gr.srcs rayacceptShape w l).b
        (((gr.active w).getLsbD l = false ∨ r.cand = none) → r' = r) ∧
        ((gr.active w).getLsbD l = true → r.cand ≠ none → r.status = 2 →
          r'.hit = r.candHit ∧ r'.hitFront = r.candFront ∧ r'.cand = none ∧ r'.world = r.world ∧
          r'.todo = r.todo ∧ r'.stack = r.stack ∧ r'.status = if r.flags.getLsbD 0 then 1 else 2) ∧
        ((gr.active w).getLsbD l = true → r.cand ≠ none → r.status ≠ 2 → r.inReach t = true →
          r'.hit.head? = some t ∧ r'.hit.drop 3 = r.candHit.drop 3 ∧ r'.cand = none ∧ r'.world = r.world ∧
          r'.status = if r.flags.getLsbD 0 then 1 else r.status) ∧
        ((gr.active w).getLsbD l = true → r.status ≠ 2 → r.inReach t = false → r' = r)) ∧
  ∀ (c g visits : Nat) (s : State) (cl : Cluster) (run : KernelRun) (gr : Group) (p : PendingLoad) (again : Bool) (rays : List RayLane)
    (s1 : State) (cl1 : Cluster),
    s.clusters[c]? = some cl → cl.group? g = some gr → cl.run = some run → gr.st = .tracing again → gr.pend = some p →
    raySteps c run.key visits ((lanesOf p.lanes).filter fun l => !again || (gr.rays.getD l noRay).pending) gr.rays s =
      some (rays, [], s1) → s1.clusters[c]? = some cl1 → cl1.groups = cl.groups →
    ∃ t cl' gr', exec (.rayTraversalDone c g visits) s = .next t ∧ t.clusters[c]? = some cl' ∧ cl'.group? g = some gr' ∧
      t.mem = s1.mem ∧ gr' = ({ gr with st := .running, pend := none, rays := rays }.putRays p.w p.lanes).advance p.w

/-- A traversal's walk (R132 to R135): a lane visits what its leaf has left, then the newest entry of its stack; when both are
empty it ends with HIT or MISS, or, after a drop, begins again at the root with its committed hit. A node's child is taken where
VALID has it and its kind is not empty, at CHILD_BASE + 64 × OFFSET; kind 3 is an instance above the bottom level and a
procedural leaf in it. A node adds at most three entries. An instance whose MASK shares no bit with the ray's is skipped; else
the walk goes on at its bottom level's root, with one entry more. An entry past the sixteenth drops the oldest and sets
OVERFLOWED. -/
def Sys2Proof.rayWalkRules : Prop :=
  (∀ (r : RayLane) (x : RayRef) (xs : List RayRef), r.todo = x :: xs → r.next = some (x, { r with todo := xs })) ∧
  (∀ (r : RayLane) (x : RayRef) (xs : List RayRef), r.todo = [] → r.stack = x :: xs → r.next = some (x, { r with stack := xs })) ∧
  (∀ (r : RayLane), r.todo = [] → r.stack = [] → r.lost = false → r.next = none ∧
    ∀ (c n : Nat) (k : CtxKey) (s : State), walkRay c k (n + 1) r s = some (none, { r with status := if r.hit.isEmpty then 0 else 1 }, s)) ∧
  (∀ (r : RayLane), r.todo = [] → r.stack = [] → r.lost = true → ∃ r', r.next = some ({ kind := .node, va := r.root, more := 0 }, r') ∧
    r'.hit = r.hit ∧ r'.tmax = r.tmax ∧ r'.overflowed = r.overflowed ∧ r'.lost = false ∧ r'.inst = none) ∧
  (∀ (bs : List Byte) (bottom : Bool) (i : Nat) (x : RayRef), nodeChild bs bottom i = some x →
    (bs.getD 15 0).toNat.testBit i = true ∧ x.va = ofLE ((bs.drop 16).take 6) + 64 * ((bs.getD (24 + i) 0).toNat % 64) ∧
    (((bs.getD (24 + i) 0).toNat / 64 = 1 ∧ x.kind = .node) ∨ ((bs.getD (24 + i) 0).toNat / 64 = 2 ∧ x.kind = .tris ∧
      x.more = (bs.getD (28 + i) 0).toNat % 8) ∨ ((bs.getD (24 + i) 0).toNat / 64 = 3 ∧
        ((bottom = true ∧ x.kind = .procs ∧ x.more = (bs.getD (28 + i) 0).toNat % 8) ∨ (bottom = false ∧ x.kind = .inst))))) ∧
  (∀ (r : RayLane) (v : Nat) (x : RayRef) (bs : List Byte), x.kind = .node →
    (r.visit v x bs).1 = true ∧ (r.visit v x bs).2.stack.length ≤ r.stack.length + 3 ∧
    (r.stack.length ≤ 16 → (r.visit v x bs).2.stack.length ≤ 16) ∧ (r.visit v x bs).2.hit = r.hit ∧
    (r.stack.length ≤ 13 → (r.visit v x bs).2.overflowed = r.overflowed ∧ ∃ es, (r.visit v x bs).2.stack = es ++ r.stack)) ∧
  (∀ (r : RayLane) (v : Nat) (x : RayRef) (bs : List Byte), x.kind = .inst →
    ((bs.getD 0x36 0) &&& r.mask = 0 → r.visit v x bs = (true, r)) ∧
    ((bs.getD 0x36 0) &&& r.mask ≠ 0 → bs.length = 64 →
      ∃ r', r.visit v x bs = (true, r') ∧ r'.todo = { kind := .node, va := ofLE ((bs.drop 0x30).take 6), more := 0 } :: r.todo ∧
      r'.hit = r.hit ∧ (r.stack.length < 16 → r'.stack = { kind := .leave, va := 0, more := 0 } :: r.stack))) ∧
  (∀ (r : RayLane) (x : RayRef), r.stack.length = 16 →
    (r.push x).stack = x :: r.stack.dropLast ∧ (r.push x).overflowed = true ∧ (r.push x).lost = true) ∧
  ∀ (r : RayLane) (v i : Nat) (x : ExactRay) (lo hi : Vec3), r.exact = some x → x.meetsBox lo hi = true →
    r.enters v i (some lo) (some hi) = true

/-- The exact tests of a ray (R134). A box is met exactly where some point of the ray between its bounds lies in it. A triangle
is hit where o + t d is its point a + u (b - a) + v (c - a) with weights in range: at most one such point exists, and a triangle
not seen edge on is hit wherever there is one, so a ray through a shared edge hits both. Front is counter-clockwise as seen from
the origin, in right-handed axes (log entry 138). -/
def Sys2Proof.rayTestRules : Prop :=
  (∀ (r : ExactRay) (a b : Vec3), r.meetsBox a b = true ↔ ∃ t : Rat, r.lo ≤ t ∧ t ≤ r.hi ∧
    (a.x ≤ r.o.x + t * r.d.x ∧ r.o.x + t * r.d.x ≤ b.x) ∧ (a.y ≤ r.o.y + t * r.d.y ∧ r.o.y + t * r.d.y ≤ b.y) ∧
    (a.z ≤ r.o.z + t * r.d.z ∧ r.o.z + t * r.d.z ≤ b.z)) ∧
  (∀ (r : ExactRay) (a b c : Vec3) (t u v : Rat) (front : Bool), r.meetsTri a b c = some (t, u, v, front) →
    0 ≤ u ∧ 0 ≤ v ∧ u + v ≤ 1 ∧ r.o.x + t * r.d.x = a.x + u * (b.x - a.x) + v * (c.x - a.x) ∧
    r.o.y + t * r.d.y = a.y + u * (b.y - a.y) + v * (c.y - a.y) ∧ r.o.z + t * r.d.z = a.z + u * (b.z - a.z) + v * (c.z - a.z) ∧
    (front = true ↔ r.d.dot ((b.sub a).cross (c.sub a)) < 0)) ∧
  ∀ (r : ExactRay) (a b c : Vec3) (t u v : Rat), r.d.dot ((b.sub a).cross (c.sub a)) ≠ 0 → 0 ≤ u → 0 ≤ v → u + v ≤ 1 →
    r.o.x + t * r.d.x = a.x + u * (b.x - a.x) + v * (c.x - a.x) → r.o.y + t * r.d.y = a.y + u * (b.y - a.y) + v * (c.y - a.y) →
    r.o.z + t * r.d.z = a.z + u * (b.z - a.z) + v * (c.z - a.z) → ∃ front, r.meetsTri a b c = some (t, u, v, front)

/-- The hits of a ray (R134): a triangle hit outside tmin ≤ t < tmax is ignored; an opaque triangle's hit is committed at once;
other hits and a procedural leaf's box stop the ray for a callback, status 2 and 3. A lane's result is its status word and seven
words: of its candidate at a callback, of its committed hit at status 1 (R136). -/
def Sys2Proof.rayHitsRules : Prop :=
  ∀ (v : Nat) (inst : InstRec) (leaf : List Byte) (r : RayLane) (x : RayRef) (second : Bool) (t u w : Word) (front : Bool),
    let plain := r.inst = some inst ∧ r.flags.toNat.testBit 1 = false ∧ r.flags.toNat.testBit 2 = false ∧
      r.reaches v t = true ∧ inst.bits % 4 = 0
    let tri := r.takeTri v x leaf second t u w front
    (r.reaches v t = false → tri = (true, r)) ∧
    (∀ a b, boundOf (r.world.getD 3 0).toNat = some a → boundOf r.tmax.toNat = some b → r.reaches v t = r.inReach t) ∧
    (plain → (r.flags.toNat.testBit 3 = true ∨ (leafWords leaf second).2.2 = true) →
      tri.1 = !(r.flags.toNat.testBit 0) ∧ tri.2.hit.take 3 = [t, u, w] ∧ tri.2.hit.length = 7 ∧
      tri.2.hit[5]? = some (BitVec.ofNat 32 inst.id) ∧ tri.2.hit[6]? = some (BitVec.ofNat 32 inst.group)) ∧
    (plain → r.flags.toNat.testBit 3 = false → (leafWords leaf second).2.2 = false →
      tri.1 = false ∧ tri.2.status = 2 ∧ tri.2.hit = r.hit ∧ tri.2.cand = some x ∧ tri.2.candHit.take 3 = [t, u, w]) ∧
    ((r.takeBox v x leaf).1 = false ∧ (r.takeBox v x leaf).2.status = 3 ∧ (r.takeBox v x leaf).2.hit = r.hit ∧
      (r.takeBox v x leaf).2.cand = some x) ∧
    (r.status = 1 → r.hit.length = 7 → r.result v =
      BitVec.ofNat 32 (1 + 16 * (if r.overflowed then 1 else 0) + 32 * (if r.hitFront then 1 else 0)) :: r.hit) ∧
    (r.status = 2 ∨ r.status = 3 → r.candHit.length = 7 → r.result v =
      BitVec.ofNat 32 (r.status + 16 * (if r.overflowed then 1 else 0) + 32 * (if r.candFront then 1 else 0)) :: r.candHit)

/-- The ray unit: its registers, its walk over the hierarchy, its exact tests and its hits. -/
def Obligations.RayInstructions : Prop := rayInstructionsRules ∧ rayWalkRules ∧ rayTestRules ∧ rayHitsRules

/-! ## The tile pipeline (R105, R111 to R116, R120, R130) -/

/-- PASS_START completes: a front end whose configuration is armed commits it (R29), reads the pass and goes on with it; a pass
that was switched out goes on where it was, once the state that its front end saved has been read (R189), and so does one that
was parked. -/
def Sys2Proof.passStartsRules : Prop :=
  ∀ (f : Nat) (s : State) (w : Work) (k : CtxKey) (fe : FrontEnd), s.headWork (.front f) = some (w, k) → s.fronts[f]? = some fe →
    (∀ (va : Nat) (r : PassRun) (s2 : State), (s.job? w.job).map Job.kind = some (.pass va none) →
      (s.modFront f fun _ => { fe.commit with core := { fe.commit.core with busy := true } }).beginPass f k
          (if fe.core.armed then fe.shadow else fe.cfg) va = (.ok r, s2) →
      exec (.passStart f) s = .next (((s2.modJob w.job fun j => { j with kind := .pass va (some r) }).modFront f fun x =>
        { x with job := some w.job, direct := r.direct, directs := if r.direct then satInc x.directs else x.directs }).passOn f w.job k)) ∧
    ∀ (va : Nat) (r : PassRun) (s1 s2 : State), (s.job? w.job).map Job.kind = some (.pass va (some r)) →
      s1 = s.modFront f (fun x =>
        { x with job := some w.job, direct := r.direct, core := { x.core with busy := decide (r.phase = .flush) } }) →
      ((r.saved = none ∧ s2 = s1) ∨ ∃ off n bs, r.saved = some (off, n) ∧
        s1.readVa (.engine (.front f)) k (r.desc.pbAddr + off) n = (.ok bs, s2)) →
      exec (.passStart f) s = .next ((s2.modPass w.job fun r => { r with saved := none }).passOn f w.job k)

/-- The mode of a pass (R109, R111): MODE 0 runs BINNED and MODE 1 DIRECT; AUTO runs BINNED with a tile network or FORCE_MODE 1,
DIRECT with FORCE_MODE 2; else it runs DIRECT when the estimate of the parameter buffer passes its budget or that of the
primitives per tile passes PPT_MAX, and after a DIRECT run of the same pass, with HYST_EN, it goes back to BINNED only with an
eighth to spare. A pass begins in its geometry phase with empty lists and its heap at heads_end. -/
def Sys2Proof.passModeRules : Prop :=
  (∀ (f va : Nat) (k : CtxKey) (cfg : Word) (s s2 : State) (r : PassRun), s.beginPass f k cfg va = (.ok r, s2) →
    (r.desc.mode = 0 → r.direct = false) ∧ (r.desc.mode = 1 → r.direct = true) ∧
    (r.desc.mode = 2 → r.desc.tileNet ≠ 0 → r.direct = false) ∧ r.phase = .geometry ∧ r.heads = [] ∧ r.prims = 0 ∧ r.refs = 0 ∧
    r.flushes = 0 ∧ r.heap = r.desc.headsEnd r.tileW r.tileH ∧ r.batches = r.desc.allBatches) ∧
  ∀ (cfg : Word) (d : PassDesc) (v : Nat) (h : List Byte) (tw th : Nat), d.tileNet = 0 →
    let force := cfg.toNat / 4 % 4
    let q := fun o => ofLE ((h.drop o).take 4)
    let hist := (q 4).testBit 0 = true ∧ d.signature ≠ 0 ∧ q 0 = d.signature.toNat ∧ q 8 ≠ 0
    let tiles := d.tiles tw th
    let budget := d.pbBudget * 65536
    (force = 1 → autoDirect cfg d v h tw th = false) ∧ (force = 2 → autoDirect cfg d v h tw th = true) ∧
    (force ≠ 1 → force ≠ 2 → tiles ≠ 0 →
      (hist → ∀ pb ppt, pb = q 0x18 * d.vertexCount / q 8 → ppt = q 0x10 * d.vertexCount / q 8 / tiles → pb * 8 < 2 ^ 64 → ppt * 8 < 2 ^ 64 →
        (autoDirect cfg d v h tw th = true ↔
          if (q 4).testBit 1 = true ∧ cfg.toNat.testBit 1 = true then pb * 8 > budget * 7 ∨ ppt * 8 > d.pptMax * 7
          else pb > budget ∨ ppt > d.pptMax)) ∧
      (¬hist → ∀ most, (∀ x ∈ d.draws, x.vtxDwords ≤ most) → (∃ x ∈ d.draws, x.vtxDwords = most) →
        (autoDirect cfg d v h tw th = true ↔
          d.headsEnd tw th + d.vertexCount * ((16 + 12 * most + 15) / 16 * 16) + (d.vertexCount * 2 + 14) / 15 * 128 > budget ∨
            d.vertexCount * 2 / tiles > d.pptMax)))

/-- The start of a pass and the mode that it takes. -/
def Obligations.PassStarts : Prop := passStartsRules ∧ passModeRules

/-- Binning writes tile lists (R113, R115): the first primitive of a tile takes a chunk of 128 bytes at the heap's end, whose
first entry names it and whose other entries are ends, and the tile's head takes FIRST and COUNT 1; a later primitive that is not
the sixteenth of its chunk takes the next entry and COUNT grows, saturating at 0xFFFF; the heap and the count of references
follow. -/
def Sys2Proof.tileListsRules : Prop :=
  ∀ (f : Nat) (k : CtxKey) (d : PassDesc) (limit draw off t : Nat) (b : Bins) (s s1 s2 : State),
    let entry := toLE 8 (off / 16 + draw % 65536 * 2 ^ 32)
    ((∀ x ∈ b.heads, x.1 ≠ t) → b.heap + 128 ≤ limit →
      s.put (.engine (.front f)) k (d.pbAddr + b.heap) (entry ++ (List.replicate 15 (toLE 8 (3 * 2 ^ 62))).flatMap id) = (none, s1) →
      s1.put (.engine (.front f)) k (d.pbAddr + (0x210000 + 8 * t)) (toLE 8 (b.heap / 16 + 2 ^ 32)) = (none, s2) →
      s.binTile f k d true (some limit) draw off t b =
        (.ok { heap := b.heap + 128, heads := (t, b.heap, 1) :: b.heads, refs := b.refs + 1, high := max b.high (b.heap + 128) }, s2)) ∧
    ((∀ x ∈ b.heads, x.1 ≠ t) → limit < b.heap + 128 → s.binTile f k d true (some limit) draw off t b = (.error .full, s)) ∧
    (∀ c n, (t, c, n) ∈ b.heads → (∀ x ∈ b.heads, x.1 = t → x = (t, c, n)) → n % 15 ≠ 0 →
      s.put (.engine (.front f)) k (d.pbAddr + (c + 8 * (n % 15))) entry = (none, s1) →
      s1.put (.engine (.front f)) k (d.pbAddr + (0x210000 + 8 * t + 4)) (toLE 2 (min (n + 1) 0xFFFF)) = (none, s2) →
      ∃ b', s.binTile f k d true (some limit) draw off t b = (.ok b', s2) ∧ b'.heap = b.heap ∧ b'.refs = b.refs + 1 ∧
        (t, c, n + 1) ∈ b'.heads)

/-- GEOMETRY_BATCH_DONE, FLUSH_TILES_STORED and PASS_COMPLETE complete. A batch whose primitives the lists take is done, the
primitives after culling are counted, and the front end goes on. After a partial flush whose overflow list is empty the heads
are zeroed, the heap is reset, FLUSHES counts and binning resumes (R116, steps 3 and 4). A complete pass leaves its statistics
in the parameter buffer's header in the layout of R113 unless STATS_WRITE is 0 (R112), and its job completes. -/
def Sys2Proof.passProgressRules : Prop :=
  (∀ (f : Nat) (s : State) (w : Work) (k : CtxKey) (fe : FrontEnd) (r : PassRun) (draw inst first count half : Nat) (done : Bool)
    (rest : List (WorkKind × Bool)) (d : Draw),
    s.headWork (.front f) = some (w, k) → s.fronts[f]? = some fe → fe.job = some w.job → s.passRun? w.job = some r →
    r.geom = (.geomBatch draw inst first count half, done) :: rest → r.desc.draws[draw]? = some d →
    (∀ (ps : List PrimOut) (bins : Bins) (s2 s3 s4 : State), r.phase = .geometry → r.direct = false → done = true →
      s.assembleBatch f k r d { draw := draw, inst := inst, first := first, count := count, half := half } = (.ok ps, s2) →
      s2.binPrims f k r.desc d { draw := draw, inst := inst, first := first, count := count, half := half } ps r.bins = (none, bins, s3) →
      s4 = ((s3.modPass w.job fun _ =>
        { r.withBins bins with prims := r.prims + keptPrims ps, phase := .geometry, overflow := [], geom := rest }).endUnit (.front f) k).passOn f w.job k → s4.sluice.reports.length = s2.sluice.reports.length →
      exec (.geometryBatchDone f half) s = .next (s4.modFront f fun x => { x with core := { x.core with work := x.core.work + keptPrims ps } })) ∧
    (∀ s2 s3 : State, r.phase = .flush → r.live = [] → r.overflow = [] → s.zeroHeads f k r.desc r.tileW r.tileH = (none, s2) →
      s3 = ((s2.modPass w.job fun _ =>
        { r with heads := [], heap := r.desc.headsEnd r.tileW r.tileH, flushes := r.flushes + 1, phase := .geometry, geom := rest,
                 flushed := r.flushed ++ (r.heads.map (·.1)).filter fun t => !(r.flushed.contains t) }).endUnit (.front f) k).passOn f w.job k →
      s3.sluice.reports.length = s2.sluice.reports.length →
      exec (.flushTilesStored f) s = .next (s3.modFront f fun x => { x with flushes := satInc x.flushes }))) ∧
  (∀ (f : Nat) (s s2 : State) (w : Work) (k : CtxKey) (fe : FrontEnd) (r : PassRun) (j : Job),
    s.headWork (.front f) = some (w, k) → s.fronts[f]? = some fe → fe.job = some w.job → s.passRun? w.job = some r →
    s.job? w.job = some j → j.outcome = .running → r.finished = true → r.direct = false →
    (∀ c ∈ s.clusters, ∀ x ∈ c.slice, x.job ≠ w.job) →
    (if fe.cfg.toNat.testBit 0 then s.put (.engine (.front f)) k (r.desc.pbAddr + 0) r.header else (none, s)) = (none, s2) →
    ∀ s3 : State, s3 = ((s2.modPass w.job fun r => { r with phase := .idle }).modFront f fun x =>
      { x with job := none, passes := x.passes + 1 }) →
    exec (.passComplete f) s = .next (((({ s3 with arrays := s3.arrays.map (Array.endPass w.job) } : State).retire (.front f) k).endUnit
      (.front f) k).completeJob w.job (.front f))) ∧
  ∀ r : PassRun, r.header.length = 36 ∧
    let q := fun o => ofLE ((r.header.drop o).take 4)
    q 0 = r.desc.signature.toNat ∧ q 4 = 1 + (if r.direct then 2 else 0) ∧ q 8 = r.desc.vertexCount % 2 ^ 32 ∧
      q 0xC = r.prims % 2 ^ 32 ∧ q 0x10 = r.refs % 2 ^ 32 ∧ q 0x14 = r.desc.tiles r.tileW r.tileH % 2 ^ 32 ∧
      q 0x18 = r.high % 2 ^ 32 ∧ q 0x1C = r.flushes % 2 ^ 32

/-- Assembly (R107, R115, R117): the primitives of a batch are assembled from consecutive staged vertices by the topology and
numbered in order, so that numbers never fall along what is left of them; a triangle with an area faces front as FRONT_CW says
of its turn in screen space, whose y points down (log entry 141), and CULL drops it by that; a piece with a place enters the
tiles whose extended area its bounding box meets, in ascending order (R165; log entry 48); a record is the header and the vertex
blocks, whose attributes are those staged. -/
def Sys2Proof.assemblyRules : Prop :=
  (∀ b : BatchAt, (∀ i, i < b.count / 3 → (b.first % 3 = 0 → (b.corners 0)[i]? = some (b.first / 3 + i, [3 * i, 3 * i + 1, 3 * i + 2]))) ∧
    (∀ i, i + 2 < b.count → ∃ c, (b.corners 1)[i]? = some (b.first + i, c) ∧ (c = [i, i + 1, i + 2] ∨ c = [i, i + 2, i + 1])) ∧
    (∀ i, i < b.count / 2 → (b.first % 2 = 0 → (b.corners 2)[i]? = some (b.first / 2 + i, [2 * i, 2 * i + 1]))) ∧
    ∀ i, i < b.count → (b.corners 3)[i]? = some (b.first + i, [i])) ∧
  (∀ (f : Nat) (k : CtxKey) (r : PassRun) (w : Draw) (b : BatchAt) (s s2 : State) (ps : List PrimOut),
    s.assembleBatch f k r w b = (.ok ps, s2) → ps.Pairwise (fun x y => x.primNo ≤ y.primNo) ∧
      ∀ p ∈ ps, (∃ c, (p.primNo, c) ∈ b.corners w.topology) ∧
        (p.tiles.Pairwise (fun x y => x < y) ∧ ∀ t ∈ p.tiles, t < r.desc.tiles r.tileW r.tileH)) ∧
  (∀ (w : Draw) (v j : Nat) (bs : List (List Word)) (a : Rat), triArea bs = some a → a ≠ 0 →
    ((w.facing v j bs).1 = true ↔ (w.frontCw = true ↔ 0 < a)) ∧
    ((w.facing v j bs).2 = true ↔ (w.cull = 1 ∧ (w.facing v j bs).1 = false) ∨ (w.cull = 2 ∧ (w.facing v j bs).1 = true))) ∧
  (∀ (r : PassRun) (v j t : Nat) (bs : List (List Word)) (ps : List (Rat × Rat)), allPlaces bs = some ps →
    (t ∈ r.tilesOf v j bs ↔ t < r.desc.tiles r.tileW r.tileH ∧
      (∃ p ∈ ps, p.1 < (((r.origin t).1 + r.tileW + r.desc.halo : Nat) : Rat)) ∧
      (∃ p ∈ ps, ((((r.origin t).1 : Int) - (r.desc.halo : Int) : Int) : Rat) ≤ p.1) ∧
      (∃ p ∈ ps, p.2 < (((r.origin t).2 + r.tileH + r.desc.halo : Nat) : Rat)) ∧
      ∃ p ∈ ps, ((((r.origin t).2 : Int) - (r.desc.halo : Int) : Int) : Rat) ≤ p.2)) ∧
  (∀ (d : PassDesc) (v : List Word), 4 ≤ v.length → (d.vertexBlock v).length = v.length ∧ (d.vertexBlock v).drop 4 = v.drop 4) ∧
  ∀ (d : PassDesc) (w : Draw) (b : BatchAt) (p : PrimOut), w.topology < 4 → w.vtxDwords < 64 → b.inst < 2 ^ 32 → p.primNo < 2 ^ 32 →
    p.blocks.length = topoVerts w.topology → (∀ x ∈ p.blocks, x.length = w.vtxDwords) →
    let rec_ := d.recordOf w b p
    let q := fun o => ofLE ((rec_.drop o).take 4)
    rec_.length % 16 = 0 ∧ q 0 = (d.seqOf b.draw b.inst p.primNo).toNat ∧
    q 4 = b.draw % 2 ^ 16 + w.vtxDwords * 2 ^ 16 + (3 - topoVerts w.topology) * 2 ^ 22 + (if p.front then 2 ^ 24 else 0) ∧
    q 8 = p.primNo ∧ q 12 = b.inst ∧
    ∀ i j x, i < topoVerts w.topology → (p.blocks.getD i [])[j]? = some x → q (16 + 4 * (w.vtxDwords * i + j)) = x.toNat

/-- TILE_STORE completes: once every attachment of the tile is stored the tile leaves tile memory and the cluster goes on; an
attachment that is to be discarded, outside a flush, writes nothing (R116, R120). QUAD_DISPATCH takes a retire buffer entry and
waits without one; a fragment that arrives before its turn waits in the buffer, and a killed one at the head of its quad's queue
frees its entry without a write (R130). -/
def Sys2Proof.tilesAndSlicesRules : Prop :=
  (∀ (c tile : Nat) (s s2 : State) (cl : Cluster) (kr : KernelRun) (slot : TileSlot) (r : PassRun), s.clusters[c]? = some cl →
    cl.run = some kr → cl.tiles.find? (fun t => t.tile == tile) = some slot → s.passRun? kr.work.job = some r → slot.storable r = true →
    s.runsCtx kr.key = true → s.jobRuns kr.key kr.work.job = true → cl.core.sw = none →
    inTurn (fun ia (s : State) => s.storeAttachment c kr.key r slot ia) r.desc.attachments s = (none, s2) →
    exec (.tileStore c tile) s = .next ((s2.modCluster c fun x => { x with tiles := x.tiles.filter fun t => t.tile != tile
                                                                           tileMem := clearSpan slot.off slot.bytes x.tileMem }).proceed c)) ∧
  (∀ (c : Nat) (k : CtxKey) (r : PassRun) (slot : TileSlot) (i : Nat) (a : Attachment) (s : State), a.storeOp = 1 → slot.flush = false →
    s.storeAttachment c k r slot (i, a) = (none, s)) ∧
  (∀ (f slice qx qy job : Nat) (seq : BitVec 32) (s : State) (fe : FrontEnd) (cl : Cluster) (r : PassRun) (k : CtxKey)
    (rest : List (Nat × SliceExpect)), s.fronts[f]? = some fe → fe.job = some job → s.clusters[slice]? = some cl →
    s.passRun? job = some r → s.jobKey job = some k → r.expect = (slice, ⟨job, qx, qy, seq⟩) :: rest →
    (cl.free = 0 → exec (.quadDispatch f slice qx qy seq) s = .next s) ∧
    (0 < cl.free → s.runsCtx k = true → s.jobRuns k job = true → s.waitingQuad r ⟨job, qx, qy, seq⟩ = none →
      (∀ c < 48, ∀ x, (s.clusters[c]?.bind (·.run)) = some x → x.work.job ≠ job) →
      exec (.quadDispatch f slice qx qy seq) s = .next ((s.modPass job fun p => { p with expect := rest }).modCluster slice fun c =>
        { c with free := c.free - 1, slice := c.slice ++ [⟨job, qx, qy, seq⟩] }))) ∧
  (∀ (slice qx qy job : Nat) (seq : BitVec 32) (s : State) (j : Job) (r : PassRun) (e : Nat × SliceEntry), s.jobs = [j] → j.id = job →
    s.passRun? job = some r →
    r.flying.find? (fun x => x.1 == slice && x.2.at_.qx == qx && x.2.at_.qy == qy && x.2.at_.seq == seq) = some e →
    exec (.fragmentArrive slice qx qy seq) s = .next (((s.modPass job fun p =>
      { p with flying := dropFirst (fun x => decide (x = e)) p.flying }).modCluster slice fun c =>
        { c with buf := c.buf ++ [e.2] }).drainSlice slice 1025)) ∧
  ∀ (slice n : Nat) (s : State) (cl : Cluster), s.clusters[slice]? = some cl →
    ((∀ b ∈ cl.buf, cl.slice.find? (fun x => x.job == b.at_.job && x.qx == b.at_.qx && x.qy == b.at_.qy) ≠ some b.at_) →
      s.drainSlice slice n = s) ∧
    (∀ (b : SliceEntry) (rest : List SliceEntry) (r : PassRun) (k : CtxKey), cl.buf = b :: rest →
      cl.slice.find? (fun x => x.job == b.at_.job && x.qx == b.at_.qx && x.qy == b.at_.qy) = some b.at_ →
      s.passRun? b.at_.job = some r → s.jobKey b.at_.job = some k → s.runsCtx k = true → s.jobRuns k b.at_.job = true →
      s.sluice.reports = [] → (∀ x ∈ b.frags, x.killed = true) →
      s.drainSlice slice (n + 1) = (s.modCluster slice fun c =>
        { c with slice := dropFirst (fun x => decide (x = b.at_)) c.slice, buf := rest, free := c.free + 1 }).drainSlice slice n)

/-- Tile lists, the phases of a pass, and the slices that retire fragments. -/
def Obligations.PassCommands : Prop := tileListsRules ∧ passProgressRules ∧ assemblyRules ∧ tilesAndSlicesRules

/-! ## The Nersovo engine and the flume (R23, R153, R163, R166, R167) -/

/-- An integer sum of an output element (R167): it is exact when it cannot leave INT32 in any order, and saturates at the end it
passes when its terms have one sign. A sum that leaves INT32 itself saturates in every order. -/
def Obligations.IntegerSumsSaturate : Prop :=
  ∀ (k : Nat) (ps : List Int),
    ((∀ qs : List Int, qs.Sublist ps → -(2 ^ 31) ≤ qs.sum ∧ qs.sum ≤ 2 ^ 31 - 1) → intSum k ps = (ps.sum, false)) ∧
    ((∀ x ∈ ps, 0 ≤ x) → intSum k ps = (min ps.sum (2 ^ 31 - 1), decide (2 ^ 31 - 1 < ps.sum))) ∧
    ((∀ x ∈ ps, x ≤ 0) → intSum k ps = (max ps.sum (-(2 ^ 31)), decide (ps.sum < -(2 ^ 31)))) ∧
    ((ps.sum < -(2 ^ 31) ∨ 2 ^ 31 - 1 < ps.sum) → (intSum k ps).2 = true)

/-- LAYER_START, LAYER_COMPLETE and NET_RUN_RESTART complete. An array commits its configuration when it is armed and runs the
layer at the head of its ring; the saturated outputs count in the run when SAT_COUNT_EN is 1 (R167). A completed layer frees the
array, counts in NS_LAYERS, retires its entry and lets its group go on. A layer of a tile network that is not the last ends its
entry too, and the network's work is ready again before every other, the grant kept; with a switch waiting the grant is released
(R24). A faulted run whose accesses are complete starts again from its first group while a restart remains (R163). -/
def Sys2Proof.layerCommandsRules : Prop :=
  (∀ (a l sat : Nat) (s s2 : State) (w : Work) (k : CtxKey) (x : Machine.Array) (j : Job) (run : NetRun) (n : Net) (d : LayerDesc),
    s.headWork (.array a) = some (w, k) → s.arrays[a]? = some x → x.layer = none → w.kind = .layer l → s.job? w.job = some j →
    j.kind = .net run → s.net? j.key run.handle = some n → n.layers[l]? = some d → run.startStamp ≠ 0 →
    ({ a := a, k := k, net := n, tile := false, keep := false, binds := run.binds } : Runner).layer d
      (s.modArray a fun x => { x.commit with layer := some w }) = (.ok sat, s2) →
    exec (.layerStart a) s = .next
      (({ a := a, k := k, net := n, tile := false, keep := false, binds := run.binds } : Runner).outFlight d
        (if (if x.core.armed then x.shadow else x.cfg).toNat.testBit 0 then s2.modRun w.job fun r => { r with sat := r.sat + sat } else s2))) ∧
  (∀ (a l : Nat) (s : State) (w : Work) (x : Machine.Array) (j : Job) (run : NetRun) (n : Net) (d : LayerDesc), s.arrays[a]? = some x →
    x.layer = some w → (∀ r ∈ s.sluice.reports, r.job ≠ some w.job) → w.kind = .layer l → s.job? w.job = some j →
    j.kind = .net run → s.net? j.key run.handle = some n → n.layers[l]? = some d →
    exec (.layerComplete a) s = .next (((((({ s with flight := s.flight.filter fun f => decide (f.who ≠ .engine (.array a)) } : State).modArray a
      fun x => { x with layer := none, layers := x.layers + 1, core := { x.core with work := x.core.work + d.tiles } }).retire
        (.array a) j.key).endUnit (.array a) j.key).layerDone w.job l (.array a)))) ∧
  (∀ (a tile : Nat) (s : State) (w : Work) (x : Machine.Array) (j : Job) (g : Grant) (r : PassRun) (slot : TileSlot) (n : Net) (d : LayerDesc),
    s.arrays[a]? = some x → x.layer = some w → (∀ r ∈ s.sluice.reports, r.job ≠ some w.job) → w.kind = .tileNet tile →
    s.job? w.job = some j → x.grant = some g → s.granted g = some (r, slot, n) → n.layers[x.step]? = some d →
    x.step + 1 ≠ n.layers.length →
    let s1 := (({ s with flight := s.flight.filter fun f => decide (f.who ≠ .engine (.array a)) } : State).modArray a fun x =>
      { x with layer := none, step := x.step + 1, layers := x.layers + 1, core := { x.core with work := x.core.work + d.tiles } })
    exec (.layerComplete a) s = .next ((((if x.core.sw.isSome then s1.releaseGrant a .retired else s1).retire
      (.array a) j.key).endUnit (.array a) j.key).readyAgain w)) ∧
  ∀ (job : Nat) (s : State) (j : Job) (run : NetRun) (n : Net) (cx : Ctx), s.job? job = some j → j.kind = .net run →
    s.net? j.key run.handle = some n → s.ctx? j.key = some cx → cx.st = .active → run.faulted = true → j.outcome = .running →
    s.jobIdle job = true → s.layersInFlight j.key = false → run.attempt < n.retry → (∀ r ∈ s.sluice.reports, r.job ≠ some job) →
    s.procUp 1 = true →
    exec (.netRunRestart job) s = .next (((({ s with nsRestarts := satInc s.nsRestarts } : State).modRun job fun r =>
      { r with attempt := r.attempt + 1, faulted := false }).startGroup job n 0))

/-- The flume (R23, R166): a grant goes to an array of the pass for a tile whose fragments have retired, while cluster and array
hold the same context. An access inside the granted tile completes, and a write changes exactly its bytes of tile memory; one
outside the tile, or made with no grant, does not reach tile memory and faults the job. After its last layer the array releases
the tile. -/
def Sys2Proof.flumeRulesRules : Prop :=
  (∀ (f c tile a : Nat) (s : State) (w : Work) (k : CtxKey) (x : Machine.Array) (cl : Cluster) (fe : FrontEnd) (slot : TileSlot),
    s.headWork (.array a) = some (w, k) → s.arrays[a]? = some x → s.clusters[c]? = some cl → w.kind = .tileNet tile →
    cl.tiles.find? (fun t => t.tile == tile && t.job == w.job) = some slot → x.grant = none → x.layer = none →
    slot.phase = .retired → slot.flush = false → slot.grant = none → cl.core.holder = some k → cl.core.sw = none →
    s.fronts[f]? = some fe → fe.job = some w.job →
    exec (.flumeGrant f c tile a) s = .next ((s.modArray a fun x =>
      { x with grant := some { cluster := c, tile := tile, off := slot.off, bytes := slot.bytes, job := w.job, key := k }
               step := 0
               buf := [] }).modCluster c fun cl =>
      { cl with tiles := cl.tiles.map fun t => if t.tile = tile ∧ t.job = w.job then { t with grant := some a, phase := .granted } else t })) ∧
  (∀ (a c off len : Nat) (write : Bool) (data : List Byte) (s : State) (x : Machine.Array) (g : Grant) (t : PassRun × TileSlot × Net),
    s.arrays[a]? = some x → x.grant = some g →
    (g.cluster = c → g.off ≤ off → off + len ≤ g.off + g.bytes → s.islandUp c = true → c < 48 → s.granted g = some t → data.length = len →
      exec (.flumeAccess a c write off len data) s = .next (if write then s.putTile c off data else s)) ∧
    (g.cluster ≠ c ∨ off < g.off ∨ g.off + g.bytes < off + len → ∀ j, s.job? g.job = some j →
      ∃ t, exec (.flumeAccess a c write off len data) s = .next t ∧ t.mem = s.mem ∧
        (∀ i : Nat, t.clusters[i]?.map (·.tileMem) = s.clusters[i]?.map (·.tileMem)) ∧
        ∃ r, t.sluice.reports = s.sluice.reports ++ [r] ∧ r.kind = .flume ∧ r.source = 2 ∧ r.job = some g.job ∧ r.address = off)) ∧
  (∀ (a c off len l : Nat) (write : Bool) (data : List Byte) (s : State) (x : Machine.Array) (w : Work), s.arrays[a]? = some x →
    x.grant = none → x.layer = some w → w.kind = .layer l →
    exec (.flumeAccess a c write off len data) s = .next (s.netFault w.job l (0x30 + a) .flume write false off)) ∧
  (∀ (a c off len tile : Nat) (write : Bool) (data : List Byte) (s : State) (x : Machine.Array) (w : Work) (k : CtxKey),
    s.arrays[a]? = some x → x.grant = none → x.layer = none → s.headWork (.array a) = some (w, k) → w.kind = .tileNet tile →
    exec (.flumeAccess a c write off len data) s = .next (s.tileNetFault a w.job tile 0 (.flume, write, off))) ∧
  ∀ (a : Nat) (s : State) (x : Machine.Array) (g : Grant) (r : PassRun) (slot : TileSlot) (n : Net), s.arrays[a]? = some x → x.grant = some g →
    s.granted g = some (r, slot, n) → x.layer = none → x.step = n.layers.length →
    exec (.flumeRelease a) s = .next (((s.releaseGrant a .written).retire (.array a) g.key).endUnit (.array a) g.key)

/-- The layers of a network on an array, and its grants of the flume. -/
def Obligations.LayerCommands : Prop := layerCommandsRules ∧ flumeRulesRules

/-! ## Kernels, fault flow and completions (R72, R75, R89, R95, R290 to R292, R311, R320) -/

/-- The state of a group at its start (R75): V0 to V2 hold the thread indices in x, y and z, S0:S1 the argument block, S2 to S4
the workgroup's index, S5 the group's, P0 all ones, P1 the lanes that hold a thread; every other register reads 0. -/
def Sys2Proof.groupStartRules : Prop :=
  ∀ (cl : Cluster) (d : KernelDesc) (wg index args x y z : Nat), 3 ≤ d.vregs → 0 < d.wgX → 0 < d.wgY → args < 2 ^ 64 →
    let count := d.wgX * d.wgY * d.wgZ
    let g := newGroup cl d wg index count args x y z 0 []
    g.Shaped ∧ g.v.length = d.vregs ∧ g.pc = BitVec.ofNat 64 d.code ∧ g.st = .running ∧
    (∀ l < 32, ∀ t, t = 32 * index + l →
      (t < count → (g.v.getD 0 []).getD l 0 = BitVec.ofNat 32 (t % d.wgX) ∧
        (g.v.getD 1 []).getD l 0 = BitVec.ofNat 32 (t / d.wgX % d.wgY) ∧
        (g.v.getD 2 []).getD l 0 = BitVec.ofNat 32 (t / (d.wgX * d.wgY))) ∧
      ((g.p.getD 1 0).getLsbD l = decide (t < count)) ∧
      ∀ r, 3 ≤ r → (g.v.getD r []).getD l 0 = 0) ∧
    g.s.getD 1 0 ++ g.s.getD 0 0 = BitVec.ofNat 64 args ∧ g.s.getD 2 0 = BitVec.ofNat 32 x ∧ g.s.getD 3 0 = BitVec.ofNat 32 y ∧
    g.s.getD 4 0 = BitVec.ofNat 32 z ∧ g.s.getD 5 0 = BitVec.ofNat 32 index ∧ (∀ i, 6 ≤ i → g.s.getD i 0 = 0) ∧
    g.p.getD 0 0 = 0xFFFFFFFF ∧ ∀ i, 2 ≤ i → g.p.getD i 0 = 0

/-- KERNEL_DISPATCH, CLUSTER_UNIT_END and KERNEL_STOP complete. A dispatch begins the share at the head of the ring with an
empty L1 and no group of an earlier kernel; a share whose groups have all ended writes its L1 back, retires its entry and frees
the cluster; a stop parks every group of the kernel (R74, R89, R90, R95). -/
def Sys2Proof.kernelCommandsRules : Prop :=
  (∀ (c : Nat) (s : State) (w : Work) (k : CtxKey) (cl : Cluster) (j : Job) (d : KernelDesc) (next done total : Nat),
    s.headWork (.cluster c) = some (w, k) → s.clusters[c]? = some cl → cl.run = none → s.job? w.job = some j →
    j.kind = .kernel d next done total → w.kind = .kernel →
    exec (.kernelDispatch c) s = .next ((s.modCluster c fun cl =>
      { cl with run := some { work := w, key := k, desc := d, nextWg := 0, pix := [], todo := [] }
                stopJob := none
                wgs := []
                groups := []
                l1 := []
                tiles := []
                tileMem := []
                core := { cl.core with busy := true, armed := false } }).proceed c)) ∧
  (∀ (c : Nat) (s : State) (cl : Cluster) (r : KernelRun), s.clusters[c]? = some cl → cl.run = some r → s.shareOver cl r = true →
    cl.core.sw = none → s.islandUp c = true → (∀ a ∈ s.flight, a.who ≠ .engine (.cluster c)) →
    exec (.clusterUnitEnd c) s = .next ((((((s.flushL1 c).modCluster c fun cl =>
      { cl with run := none, stopJob := none, tileMem := [] }).retire (.cluster c) r.key).endUnit (.cluster c) r.key).shareEnded c r))) ∧
  ∀ (c j : Nat) (s : State) (cl : Cluster) (r : KernelRun), s.clusters[c]? = some cl → cl.stopJob = some j → cl.run = some r →
    r.work.job = j →
    exec (.kernelStop c) s = .next (s.modCluster c fun cl =>
      { cl with stopJob := none, groups := cl.groups.map fun g => { g with parked := true } })

/-- Dispatch, the state in which a group starts, and the ends of units. -/
def Obligations.KernelCommands : Prop := groupStartRules ∧ kernelCommandsRules

/-- FAULT_REPORT and GROUPS_PARKED complete: Sluice takes the report, records it and stops the kernel of the job that faulted; a
fault of a NET_RUN stops its layers at once and is recorded when their accesses are complete (R163); once the groups of the
faulting kernels are parked, an episode that is not eligible loses the context, and an eligible one leaves it (R95, R291). -/
def Sys2Proof.faultCommandsRules : Prop :=
  (∀ (i j : Nat) (s : State) (r : FaultReport), s.sluice.reports[i]? = some r → s.procUp 1 = true → s.fatal = false → r.source = 1 →
    r.job = some j → exec (.faultReport i) s = .next (if (s.stopNet j).layersInFlight r.key then s.stopNet j
      else (((s.stopNet j).modSluice fun l => { l with reports := l.reports.eraseIdx i }).recordFault r).2)) ∧
  (∀ (i : Nat) (s : State) (r : FaultReport), s.sluice.reports[i]? = some r → s.procUp 1 = true → s.fatal = false → r.source ≠ 1 →
    let s1 := ((s.modSluice fun l => { l with reports := l.reports.eraseIdx i }).recordFault r).2
    exec (.faultReport i) s = .next (match r.job with
      | some j => if r.source = 0 ∨ r.source = 2 ∨ r.source = 4 then s1.sendStops j else s1
      | none => s1)) ∧
  ∀ (fn ctx : Nat) (s : State) (c : Ctx) (e : Episode), s.ctx? ⟨fn, ctx⟩ = some c → c.episode = some e → e.waiting = true →
    s.allParked ⟨fn, ctx⟩ = true → s.procUp 1 = true →
    let s1 := s.modCtx ⟨fn, ctx⟩ fun c => { c with episode := some { e with waiting := false } }
    exec (.groupsParked fn ctx) s = .next (if e.eligible then s1 else s1.lose ⟨fn, ctx⟩)

/-- An episode (R290 to R292): the first fault of an ACTIVE context makes it FAULTED and opens the episode, eligible when
context and record are replayable; each fault takes the next FSEQ and the ring index (FSEQ − 1) mod 64; after 64 records a fault
is only counted and its index is 0xFFFF_FFFF; a fault of a LOST or DESTROYING context never changes its state. -/
def Sys2Proof.faultEpisodesRules : Prop :=
  ∀ (r : FaultReport) (s : State) (c : Ctx), s.ctx? r.key = some c → r.restart = false → (∀ u ∈ s.queues, u.wait = none) →
    (c.st = .active → c.episode = none → (c.replayable = true ∧ r.replayable = true) ∨ parkingSource r.source = true →
      (s.recordFault r).1 = c.fseq % 64 ∧ ∃ c', (s.recordFault r).2.ctx? r.key = some c' ∧ c'.st = .faulted ∧ c'.fseq = c.fseq + 1 ∧
        c'.episode = some { first := c.fseq % 64, written := 1, suppressed := 0, eligible := c.replayable && r.replayable,
                            waiting := parkingSource r.source }) ∧
    (c.st = .active → c.episode = none → (c.replayable = false ∨ r.replayable = false) → parkingSource r.source = false →
      ∃ c', (s.recordFault r).2.ctx? r.key = some c' ∧ c'.st = .lost ∧ c'.fseq = c.fseq + 1) ∧
    (∀ e, c.episode = some e → 64 ≤ e.written → (s.recordFault r).1 = 0xFFFFFFFF
      ∧ ∃ c' e', (s.recordFault r).2.ctx? r.key = some c' ∧ c'.episode = some e' ∧ e'.suppressed = e.suppressed + 1 ∧
        e'.written = e.written ∧ e'.first = e.first) ∧
    (c.st = .lost ∨ c.st = .destroying → ∃ c', (s.recordFault r).2.ctx? r.key = some c' ∧ c'.st = c.st)

/-- Fault reports, episodes, stops and the parking of groups. -/
def Obligations.FaultCommands : Prop := faultCommandsRules ∧ faultEpisodesRules

/-- ACCESS_COMPLETE, COPY_CHUNK and COPY_CHUNK_DONE complete. An access leaves the count of its epoch (R311). A chunk whose
segments translate and whose reads and writes succeed moves the bytes, puts accesses in flight, and evaluates the waits on the
fences that it wrote (R300); with its last chunk the copy retires and its job completes (R320). -/
def Obligations.AccessAndCopy : Prop :=
  (∀ (e : Engine) (epoch : BitVec 8) (s : State) (a : Access), (∀ i, e ≠ .copy i) →
    s.flight.find? (fun a => decide (a.who = .engine e) && decide (a.epoch = epoch)) = some a → a.tag = none →
    exec (.accessComplete e epoch .ok) s =
      .next { s with flight := dropFirst (fun a => decide (a.who = .engine e) && decide (a.epoch = epoch)) s.flight }) ∧
  (∀ (e : Nat) (s s1 s2 : State) (w : Work) (k : CtxKey) (c : CopyEngine) (j : Job) (d : CopyDesc) (next total : Nat)
    (xs : List (Segment × List Piece × List Piece)), s.headWork (.copy e) = some (w, k) → s.copies[e]? = some c → c.chunk = none →
    s.job? w.job = some j → j.kind = .copy d next total → d.overlaps = false →
    translateSegments (.copy e) k (d.kind == 4) (d.segments next)
      (s.modCopy e fun c =>
        { c with job := some j.id, core := { c.core with busy := true, armed := c.core.armed && decide (next ≠ 0) } }) = (.ok xs, s1) →
    moveSegments d k xs s1 = (none, s2) →
    ∃ t : State, exec (.copyChunk e) s = .next (t.destWritten (xs.flatMap fun x => x.2.2.map fun p => (p.tgt, p.pa, p.len))) ∧ t.mem = s2.mem ∧ t.ctxs = s2.ctxs ∧ t.jobs = s2.jobs ∧
      (∀ c2, s2.copies[e]? = some c2 → ∃ c3, t.copies[e]? = some c3 ∧ c3.chunk = some next ∧ c3.core = c2.core) ∧
      ∀ a ∈ t.flight, a ∈ s2.flight ∨ (a.who = .engine (.copy e) ∧ a.key = k)) ∧
  ∀ (e k : Nat) (s : State) (c : CopyEngine) (j : Job) (d : CopyDesc) (next total : Nat), s.copies[e]? = some c → c.chunk = some k →
    c.job.bind s.job? = some j → j.kind = .copy d next total → j.outcome = .running →
    let s1 := ((((({ s with flight := s.flight.filter fun a => decide (a.who ≠ .engine (.copy e)) } : State).modCopy e fun c =>
      { c with chunk := none, dest := [], orphan := none, core := { c.core with work := c.core.work + 1 } }).modJob j.id fun j =>
        { j with kind := .copy d (k + 1) total }).endUnit (.copy e) j.key))
    exec (.copyChunkDone e .ok) s = .next (if k + 1 < total then s1
      else ((s1.modCopy e fun c => { c with job := none }).retire (.copy e) j.key).completeJob j.id (.copy e))

/-! ## The Reservoir and DRAM (R38 to R46, R64 to R68) -/

/-- RESERVOIR_ACCESS completes inside the usable capacity while its bank group is there and its words are free of errors: a
read answers what the bytes hold; a write replaces exactly its bytes, and whole words lose their errors (R41, R44). A read that
touches an uncorrectable error answers poison (R43). A write of part of a word with an uncorrectable error leaves that word
(R44). An access beyond the capacity faults its engine's job, and of any other requester it ends the run. -/
def Sys2Proof.reservoirAccessesRules : Prop :=
  ∀ (who : Requester) (addr len : Nat) (data : List Byte) (s : State), addr + len ≤ 128 * (addr / 128 + 1) → addr + len ≤ s.rsvBytes →
    s.islandThere (0x40 + (s.placement addr).1) = true →
    (s.mem.poisoned .reservoir addr len = false →
      exec (.reservoirAccess who false addr len data []) s = .next (s.answer who (s.mem.read .reservoir addr len) false)) ∧
    (∀ fn, who = .host fn → s.mem.poisoned .reservoir addr len = true → ∃ t,
      exec (.reservoirAccess who false addr len data []) s = .next t ∧ t.mem = s.mem ∧
        .data fn (s.mem.read .reservoir addr len) true ∈ t.out) ∧
    (data.length = len → (∀ u ∈ s.queues, u.wait = none) → s.mem.writable .reservoir addr len = true →
      exec (.reservoirAccess who true addr len data []) s = .next { s with mem := s.mem.write .reservoir addr data }) ∧
    (∀ fn, who = .host fn → data.length = len → ∃ t, exec (.reservoirAccess who true addr len data []) s = .next t ∧
      t.mem.dram = s.mem.dram ∧ t.mem.bus = s.mem.bus ∧
      (∀ a, ¬(addr ≤ a ∧ a < addr + len) → readByte t.mem.rsv a = readByte s.mem.rsv a) ∧
      ∀ i < len, readByte t.mem.rsv (addr + i) =
        if (s.mem.rsvUe.contains (wordBase (addr + i)) && !(decide (addr ≤ wordBase (addr + i)) && decide (wordBase (addr + i) + 8 ≤ addr + len))) = true
        then readByte s.mem.rsv (addr + i) else data.getD i 0)

/-- An access beyond the Reservoir's usable capacity (R38): an engine's job faults with RESERVOIR_LIMIT and memory stays; a
requester for which the spec gives no effect ends the run, as an access beyond DRAM does. -/
def Sys2Proof.beyondMemoryRules : Prop :=
  ∀ (who : Requester) (write : Bool) (addr len : Nat) (data : List Byte) (errs : List EccHit) (s : State),
    (len ≤ 128 - addr % 128 → s.rsvBytes < addr + len → (∀ e, who ≠ .engine e) →
      exec (.reservoirAccess who write addr len data errs) s = .fault .reservoirAddress) ∧
    (∀ (i : Nat) (cl : Cluster) (r : KernelRun) (j : Job), who = .engine (.cluster i) → len ≤ 128 - addr % 128 → s.rsvBytes < addr + len →
      s.clusters[i]? = some cl → cl.run = some r → s.job? r.work.job = some j →
      ∃ t f, exec (.reservoirAccess who write addr len data errs) s = .next t ∧ t.mem = s.mem ∧
        t.sluice.reports = s.sluice.reports ++ [f] ∧ f.kind = .reservoirLimit ∧ f.job = some j.id ∧ f.write = write) ∧
    ∀ (valid : List Bool) (link : LinkEcc) (al : Bool), s.dramBytes < addr + len →
      exec (.dramAccess write addr len data valid errs link al) s = .fault .dramAddress

/-- RESERVOIR_ATOMIC of an integer operation on a word without error answers the old value and writes the new one; every other
byte stays (R42). -/
def Sys2Proof.reservoirAtomicsRules : Prop :=
  ∀ (who : Requester) (op : BitVec 4) (wide : Bool) (addr : Nat) (x cmp : BitVec 64) (s : State),
    let n := if wide then 8 else 4
    let old := s.mem.read .reservoir addr n
    op.toNat < 10 → addr % n = 0 → addr + n ≤ s.rsvBytes → s.islandThere (0x40 + (s.placement addr).1) = true →
    s.mem.poisoned .reservoir addr n = false → (∀ u ∈ s.queues, u.wait = none) →
    exec (.reservoirAtomic who op wide addr x cmp []) s = .next (({ s with
      fv := s.fv + 1
      mem := s.mem.write .reservoir addr (toLE n (atomMeaning op.toNat (8 * n) (ofLE old) (x.toNat % 2 ^ (8 * n)) (cmp.toNat % 2 ^ (8 * n)))) }
        : State).answer who old false)

/-- SCRUB_LINE completes in mode A: a line without errors only moves the scrubber on, or ends its pass; a word found
uncorrectable is marked and counted, a corrected one is counted, and no byte changes (R45, R46). -/
def Sys2Proof.scrubberStepsRules : Prop :=
  ∀ (s : State), s.aon.mode = .a → 128 ≤ s.rsvBytes → s.islandThere (0x40 + (s.placement (128 * s.rsv.line)).1) = true →
    (wordsIn s.mem.rsvUe (128 * s.rsv.line) 128 = [] → s.rsv.ce ≤ s.rsv.threshold →
      exec (.scrubLine []) s = .next (s.modRsv fun r =>
        let r : Rsv := { r with active := true }
        if s.rsvBytes / 128 ≤ r.line + 1 then r.endPass else { r with line := r.line + 1 })) ∧
    ∀ errs : List EccHit, ∃ t, exec (.scrubLine errs) s = .next t ∧ t.mem.rsv = s.mem.rsv ∧ t.mem.dram = s.mem.dram ∧
      t.mem.bus = s.mem.bus ∧ (∀ h ∈ errs, h.uncorrectable = true → h.addr / 128 = s.rsv.line → wordBase h.addr ∈ t.mem.rsvUe) ∧
      ∀ w ∈ s.mem.rsvUe, w ∈ t.mem.rsvUe

/-- Accesses, atomics and the scrubber of the Reservoir. -/
def Obligations.ReservoirCommands : Prop := reservoirAccessesRules ∧ reservoirAtomicsRules ∧ scrubberStepsRules

/-- DRAM_ACCESS completes inside the usable capacity while its channel serves. A read without errors answers the bytes and marks
no line; a write with every valid bit set replaces exactly its bytes and frees the words it covers of their errors. While the
channel retrains an access waits (R65, R68). -/
def Sys2Proof.dramAccessesRules : Prop :=
  ∀ (write : Bool) (addr len : Nat) (data : List Byte) (valid : List Bool) (errs : List EccHit) (link : LinkEcc) (al : Bool) (s : State)
    (c : DramChannel), addr + len ≤ s.dramBytes → s.dram[channelOf addr]? = some c → s.channelRuns (channelOf addr) = true →
    (c.retraining = true → exec (.dramAccess write addr len data valid errs link al) s =
      .next (s.modChannel (channelOf addr) fun c => { c with waiting := c.waiting ++ [⟨write, addr, len, data, valid, errs, link, al⟩] })) ∧
    (c.retraining = false → s.mem.poisoned .dram addr len = false →
      exec (.dramAccess false addr len data valid [] .ok false) s = .next (s.say (.dramData addr (s.mem.read .dram addr len) false))) ∧
    (c.retraining = false → data.length = len → ∃ t,
      exec (.dramAccess true addr len data (List.replicate len true) [] link al) s = .next t ∧ t.mem.rsv = s.mem.rsv ∧ t.mem.bus = s.mem.bus ∧
        t.mem.dram = writeBytes addr data s.mem.dram ∧
        ∀ w ∈ s.mem.dramUe, w % 8 = 0 → (w ∈ t.mem.dramUe ↔ ¬(addr ≤ w ∧ w + 8 ≤ addr + len)))

/-- The housekeeping of a DRAM channel that serves completes: a refresh counts, and a refresh-management command where the memory
requires it (R63); MR4 sets the rate, the DQS check orders a retraining by its
limits, a retraining due takes one channel at a time, and its end lets what waited go on in order (R67, R68). PATROL of a line
without errors moves on, wrapping at the end (R66). -/
def Sys2Proof.dramHousekeepingRules : Prop :=
  ∀ (ch : Nat) (s : State) (c : DramChannel), s.dram[ch]? = some c → s.channelRuns ch = true →
    exec (.dramRefresh (.perBank ch)) s = .next (s.modChannel ch fun c => { c with refreshes := c.refreshes + 1 }) ∧
    exec (.dramRefresh (.management ch)) s = .next (if s.part.rfm then s.modChannel ch fun c => { c with rfms := c.rfms + 1 } else s) ∧
    (∀ rate, exec (.mr4Poll ch rate) s = .next (s.modChannel ch fun c => { c with refreshRate := rate })) ∧
    (∀ sub drift, sub / 2 = ch →
      (s.part.hardLimit ≤ drift → exec (.dqsOscillatorCheck sub drift) s = .next (s.modChannel ch fun c => { c with hardPending := true })) ∧
      (s.part.softLimit ≤ drift → drift < s.part.hardLimit → exec (.dqsOscillatorCheck sub drift) s = .next (s.modChannel ch fun c =>
        { c with softPending := true, softSince := if c.softPending then c.softSince else s.now })) ∧
      (drift < s.part.softLimit → drift < s.part.hardLimit → exec (.dqsOscillatorCheck sub drift) s = .next s)) ∧
    ((∀ x ∈ s.dram, x.retraining = false) →
      c.hardPending = true ∨ (c.softPending = true ∧ (s.reservedOpen = false ∨ c.softSince + 1000000 ≤ s.now)) →
      ∃ t, exec (.retraining ch) s = .next t ∧ t.mem = s.mem ∧ t.dram = modNth (fun c =>
        { c with retraining := true, hardPending := false, softPending := false }) ch s.dram) ∧
    ((∃ x ∈ s.dram, x.retraining = true) → exec (.retraining ch) s = .next s) ∧
    (c.retraining = true → (∀ f ∈ s.funs, f.bar2Wait = []) → exec (.retrainingDone ch) s = .next (c.waiting.foldl (fun s q => if q.write then s.dramWrite q else s.dramRead q)
      (s.modChannel ch fun c => { c with retraining := false, waiting := [] }))) ∧
    (ch = channelOf s.sc.patrolAt → s.part.inlineEcc = true → s.sc.patrolCfg.toNat % 2 ^ 16 ≠ 0 → s.aon.mode = .a → c.retraining = false →
      s.sc.patrolAt + 128 ≤ s.dramBytes → wordsIn s.mem.dramUe s.sc.patrolAt 128 = [] →
      exec (.patrol []) s = .next (s.modSc fun c => { c with patrolAt := if s.sc.patrolAt + 256 ≤ s.dramBytes then s.sc.patrolAt + 128 else 0 }))

/-- The DRAM channels: accesses, refresh, retraining and patrol. -/
def Obligations.DramCommands : Prop := dramAccessesRules ∧ dramHousekeepingRules

/-! ## The system cache (R50 to R61, R332) -/

/-- A slice that nothing holds up for a stream and a line: nothing waits or stalls there, no eviction of the line and no atomic
holds it, and neither the coalescing buffer nor the victim cache has it. -/
def Sys2Proof.clearPath (x : Slice) (st : Stream) (t : Target) (line : Nat) : Prop :=
  x.blocks st t line = false ∧ x.coalesces t line = false ∧ x.inVictims t line = false

/-- SYSTEM_CACHE_ACCESS completes (R50, R51, R55): valid bytes are answered from their line; a line that is not there, when the
stream has no miss outstanding and an entry is free, begins a miss, which reserves a way when the range is cacheable; while the
line is under eviction, or a request of the stream waits, the request waits (R55, R56). A PEER read passes, to be answered later
(R50). A HOST or PEER address is a bus address of the stream's function, and what is read across the link carries that function
(R232). -/
def Sys2Proof.cacheReadsRules : Prop :=
  ∀ (st : Stream) (t : Target) (bus len : Nat) (cacheable hint : Bool) (pick : Nat) (s : State) (x : Slice),
    let addr := busPlace st.fn t bus
    t = .dram ∨ t = .host → s.islandThere (0x48 + sliceOf addr / 4) = true → s.sc.slices[sliceOf addr]? = some x →
    addr % 128 + len ≤ 128 →
    let cmd := Instr.systemCacheAccess st t ⟨bus, len⟩ cacheable hint pick .none
    let c := Instr.systemCacheAccess st t ⟨addr, len⟩ cacheable hint pick .none
    let line := addr / 128
    let i := sliceOf addr
    (clearPath x st t line → ∀ l, x.find t line = some l → l.poison = false → l.holds addr len = true →
      exec cmd s = .next (s.answer st.who (s.mem.read t addr len) false)) ∧
    (clearPath x st t line → x.find t line = none → x.missOf t line = none → x.missing st = false → x.misses.length < 32 →
      (t = .host → s.pcie.linkUp = true) →
      (cacheable = false → exec cmd s = .next ((s.modSlice i fun x =>
        { x with misses := x.misses ++ [⟨st, t, line, false, hint, some c⟩] }).askAt t (128 * line) 128)) ∧
      (cacheable = true → ∀ w, x.freeWay line = some w → ∃ t', exec cmd s = .next t' ∧ t'.mem = s.mem ∧ t'.sc.slices[i]? =
        some (x.demand s.scCompat s.scPrefetches ⟨st, t, line, true, hint, some c⟩ (some w) pick) ∧
        (t = .dram → t'.out = s.out))) ∧
    (x.leaving t line = true ∨ x.queued st = true →
      exec cmd s = .next (s.modSlice i fun x => { x with waiting := x.waiting ++ [c] })) ∧
    (t = .host → x.blocks st .peer line = false → s.pcie.linkUp = true →
      exec (.systemCacheAccess st .peer ⟨bus, len⟩ cacheable hint pick .none) s =
        .next ((s.modSlice i fun x => { x with passing := x.passing ++ [(st, addr, len)] }).ask addr len))

/-- SLICE_STORE completes (R51 to R53). The streaming-store detector counts a stream's ascending full-line stores, at most 64
KiB apart, up to 17; a store to a present line is written in place, its bytes valid and the line dirty; a store that is not
cacheable leaves no line; the line of any other takes a place, and holds no byte but those stored. Every store's bytes are what
its address reads as; a store across the link that the cache does not take is a posted write of the stream's function (R232). -/
def Sys2Proof.cacheStoresRules : Prop :=
  (∀ (st : Stream) (t : Target) (bus len : Nat) (data : List Byte) (cacheable hint : Bool) (pick : Nat) (s : State) (x : Slice),
    let addr := busPlace st.fn t bus
    t = .dram ∨ t = .host → s.islandThere (0x48 + sliceOf addr / 4) = true → s.sc.slices[sliceOf addr]? = some x →
    0 < len → addr % 128 + len ≤ 128 → data.length = len → (∀ u ∈ s.queues, u.wait = none) →
    clearPath x st t (addr / 128) → s.scDetects = false →
    let i := sliceOf addr
    let line := addr / 128
    let stored := fun (s : State) => ({ s with mem := s.mem.write t addr data } : State).touchLines t addr len
    (∀ l, x.find t line = some l → exec (.sliceStore st t bus data cacheable hint pick) s = .next (stored s) ∧
      (x.touched t addr len).find t line = some (l.stored (lineMask addr len))) ∧
    (x.find t line = none → cacheable = false → (t = .host → s.pcie.linkUp = true) →
      exec (.sliceStore st t bus data cacheable hint pick) s = .next (if t = .host then (stored s).post data addr else stored s)) ∧
    (x.find t line = none → cacheable = true → ∀ w, x.freeWay line = some w →
      exec (.sliceStore st t bus data cacheable hint pick) s = .next (stored (s.modSlice i fun x =>
        { x with lines := x.lines ++ [⟨t, line, w, false, 0, false, 0, hint⟩] })))) ∧
  (∀ (l : ScLine) (m : BitVec 128), l.poison = false → l.stored m = { l with dirty := true, valid := l.valid ||| m, fresh := 0 }) ∧
  ∀ (x : Slice) (st : Stream) (addr : Nat),
    (∀ k, x.trackers.find? (fun k => decide (k.stream = st)) = some k → 0 < k.count → k.last < addr → addr - k.last ≤ 65536 →
      (x.track st addr true).1 = min (k.count + 1) 17) ∧
    ((∀ k ∈ x.trackers, k.stream ≠ st) → (x.track st addr true).1 = 1) ∧ (x.track st addr false).1 = 0 ∧
    (x.track st addr true).2.trackers.length ≤ 32 ∧
    ∃ k, (x.track st addr true).2.trackers.head? = some k ∧ k.stream = st ∧ k.last = addr

/-- The system cache: reads and stores. -/
def Obligations.CacheReadsAndStores : Prop := cacheReadsRules ∧ cacheStoresRules

/-- The completions at a slice (R51 to R56, R59): a tracker that expires counts from 0 again; a fill makes its line valid,
keeping what is there, ends the miss and answers the reader; the oldest coalescing entry drains and frees what stalls; a write-back
that is accepted ends the eviction. Requests that waited for it are served again. An atomic on a valid line of the slice leaves
the line dirty and answers the old value. -/
def Sys2Proof.cacheCompletionsRules : Prop :=
  (∀ (i : Nat) (st : Stream) (s : State), exec (.trackerIdleExpiry i st) s = .next (s.modSlice i fun x =>
    { x with trackers := x.trackers.map fun k => if k.stream = st then { k with count := 0 } else k })) ∧
  (∀ (i : Nat) (st : Stream) (s : State) (x : Slice) (m : Miss) (addr len : Nat) (cacheable hint : Bool) (pick : Nat) (err : ArrayError),
    s.sc.slices[i]? = some x → x.waiting = [] →
    x.misses.find? (fun m => decide (m.stream = st) && m.request.isSome) = some m → m.alloc = true → addr / 128 = m.line →
    m.request = some (.systemCacheAccess st m.tgt ⟨addr, len⟩ cacheable hint pick err) → addr % 128 + len ≤ 128 →
    s.poisoned m.tgt (128 * m.line) 128 = false →
    exec (.sliceFillComplete i st .ok) s = .next ((s.modSlice i fun x =>
      { x with misses := dropFirst (fun y => decide (y = m)) x.misses
               lines := x.lines.map fun l =>
                 if l.tgt = m.tgt ∧ l.line = m.line then { l with valid := BitVec.allOnes 128, poison := false } else l }).answer
        st.who (s.mem.read m.tgt addr len) false)) ∧
  (∀ (i : Nat) (s : State) (x : Slice) (b : CoalLine) (rest : List CoalLine), s.sc.slices[i]? = some x → x.waiting = [] → x.coal = b :: rest →
    exec (.writeAroundDrain i) s =
      .next ((s.modSlice i fun x => { x with coal := rest, stalled := [] }).sendValid b.tgt b.line b.valid)) ∧
  (∀ (i line : Nat) (t : Target) (s : State) (x : Slice) (l : ScLine), s.sc.slices[i]? = some x → x.waiting = [] →
    x.evicting.find? (fun l => decide (l.tgt = t) && l.line == line) = some l →
    exec (.writeBackAccepted i t ⟨line, .none⟩) s = .next ((if l.dirty then s.wroteBack l .none else s).modSlice i fun x =>
      { x with evicting := dropFirst (fun e => decide (e = l)) x.evicting })) ∧
  (∀ (line : Nat) (valid : BitVec 128) (s : State), s.sendValid .dram line valid = s) ∧
  (∀ (fn a : Nat) (bs : List Byte) (held : Nat → Nat → Bool) (s : State) (m : Msg), a < 2 ^ 64 →
    m ∈ (s.postBy held bs (fn * 2 ^ 64 + a)).out → m ∈ s.out ∨ ∃ k data, m = .write fn k data false) ∧
  ∀ (st : Stream) (t : Target) (bus : Nat) (op : BitVec 4) (wide cacheable : Bool) (v cmp : BitVec 64) (pick : Nat) (s : State)
    (x : Slice) (l : ScLine),
    let addr := busPlace st.fn t bus
    t = .dram ∨ t = .host → s.islandThere (0x48 + sliceOf addr / 4) = true →
    s.sc.slices[sliceOf addr]? = some x → clearPath x st t (addr / 128) → op.toNat < 10 → addr % (if wide then 8 else 4) = 0 →
    x.find t (addr / 128) = some l → l.valid = BitVec.allOnes 128 → l.poison = false → (∀ u ∈ s.queues, u.wait = none) →
    let n := if wide then 8 else 4
    let old := s.mem.read t addr n
    exec (.sliceAtomic st t bus op wide v cmp cacheable ⟨pick, .none⟩) s = .next ((({ s with
      fv := s.fv + 1
      mem := s.mem.write t addr (toLE n (atomMeaning op.toNat (8 * n) (ofLE old) (v.toNat % 2 ^ (8 * n)) (cmp.toNat % 2 ^ (8 * n)))) }
        : State).touchLines t addr n).answer st.who old false)

/-- A request over the link reaches the device's registers: the link and the host side run, the device is awake, and some
function is not FATAL. -/
def Sys2Proof.hostReaches (s : State) : Prop := s.linkSide = true ∧ s.aon.mode.asleep = false ∧ s.fatal = false

/-- Way groups (R61, R332) and SC_MODE (R58): a powered group other than 0 begins to be cleaned; once none of its lines is dirty
it is invalidated and powered off; with every unit in A2 for 50 ms the groups go one after another from the highest. A write to
SC_MODE takes its three bits while nothing runs, and is refused with LIVE_WRITE else. -/
def Sys2Proof.cacheModesAndWaysRules : Prop :=
  (∀ (i g : Nat) (s : State) (x : Slice), s.procUp 2 = true → s.sc.slices[i]? = some x → x.cleaning = none → 0 < g → x.ways.getLsbD g = true →
    exec (.wayGroupPowerDown i g) s = .next (s.modSlice i fun x => { x with cleaning := some g })) ∧
  (∀ (i g : Nat) (s : State) (x : Slice), s.sc.slices[i]? = some x → x.cleaning = some g → g < 4 → s.weir.scIdle = false →
    (∀ l ∈ x.lines ++ x.victims, l.way / 4 = g → l.dirty = false) →
    ∃ t x', exec (.wayGroupCleaned i g) s = .next t ∧ t.mem = s.mem ∧ t.sc.slices[i]? = some x' ∧ x'.cleaning = none ∧
      (∀ b < 4, x'.ways.getLsbD b = (x.ways.getLsbD b && decide (b ≠ g))) ∧ x'.lines = x.lines.filter fun l => decide (l.way / 4 ≠ g)) ∧
  (∀ s : State, s.aon.mode = .a → s.procUp 2 = true → (∀ e ∈ s.engines, ∀ i, s.island? (engineIsland e) = some i → i.a2 = true) →
    exec .scAllIdle50ms s = .next (({ s with weir := { s.weir with scIdle := true } } : State).modSc fun c =>
      { c with slices := c.slices.map fun x =>
          match [3, 2, 1].find? fun g => x.ways.getLsbD g with
          | some g => if x.cleaning = none then { x with cleaning := some g } else x
          | none => x })) ∧
  ∀ (v : Word) (s : State), hostReaches s →
    ((∀ c ∈ s.ctxs, c.resident = false) → (∀ x ∈ s.sc.slices, x.busy = false) →
      exec (.scModeWrite v) s = .next (s.modSc fun c => { c with mode := v &&& 7 })) ∧
    ((∃ c ∈ s.ctxs, c.resident = true) → exec (.scModeWrite v) s = .next (s.modSc fun c => { c with liveWrite := true }))

/-- The system cache: fills, drains, way groups and SC_MODE. -/
def Obligations.CacheCompletionsAndModes : Prop := cacheCompletionsRules ∧ cacheModesAndWaysRules

/-! ## Sluice (R178, R179, R188 to R196, R300) -/

/-- Rounds (R178, R179): in TIMER lock, or after the lock was lost, a round starts when PERIOD_US has passed since the last; a
locking event that has occurred at least half a period after it starts one at its own time, and ends the loss of the lock; when
none has occurred for 2 × PERIOD_US the timer starts one, and the lock is lost unless a table is armed. A new round counts, its
slots are closed, and without an armed table they keep their owners; where no slot reserves bandwidth, memory, contexts and
queues stay. -/
def Sys2Proof.roundsRules : Prop :=
  (∀ s : State, s.tableRuns = true →
    let l := s.sluice
    (l.active.lock = 0 ∨ l.lockLost = true →
      exec .roundTimer s = .next ((s.advance (l.boundary + l.active.period)).newRound (l.boundary + l.active.period))) ∧
    (∀ src, l.active.lockSrc = some src →
      (∀ e, l.events.find? (fun e => decide (e.1 = src) && (decide (l.boundary < e.2) || l.lockLost) &&
          (l.lockLost || decide (l.active.period ≤ 2 * (e.2 - l.boundary)))) = some e →
        exec .roundBoundary s = .next ((s.newRound e.2).modSluice fun l => { l with lockLost := false })) ∧
      (l.lockLost = false → (∀ e ∈ l.events, e.1 = src → e.2 ≤ l.boundary) →
        exec .lockLost s = .next (((s.advance (l.boundary + 2 * l.active.period)).newRound (l.boundary + 2 * l.active.period)).modSluice
          fun x => { x with lockLost := l.armed.isNone })))) ∧
  ∀ (s : State) (now : Nat), s.sluice.armed = none → s.sluice.contended = [] → s.sluice.deferred = [] →
    let t := s.newRound now
    t.sluice.rounds = s.sluice.rounds + 1 ∧ t.sluice.boundary = now ∧ t.sluice.active = s.sluice.active ∧
    t.sluice.runs = s.sluice.runs.map (fun r => { opened := false, isOpen := false, lapsed := false, openedAt := 0, owned := r.owned, denied := false }) ∧
    ((∀ x ∈ s.sluice.active.slots, x.rsvShare = 0) → t.mem = s.mem ∧ t.ctxs = s.ctxs ∧ t.queues = s.queues)

/-- SLOT_OPEN, SLOT_CLOSE and SLOT_LAPSE complete (R179): a slot opens once, at START_US or at the first event of its source
inside its window; it closes LENGTH_US later; a triggered slot whose window has passed without its event lapses, and is counted. -/
def Sys2Proof.slotsRules : Prop :=
  ∀ (i us : Nat) (s s0 : State) (t : Slot) (r : SlotRun), s0 = s.advance us → s0.tableRuns = true →
    s0.sluice.active.slots[i]? = some t → s0.sluice.runs[i]? = some r →
    (∀ a, s0.sluice.opensAt t = some a → r.opened = false → r.lapsed = false → a ≤ s0.now →
      exec (.slotOpen i us) s = .next (s0.modSluice fun l =>
        { l with runs := modNth (fun r => { r with opened := true, isOpen := true, openedAt := a }) i l.runs })) ∧
    (r.isOpen = true → r.openedAt + t.length ≤ s0.now →
      exec (.slotClose i us) s = .next (s0.modSluice fun l => { l with runs := modNth (fun r => { r with isOpen := false }) i l.runs }).retryDeferred) ∧
    (r.opened = false → r.lapsed = false → t.trigger ≠ 0 → s0.sluice.opensAt t = none →
      s0.sluice.boundary + t.start + t.limit < s0.now →
      exec (.slotLapse i us) s = .next (s0.modSluice fun l =>
        { l with runs := modNth (fun r => { r with lapsed := true }) i l.runs, lapsed := satInc l.lapsed })) ∧
    (t.trigger = 0 → s0.sluice.opensAt t = some (s0.sluice.boundary + t.start))

/-- Rounds, and the slots of the Sluice table. -/
def Obligations.RoundsAndSlots : Prop := roundsRules ∧ slotsRules

/-- SCHEDULE_PICK, SWITCH_DRAINED, MAKE_RESIDENT and THERMAL_RANK complete (R188, R190, R193, R194, R328). A free unit is given
to the context that the pick names; a holder of lower standing is switched out; a unit that drained goes to the incoming
context, or is left free. A context that is not resident and that something makes runnable becomes resident while fewer than 128
are, after those that were deferred before it; what an eviction stored of it is read back. Units are ranked by temperature. -/
def Sys2Proof.schedulingRules : Prop :=
  (∀ (e : Engine) (us : Nat) (lvl : Bool) (slot : Option Nat) (k : CtxKey) (s s0 : State) (c : EngineCore), s0 = s.advance us → s0.engine? e = some c →
    s0.procUp 1 = true → s0.enabled e = true → s0.islandThere (engineIsland e) = true → s0.aon.mode = .a → c.sw = none →
    s0.sluice.openSlots = [] → s0.pick e = .claim k lvl slot →
    (c.holder = none → s0.coolerFree e slot = false → exec (.schedulePick e us) s = .next ((s0.setHolder e (some k)).assign e k)) ∧
    (∀ h, c.holder = some h → h ≠ k → s0.frontMaySwitch e h k = true → exec (.schedulePick e us) s = .next (s0.modEngine e fun c =>
      { c with sw := some { out := some h, into := some k }, ring := c.ring ++ [.switch (some h) (some k)] }))) ∧
  (∀ (e : Engine) (s : State) (c : EngineCore) (w : SwitchRun), s.engine? e = some c → c.sw = some w → w.out = none →
    let s1 := s.modEngine e fun c => { c with sw := none, busy := false, ring := [] }
    (w.into = none → exec (.switchDrained e) s = .next (s1.setHolder e none).retryDeferred) ∧
    ∀ k, w.into = some k → exec (.switchDrained e) s = .next
      (if s1.runnable k e then (s1.setHolder e (some k)).assign e k else s1.setHolder e none).retryDeferred) ∧
  (∀ (e : Engine) (s : State) (c : EngineCore) (k : CtxKey), s.engine? e = some c → c.sw = some { out := some k, into := none } →
    s.unitDrained e k = true → exec (.switchDrained e) s =
      .next (((s.switchOut e k).modEngine e fun c => { c with sw := none, busy := false, ring := [] }).setHolder e none).retryDeferred) ∧
  (∀ (fn ctx : Nat) (s s1 : State) (c c1 : Ctx), s.ctx? ⟨fn, ctx⟩ = some c → c.resident = false → s.wakes c = true → s.procUp 1 = true →
    s1 = s.retryDeferred → s1.ctx? ⟨fn, ctx⟩ = some c1 →
    let done := fun (t : State) => t.modSluice fun l => { l with deferred := l.deferred.filter fun x => decide (x ≠ ⟨fn, ctx⟩) }
    (c1.resident = true → exec (.makeResident fn ctx) s = .next (done s1)) ∧
    (c1.resident = false → (s1.ctxs.filter (·.resident)).length < 128 → exec (.makeResident fn ctx) s =
      .next (done ((if c1.stored then s1.storeCtx false ⟨fn, ctx⟩ else s1).modCtx ⟨fn, ctx⟩ fun c => { c with resident := true })))) ∧
  ∀ s : State, s.procUp 2 = true → ∃ cl ns, exec .thermalRank s = .next (s.modSluice fun l => { l with rankCl := cl, rankNs := ns }) ∧
    cl.Perm s.clustersOn ∧ ns.Perm s.arraysOn ∧
    ((∀ t ∈ s.weir.temps, -1000 ≤ t) → cl.Pairwise fun a b => s.weir.temps.getD (a / 2) 0 ≤ s.weir.temps.getD (b / 2) 0)

/-- A registered wait (R195, R196, R297, R300): a poll of its fence replies ST_OK when VALUE has reached the wait's value, else
ST_FENCE_ERROR with the error code when there is one, else it waits on. Sluice reads the fences of DRAM and the Reservoir again,
and polls the remote fences of contexts that are not resident; the engine whose ring head is the wait polls a remote one, and
its unit ends when the wait has left. -/
def Sys2Proof.fencePollsRules : Prop :=
  (∀ (fn q island pa : Nat) (s s1 : State) (u : Queue) (w : Wait) (t : Target), s.queue? fn q = some u → u.wait = some w →
    s.inReset ⟨fn, u.ctx⟩ = false → s.fenceAt ⟨fn, u.ctx⟩ w.addr needR = (.ok (t, pa), s1) →
    let value := ofLE (s1.mem.read t pa 8)
    let err := ofLE (s1.mem.read t (pa + 8) 4)
    (w.value.toNat ≤ value → s.resolveWait fn q island = (s1.dropWaitEntries fn q).finishWait fn q 0 0 (BitVec.ofNat 64 value)) ∧
    (value < w.value.toNat → err ≠ 0 →
      s.resolveWait fn q island = (s1.dropWaitEntries fn q).finishWait fn q stFenceError err (BitVec.ofNat 64 value)) ∧
    (value < w.value.toNat → err = 0 → ∃ w', s.resolveWait fn q island = s1.modQueue fn q (fun u => { u with wait := some w' }) ∧
      w'.value = w.value ∧ w'.addr = w.addr ∧ w'.origin = w.origin)) ∧
  (∀ (s : State) (u : Queue) (w : Wait), s.procUp 1 = true → s.aon.mode = .a → s.queues = [u] → u.wait = some w →
    exec .fenceReread s = .next (if w.remote then s else s.resolveWait u.fn u.q 0x63)) ∧
  (∀ (fn ctx : Nat) (s : State) (c : Ctx) (u : Queue) (w : Wait), s.ctx? ⟨fn, ctx⟩ = some c → c.resident = false → s.aon.mode = .a →
    s.procUp 1 = true → s.queuesOf ⟨fn, ctx⟩ = [u] → u.wait = some w →
    exec (.evictedFencePoll fn ctx .ok) s = .next (if w.remote then s.resolveWait u.fn u.q 0x63 else s)) ∧
  ∀ (e : Engine) (fn q : Nat) (k : CtxKey) (rest : List RingEntry) (s : State) (c : EngineCore), s.engine? e = some c →
    c.ring = .wait fn q k :: rest → c.sw = none → s.aon.mode = .a → s.islandUp (engineIsland e) = true →
    let s1 := s.resolveWait fn q (engineIsland e)
    exec (.remoteWaitPoll e .ok) s = .next (if (match s1.engine? e with
      | some c => c.holdsWait fn q
      | none => false) then s1 else s1.endWaitUnit e k)

/-- Picks, switches, residence, and the polls of fences. -/
def Obligations.SchedulingAndPolls : Prop := schedulingRules ∧ fencePollsRules

/-! ## Display and cameras (R202, R210, R218 to R230) -/

/-- VBLANK_START completes on a pipe whose island runs (R202, R210): the frame counts; an armed pipe commits its shadow (a pipe
that it enables only with a configuration that passes the check), an unarmed one keeps what is applied; the commit's waiters
apart, memory, contexts and queues stay. -/
def Sys2Proof.vblankCommitsRules : Prop :=
  ∀ (p us : Nat) (s : State) (u : Pipe), s.pipes[p]? = some u → s.islandUp (0x68 + p) = true → u.withdraw = [] →
    u.shadowGone = false → u.waiters = [] → u.writes = [] →
    ∃ t u', exec (.vblankStart p us) s = .next t ∧ t.pipes[p]? = some u' ∧ u'.frames = u.frames + 1 ∧ u'.underrun = false ∧
      u'.armed = false ∧ t.mem.dram = s.mem.dram ∧ t.mem.rsv = s.mem.rsv ∧ t.mem.bus = s.mem.bus ∧ t.ctxs = s.ctxs ∧ t.queues = s.queues ∧
      (EventSrc.vblank p, max s.now us) ∈ t.sluice.events ∧
      (u.armed = false → u'.applied = u.applied ∧ u'.shadow = u.shadow) ∧
      (u.armed = true → u.shadow.owner = u.applied.owner → (u.applied.enable = true ∨ u.shadow.enable = false ∨ u.cfgOk u.shadow = true) →
        u'.applied = u.shadow ∧ u'.shadow = u.shadow) ∧
      (u.armed = true → u.shadow.owner = u.applied.owner → u.applied.enable = false → u.shadow.enable = true → u.cfgOk u.shadow = false →
        u'.applied = { u.shadow with enable := false } ∧ u'.cfgBad = true)

/-- The other commands of a display pipe complete (R201, R203, R213, R218 to R220, R229). A protected rectangle whose checksum
is the one expected keeps showing; a mismatch of the content goes to the fallback, one of the fallback to FAILED, and each
counts. A checksum in FAILED changes nothing more. The compositor's flat write ends inside its region. -/
def Sys2Proof.displayEventsRules : Prop :=
  ∀ (p : Nat) (s : State) (u : Pipe), s.pipes[p]? = some u →
    (u.applied.enable = true → u.underrun = false → exec (.pixelUnderrun p) s = .next (s.modPipe p fun u =>
      { u with underrun := true, underruns := satInc u.underruns })) ∧
    (u.underrun = true → exec (.pixelUnderrun p) s = .next s) ∧
    (s.islandUp (0x68 + p) = true →
      exec (.trainingLost p) s = .next (s.modPipe p fun u => { u with trained := false }) ∧
      exec (.hpdEvent p .plug) s = .next (s.modPipe p fun u => { u with hpd := true }) ∧
      exec (.hpdEvent p .unplug) s = .next (s.modPipe p fun u => { u with hpd := false }) ∧
      exec (.hpdEvent p .irq) s = .next (s.modPipe p fun u => { u with hpdIrq := true }) ∧
      (∀ ok, u.training = true → exec (.dpLinkTrainingDone p ok) s = .next (s.modPipe p fun u =>
        { u with training := false, trained := ok, trainFail := !ok })) ∧
      (∀ result data, u.auxBusy = true → result ≠ 0 → exec (.auxTransactionDone p result data) s = .next (s.modPipe p fun u =>
        { u with auxBusy := false, auxResult := result })) ∧
      (∀ data, u.auxBusy = true → u.auxCmd.toNat.testBit 24 = true → u.auxCmd.toNat / 2 ^ 20 % 16 = 15 → data.length = 16 →
        let words := (List.range 4).map fun i => BitVec.ofNat 32 (ofLE ((data.drop (4 * i)).take 4))
        exec (.auxTransactionDone p 0 data) s = .next (s.modPipe p fun u =>
          { u with auxBusy := false, auxResult := 0, auxData := words })) ∧
      (hostReaches s →
        exec (.dspCtrlCommit p) s = .next (s.modPipe p fun u => { u with armed := true }) ∧
        exec (.linkTrain p) s = .next (s.modPipe p fun u => if u.link.toNat % 8 ≤ 4 ∧ u.link.toNat / 8 % 4 ≤ 2 then { u with training := true }
          else { u with training := false, trained := false, trainFail := true }) ∧
        exec (.auxGo p) s = .next (s.modPipe p fun u => { u with auxBusy := true }))) ∧
    (∀ run, u.flatWrite = some run → u.flatDone = false → s.islandUp 0x6C = true → s.flatNoRoom u.applied = false →
      ∃ t, exec (.flatWriteDone p) s = .next t ∧ t.pipes = modNth (fun u => { u with flatDone := true, flatTags := true }) p s.pipes ∧ t.mem.dram = s.mem.dram ∧
        t.mem.bus = s.mem.bus ∧ ∀ a, ¬(u.applied.flatCfg.toNat % 256 * granuleBytes ≤ a ∧
          a < u.applied.flatCfg.toNat % 256 * granuleBytes + levelBytes 4 u.applied.activeW u.applied.activeH) →
          readByte t.mem.rsv a = readByte s.mem.rsv a) ∧
    (u.applied.enable = true → s.islandUp 0x6C = true →
      let d := u.applied.prot
      let crc := s.protCrc d u.protState (u.out.toNat.testBit 0)
      let after := fun (st : ProtState) (n : BitVec 16) => s.modPipe p fun u => { u with lastCrc := crc, protState := st, mismatches := n }
      (u.protState = .failed → exec (.protectCrcCheck p) s = .next (after .failed u.mismatches)) ∧
      (u.protState = .showing → s.protBad d .showing = [] →
        exec (.protectCrcCheck p) s = .next (if crc = d.crc then after .showing u.mismatches
          else match d.origin with
            | some o => match o.src with
              | .queue fn q => (after .fallback (satInc u.mismatches)).event fn q o.seq o.opcode 0x6C stVerifyFail (p + 8) (BitVec.ofNat 64 u.frames.toNat)
              | .mailbox _ => after .fallback (satInc u.mismatches)
            | none => after .fallback (satInc u.mismatches))) ∧
      (u.protState = .fallback → s.protBad d .fallback = [] → d.origin = none →
        exec (.protectCrcCheck p) s = .next (if crc = d.fbCrc then after .fallback u.mismatches else after .failed (satInc u.mismatches))))

/-- A composed pixel (R207, R217): a step whose alpha is 0 leaves the result below as it is, an opaque step of an 8-bit channel
gives its 10-bit value, a pixel that no enabled layer covers is DSP_BG, and a pixel of the shown protected rectangle depends on
the protected layer alone, whatever layers, background, owners and flat layer the pipe has. -/
def Sys2Proof.composedRules : Prop :=
  (∀ (r g b : Rat) (below : List Nat), below.length = 3 → (∀ v ∈ below, v ≤ 1023) →
    blendStep 1 [0, 0, 0, 0] below = below ∧ blendStep 2 [r, g, b, 0] below = below) ∧
  (∀ (x y z v : Nat) (a : Rat), v ≤ 255 →
    blendStep 0 [mkRat v 255, 0, 1, a] [x, y, z] = [widen10 8 v, 0, 1023]) ∧
  (∀ (s : State) (p : Nat) (u : Pipe) (x y : Nat), u.flatValid = false → (∀ l ∈ u.applied.layers, l.enable = true → l.covers x y = false) →
    s.composed p u x y = [u.applied.bg.toNat / 2 ^ 20 % 1024, u.applied.bg.toNat / 2 ^ 10 % 1024, u.applied.bg.toNat % 1024]) ∧
  ∀ (s : State) (p : Nat) (u v : Pipe) (x y : Nat), u.applied.prot = v.applied.prot → u.protState = v.protState → u.protects x y = true →
    s.framePixel p u x y = s.framePixel p v x y

/-- The display pipes: commits at vblank, composition, protected layers, links and events. -/
def Obligations.DisplayCommands : Prop := vblankCommitsRules ∧ composedRules ∧ displayEventsRules

/-- The commands of the camera front end complete (R222 to R230). A started receiver takes packets; a packet with an
uncorrectable header is counted and marks the frame, one of another data type is counted, a good line goes to its row of the
frame's buffer; a frame end hands the frame on, and its record, fence and event follow once its writes are accepted; STOP ends a
frame TRUNCATED. -/
def Obligations.CameraEvents : Prop :=
  ∀ (port vc : Nat) (s : State) (p : Port) (c : Channel), s.camera.ports[port]? = some p → s.chan? port vc = some c → s.islandUp 0x70 = true →
    (hostReaches s → exec (.camStart port) s = .next (s.modPort port fun p => { p with running := true })) ∧
    (hostReaches s → p.running = true → exec (.camStop port) s = .next (s.modPort port fun p =>
      let stop := fun (c : Channel) => match c.cur with
        | some f => { c with cur := none, done := c.done ++ [{ f with truncated := true, ended := true }] }
        | none => c
      { p with running := false, chans := p.chans.map stop })) ∧
    (∀ us f rest, c.done = f :: rest → exec (.frameEnd port vc us) s = .next ((s.advance us).finishFrame port vc c f)) ∧
    (p.running = true →
      (∀ result, exec (.deskewBurst port result) s = .next (s.modPort port fun p => { p with deskew := result })) ∧
      exec (.frameEndPacket port vc) s = .next (s.modChan port vc fun c => match c.cur with
        | some f => { c with cur := none, done := c.done ++ [{ f with ended := true }] }
        | none => c) ∧
      (∀ line : CsiLine, line.hdr = .uncorrectable → exec (.csiPacket port vc line) s =
        .next ((s.modPort port fun p => { p with hdrErr := satInc p.hdrErr }).modFrame port vc fun f => { f with errHdr := true })) ∧
      (∀ line : CsiLine, line.hdr ≠ .uncorrectable → line.dt.toNat ≠ c.applied.dt →
        exec (.csiPacket port vc line) s = .next (s.modPort port fun p => { p with badDt := satInc p.badDt })) ∧
      (∀ (line : CsiLine) (f : Frame) (b : CamBinding) (i r : Nat) (s2 : State), line.hdr ≠ .uncorrectable → line.crcBad = false →
        dtOk line.dt.toNat = true → line.dt.toNat = c.applied.dt → c.cur = some f → f.buf = some i → f.bind = some b →
        c.applied.outRow line.row = some r → r * c.applied.stride + c.applied.rowBytes ≤ b.bytes →
        s.camWrite c b.key (b.bufs.getD i 0 + r * c.applied.stride) (c.applied.lineBytes line.pixels) = (none, s2) →
        exec (.csiPacket port vc line) s = .next (s2.modFrame port vc fun f => { f with lines := f.lines + 1 })) ∧
      (c.armed = false → c.cur = none → c.removing = false → c.gone = [] → c.applied.enable = true →
        let fresh : Option CamBinding → Frame := fun b => ⟨none, false, false, false, false, false, 0, s.count 0x70, false, b, c.applied.dropBad⟩
        (c.appliedBind = none → exec (.frameStart port vc) s = .next (s.modChan port vc fun c => { c with cur := some (fresh none) })) ∧
        (∀ b i x, c.appliedBind = some b → s.ctx? b.key = some x → x.st ≠ .lost → c.pickBuffer b = some i →
          exec (.frameStart port vc) s = .next (s.modChan port vc fun c =>
            { c with cur := some { fresh b with buf := some i }, nextBuf := (i + 1) % b.count }))))

/-! ## The host link (R231 to R263, R412) -/

/-- The register commands complete (R70, R235, R237, R243, R256, R384): a read of a register of FN_ returns its word; the
writable ones take a write; PF1 to PF3 do not reach the management range, and only aligned accesses of 32 bits reach a register:
such an access is counted, a read of it returns 0, and nothing else changes. The clears put counts and logs at 0. Unmasking a
vector sends what is pending. -/
def Obligations.HostRegisters : Prop :=
  ∀ (fn : Nat) (s : State) (f : Fun), s.funs[fn]? = some f → f.d3hot = false → hostReaches s →
    (∀ off v, off < 0x1000 → off % 4 = 0 →
      exec (.bar0Access fn false off 4 v) s = .next (s.completeData fn (toLE 4 (s.readFn fn off f)) false) ∧
      exec (.bar0Access fn true off 4 v) s = .next (s.modFun fn (Fun.writeReg off (v.setWidth 32))) ∧
      exec (.registerWrite fn off (v.setWidth 32)) s = .next (s.modFun fn (Fun.writeReg off (v.setWidth 32)))) ∧
    (∀ off size v, 0x2000 ≤ off → off < 0x10000 → fn ≠ 0 →
      exec (.bar0Access fn true off size v) s = .next (s.modFun fn fun f => { f with denied := satInc f.denied }) ∧
      exec (.bar0Access fn false off size v) s =
        .next ((s.modFun fn fun f => { f with denied := satInc f.denied }).completeData fn (List.replicate size 0) false)) ∧
    (∀ off size v, off < 0x2000 → size ≠ 4 ∨ off % 4 ≠ 0 →
      exec (.bar0Access fn true off size v) s = .next (s.modFun fn fun f => { f with badAccess := satInc f.badAccess })) ∧
    exec (.fnErrClear fn) s = .next (s.modFun fn fun f => { f with badAccess := 0, denied := 0, unsupported := 0, poisonSent := 0 }) ∧
    (f.mboxBusy = false → exec (.mboxGo fn) s = .next (s.modFun fn fun f => { f with mboxBusy := true, mboxHeld := false })) ∧
    exec (.testEnter fn) s = .next (s.modFun fn fun f => { f with service := .test }) ∧
    (f.service = .test → exec (.testExit fn) s = .next (s.modFun fn fun f => { f with service := .normal })) ∧
    exec .rsvEccClearLog s = .next (s.modRsv fun r => { r with logAddr := 0, logSyn := 0 }) ∧
    exec .rsvEccClearCounts s = .next (s.modRsv fun r => { r with ceCount := 0, ueCount := 0 }) ∧
    exec .scEccClearLog s = .next (s.modSc fun c => { c with dramLog := 0 }) ∧
    exec .scEccClearCounts s = .next (s.modSc fun c => { c with dramCe := 0, dramUe := 0, linkEcc := 0, array := 0, retrain := 0 }) ∧
    ∀ vec < 2048, exec (.msixVectorUnmask fn vec) s =
      .next ((s.modFun fn fun f => f.setVector { f.vector vec with mask := false }).sendPending fn)

/-- A doorbell write completes (R261 to R263): 8 bytes give WRITE and STATUS_READ, 4 bytes one of them; the queue takes the
values and enters the function's FIFO, or its pending map when the FIFO is full, and keeps the place it has; a HALTED queue
takes STATUS_READ only; a queue that is not there, one being destroyed, and a value outside its ring are counted in FN_DB_STATUS
and change nothing else; while the function is not READY a write is dropped uncounted; another size or alignment is a bad
access. -/
def Obligations.Doorbells : Prop :=
  ∀ (fn q : Nat) (v : BitVec 64) (s : State) (f : Fun), s.funs[fn]? = some f → f.d3hot = false → hostReaches s →
    (f.st ≠ .ready → exec (.doorbellWrite fn (8 * q) 8 v) s = .next s ∧ exec (.doorbellWrite fn (8 * q) 4 v) s = .next s ∧
      exec (.doorbellWrite fn (8 * q + 4) 4 v) s = .next s) ∧
    (f.st = .ready →
    let dropped := s.modFun fn fun f => { f with dbDropped := satInc f.dbDropped }
    (s.queue? fn q = none → exec (.doorbellWrite fn (8 * q) 8 v) s = .next dropped ∧ exec (.doorbellWrite fn (8 * q) 4 v) s = .next dropped ∧
      exec (.doorbellWrite fn (8 * q + 4) 4 v) s = .next dropped) ∧
    (∀ u cx, s.queue? fn q = some u → s.ctx? ⟨fn, u.ctx⟩ = some cx →
      (u.destroying.isSome = true ∨ cx.st = .destroying ∨ 2 ^ u.ringLog2 ≤ v.toNat % 2 ^ 32 ∨ 2 ^ u.statusLog2 ≤ v.toNat / 2 ^ 32 →
        exec (.doorbellWrite fn (8 * q) 8 v) s = .next dropped) ∧
      (u.destroying.isSome = true ∨ cx.st = .destroying ∨ 2 ^ u.ringLog2 ≤ v.toNat % 2 ^ 32 →
        exec (.doorbellWrite fn (8 * q) 4 v) s = .next dropped) ∧
      (u.destroying.isSome = true ∨ cx.st = .destroying ∨ 2 ^ u.statusLog2 ≤ v.toNat % 2 ^ 32 →
        exec (.doorbellWrite fn (8 * q + 4) 4 v) s = .next dropped) ∧
      (u.destroying = none → cx.st ≠ .destroying →
        (v.toNat % 2 ^ 32 < 2 ^ u.ringLog2 → v.toNat / 2 ^ 32 < 2 ^ u.statusLog2 →
          (u.halted = false → exec (.doorbellWrite fn (8 * q) 8 v) s = .next ((s.modQueue fn q fun u =>
            { u.readTo (v.toNat / 2 ^ 32) with write := v.toNat % 2 ^ 32 }).enlist fn q)) ∧
          (u.halted = true → exec (.doorbellWrite fn (8 * q) 8 v) s = .next (s.modQueue fn q fun u => u.readTo (v.toNat / 2 ^ 32)))) ∧
        (v.toNat % 2 ^ 32 < 2 ^ u.ringLog2 →
          (u.halted = true → exec (.doorbellWrite fn (8 * q) 4 v) s = .next s) ∧
          (u.halted = false → exec (.doorbellWrite fn (8 * q) 4 v) s =
            .next ((s.modQueue fn q fun u => { u with write := v.toNat % 2 ^ 32 }).enlist fn q))) ∧
        (v.toNat % 2 ^ 32 < 2 ^ u.statusLog2 →
          (u.halted = true → exec (.doorbellWrite fn (8 * q + 4) 4 v) s = .next (s.modQueue fn q fun u => u.readTo (v.toNat % 2 ^ 32))) ∧
          (u.halted = false → exec (.doorbellWrite fn (8 * q + 4) 4 v) s =
            .next ((s.modQueue fn q fun u => u.readTo (v.toNat % 2 ^ 32)).enlist fn q)))))) ∧
    (q ∈ f.fifo → s.enlist fn q = s) ∧
    (q ∉ f.fifo → f.fifo.length < 4096 → s.enlist fn q = s.modFun fn fun f => { f with fifo := f.fifo ++ [q] }) ∧
    (q ∉ f.fifo → 4096 ≤ f.fifo.length → ∃ g, (s.enlist fn q).funs[fn]? = some g ∧ g.fifo = f.fifo ∧ q ∈ g.pendingMap ∧ g.overflowed = true) ∧
    (∀ off size, (size ≠ 8 ∨ off % 8 ≠ 0) → (size ≠ 4 ∨ off % 4 ≠ 0) →
      exec (.doorbellWrite fn off size v) s = .next (s.modFun fn fun f => { f with badAccess := satInc f.badAccess })) ∧
    ∀ u : Queue, u.readTo (v.toNat / 2 ^ 32) = { u with statusRead := v.toNat / 2 ^ 32, unread :=
      u.unread - (v.toNat / 2 ^ 32 + 2 ^ u.statusLog2 - u.statusRead) % 2 ^ u.statusLog2 }

/-- BAR2 and BAR4 (R240 to R242, R250, R308): inside the function's windows a read returns the bytes and a write replaces
exactly them; outside, the access is counted, a read is answered with Unsupported Request, and memory stays; a write into the
protected region is counted as denied; a poisoned write changes no byte. A line of the system cache that is present takes what
BAR2 writes (R50). -/
def Obligations.Apertures : Prop :=
  ∀ (fn off len : Nat) (data : List Byte) (s : State) (f : Fun), s.funs[fn]? = some f → f.d3hot = false → s.apertureShut fn = false →
    hostReaches s → data.length = len → off + len ≤ 0x10000000 → off + len ≤ 2 ^ f.bar2Log2 →
    (s.ownsRsv fn off len = true → s.poisoned .reservoir off len = false →
      exec (.bar4Access fn false off len data false []) s = .next (s.completeData fn (s.mem.read .reservoir off len) false)) ∧
    (s.ownsRsv fn off len = true → s.touchesProtected off len = false → s.touchesRt fn .reservoir off len = false →
      s.mem.writable .reservoir off len = true →
      exec (.bar4Access fn true off len data false []) s = .next { s with mem := s.mem.write .reservoir off data }) ∧
    (s.ownsRsv fn off len = true → s.touchesProtected off len = false → s.touchesRt fn .reservoir off len = false →
      exec (.bar4Access fn true off len data true []) s = .next (s.aerUncorrectable fn 12)) ∧
    (s.touchesProtected off len = true →
      exec (.bar4Access fn true off len data false []) s = .next (s.modFun fn fun f => { f with denied := satInc f.denied })) ∧
    (s.ownsRsv fn off len = false →
      exec (.bar4Access fn false off len data false []) s = .next ((s.modFun fn fun f => { f with unsupported := satInc f.unsupported }).unsupported fn)) ∧
    ∀ a, windowAddr f.dramWin (f.aperture2.toNat % 1024 * 67108864 + off) = some a → 0 < len →
      (f.aperture2.toNat % 1024 * 67108864 + off) % 67108864 + len ≤ 67108864 → f.bar2Wait = [] → s.retrainingIn [(a, len)] = false →
      (s.poisoned .dram a len = false →
        exec (.bar2Access fn false off len data false []) s = .next (s.completeData fn (s.mem.read .dram a len) false)) ∧
      (s.touchesRt fn .dram a len = false →
        exec (.bar2Access fn true off len data false []) s =
          .next (({ s with mem := s.mem.write .dram a data } : State).touchLines .dram a len))

/-- The link's own commands complete (R231, R233, R257, R412). A configuration write moves the function's power state, MSI-X
control and completion timeout; the class code and the types of the base address registers read as R231 and R234 say; a
function-level reset names the function's tenant domain. A successful completion brings the data and ends its request;
Unsupported Request, Completer Abort and the timeout end it in LINK_ERROR and are logged. Training, recovery and the power
states of the link show in its registers. -/
def Sys2Proof.linkCommandsRules : Prop :=
  (∀ (fn off : Nat) (v : Word) (s : State) (f : Fun), s.funs[fn]? = some f → hostReaches s →
    exec (.configAccess fn true off v) s = .next ((s.modFun fn fun f =>
      (f.configWrite (off / 4 * 4) v.toNat).configStore (off / 4 * 4) v).sendPending fn) ∧
    (∃ w, exec (.configAccess fn false off v) s = .next (({ s with fv := s.fv + 1 } : State).completeData fn (toLE 4 w) false) ∧
      (off / 4 = 2 → w / 256 = 0x030200) ∧ (off / 4 = 4 → w % 2 ^ 24 = 4) ∧ (off / 4 = 6 → f.bar2Log2 ≤ 32 → w % 2 ^ f.bar2Log2 = 12) ∧
      (off / 4 = 8 → w % 2 ^ 28 = 12)) ∧
    (fn < 4 → exec (.flr fn) s = .next
      (let s1 := s.modFun fn fun f => { f.configReset with vote := 0 }
       ({ s1 with levee := { s1.levee with doeOrder := s1.levee.doeOrder.filter fun x => x != fn } } : State).takeReset
        (({ s1 with levee := { s1.levee with doeOrder := s1.levee.doeOrder.filter fun x => x != fn } } : State).named' 7 fn none true)))) ∧
  (∀ (tag : Nat) (data : List Byte) (s : State) (r : NpReq), s.pcie.reqs.find? (fun r => r.tag == tag) = some r → r.issued = true →
    s.pcie.linkUp = true → data.length = r.len →
    exec (.completionReceived tag .success data) s =
      .next (({ s with mem := { s.mem with bus := writeBytes r.addr data s.mem.bus } } : State).requestEnds r none) ∧
    exec (.completionReceived tag .unsupported data) s = .next ((s.aerUncorrectable r.fn 20).requestEnds r (some .linkError)) ∧
    exec (.completionReceived tag .abort data) s = .next ((s.aerUncorrectable r.fn 15).requestEnds r (some .linkError)) ∧
    (∀ f, s.funs[r.fn]? = some f →
      (f.noTimeout = false → exec (.completionTimeout tag) s = .next ((s.aerUncorrectable r.fn 14).requestEnds r (some .linkError))) ∧
      (f.noTimeout = true → exec (.completionTimeout tag) s = .next s))) ∧
  ∀ s : State,
    (s.pcie.linkUp = true → exec .linkRecovery s = .next (s.modPcie fun p => { p with recoveries := satInc p.recoveries })) ∧
    (∀ (rate : BitVec 4) (width : BitVec 3), s.aon.mode = .a → rate ≠ 0 → width = 1 ∨ width = 2 ∨ width = 4 →
      rate.toNat ≤ s.pcie.cfg.toNat % 16 → rate.toNat ≤ s.targetRate → width.toNat ≤ s.pcie.cfg.toNat / 16 % 8 →
      exec (.pcieLinkTrained rate width) s = .next (s.modPcie fun p =>
        { p with linkUp := true, rate := rate, width := width, l0pWidth := 0, pm := 0 })) ∧
    (∀ pm l0p : BitVec 3, s.pcie.linkUp = true → pm.toNat ≤ 4 → pm ≠ 1 →
      exec (.linkPowerStateChange pm l0p) s = .next (s.modPcie fun p => { p with pm := pm, l0pWidth := 0 })) ∧
    ∀ l0p : BitVec 3, s.pcie.linkUp = true → s.pcie.cfg.toNat.testBit 7 = true →
      exec (.linkPowerStateChange 1 l0p) s = .next (s.modPcie fun p => { p with pm := 1, l0pWidth := l0p })

/-- The data objects complete (R254, R255): while Levee's processor serves, an object of a free mailbox is answered at once and
the answer stands in that function's mailbox; one of more than 4 KiB with its header sets the Error bit; an Abort clears
request, response and error. A version, a discovery, and a certificate outside slot 0 have the answers of their protocols (the
layouts: log entry 76). -/
def Sys2Proof.dataObjectsRules : Prop :=
  ∀ (fn : Nat) (req : List Byte) (s : State) (f : Fun), s.funs[fn]? = some f → hostReaches s →
    let answered := fun (rsp : List Byte) =>
      ({ s with fv := s.fv + 1 } : State).modFun fn fun f => Fun.spdmHeard req rsp { f with doeReq := none, doeRsp := rsp }
    (f.doeReq = none → s.levee.doeOrder = [] → s.procUp 3 = true → req.length ≤ 4088 →
      exec (.doeDiscovery fn req) s = .next (({ s with fv := s.fv + 1 } : State).modFun fn fun f =>
        { f with doeReq := none, doeRsp := discoveryAnswer req }) ∧
      (req.getD 1 0 = 0x84 → exec (.getVersion fn req) s = .next (answered spdmVersion)) ∧
      (req.getD 0 0 = 0x12 →
        (req.getD 1 0 = 0xE1 → exec (.getCapabilities fn req) s = .next (answered spdmCapabilities)) ∧
        (req.getD 1 0 = 0xE3 → exec (.negotiateAlgorithms fn req) s = .next (answered (spdmAlgorithms req))) ∧
        (req.getD 1 0 = 0x81 → exec (.getDigests fn req) s = .next (answered spdmDigests)) ∧
        (req.getD 1 0 = 0x82 → exec (.getCertificate fn req) s = .next (answered (spdmCertificate req))) ∧
        (req.getD 1 0 = 0x83 → ∃ rsp, exec (.challenge fn req) s = .next (answered rsp)) ∧
        (req.getD 1 0 = 0xE0 → ∃ rsp, exec (.getMeasurements fn req) s = .next (answered rsp) ∧
          (req.getD 2 0 = 1 → (req.getD 36 0).toNat % 16 ≠ 0 → rsp = spdmError 1)))) ∧
    (f.doeReq = none → 4088 < req.length → exec (.doeDiscovery fn req) s = .next (s.modFun fn fun f => { f with doeError := true })) ∧
    (f.doeReq.isSome = true → exec (.doeDiscovery fn req) s = .next s) ∧
    exec (.doeAbort fn) s = .next ((s.modFun fn fun f => { f with doeReq := none, doeRsp := [], doeError := false }).modLevee fun v =>
      { v with doeOrder := v.doeOrder.filter fun x => x != fn })

/-- The host link, and the data objects of its mailboxes. -/
def Obligations.LinkCommands : Prop := linkCommandsRules ∧ dataObjectsRules

/-! ## Packets (R258 to R286) -/

/-- The checks of R266 in their order, for a packet of NOP, of an unassigned opcode and of two that have checks of their own:
the first that fails gives the status and the detail, and nothing else is done. NOP has no check of its own. A LOST context is
refused its id in the detail. -/
def Sys2Proof.packetChecksRules : Prop :=
  (∀ (src : Src) (p : Packet) (pk : Pk) (s b : State), Taken nopSpec src p pk s b →
    exec (.nop src p) s = .next (answered src pk stOk 0 (offHead src p b))) ∧
  (∀ (op : BitVec 8) (src : Src) (p : Packet) (pk : Pk) (s b : State), op.toNat ∉ assignedOpcodes → Reaches (unassignedSpec op) src p pk s b →
    exec (.unassignedOpcode src op p) s = .next (answered src pk stBadOpcode op.toNat (offHead src p b))) ∧
  (∀ (src : Src) (p : Packet) (pk : Pk) (s b : State), Reaches marginReplanSpec src p pk s b → (pk.fn ≠ 0 ∨ pk.key = none) →
    exec (.marginReplan src p) s = .next (answered src pk stNotPermitted 0 (offHead src p b))) ∧
  ∀ (fn q : Nat) (p : Packet) (pk : Pk) (s b : State), Reaches ctxReplaySpec (.queue fn q) p pk s b →
    (p.len ≠ 8 → ∃ u : Queue, s.queue? fn q = some u ∧
      exec (.ctxReplay (.queue fn q) p) s = .next (answered (.queue fn q) pk stBadPacket (4 + u.read * 256) (offHead (.queue fn q) p b))) ∧
    (p.len = 8 → ∀ k c, pk.key = some k → (offHead (.queue fn q) p b).ctx? k = some c → c.st = .lost →
      exec (.ctxReplay (.queue fn q) p) s = .next (answered (.queue fn q) pk stContextLost k.id (offHead (.queue fn q) p b))) ∧
    (p.len = 8 → (∀ k c, pk.key = some k → (offHead (.queue fn q) p b).ctx? k = some c → c.st ≠ .lost) → pk.f 0 31 10 ≠ 0 →
      exec (.ctxReplay (.queue fn q) p) s = .next (answered (.queue fn q) pk stBadParam 1 (offHead (.queue fn q) p b)))

/-- What holds a packet and what halts its queue (R264, R268, R269, R275). A queue with nothing to take leaves the list. A full
status ring, or an unmet barrier, leaves the packet at the head and ends the turn: the queue stands at the tail of the FIFO, and
the next function's turn comes. A ring that cannot be read, or a length that is not valid, halts the queue. A NOP stands for
every opcode. -/
def Sys2Proof.packetHoldsRules : Prop :=
  ∀ (fn q : Nat) (p : Packet) (s : State) (u : Queue) (c : Ctx), s.queue? fn q = some u → s.ctx? ⟨fn, u.ctx⟩ = some c → c.st ≠ .destroying →
    s.serves fn = true → u.halted = false → u.destroying = none → u.wait = none → u.held = none → s.awaitsReply fn q = false → s.mayServe fn q = true →
    s.neverEnds fn p.ring = false → s.neverEnds fn p.named = false →
    (u.read ≠ u.write → ∃ g, (s.endTurn fn q).funs[fn]? = some g ∧ g.fifo.getLast? = some q ∧ (s.endTurn fn q).hgServing = none ∧
      (s.endTurn fn q).hgNext = (fn + 1) % 4) ∧
    (u.read = u.write → exec (.nop (.queue fn q) p) s = .next (s.endTurn fn q)) ∧
    (u.read ≠ u.write → u.free ≤ u.owed + u.deferred →
      exec (.nop (.queue fn q) p) s = .next ((s.holdPacket fn q .ringRoom 0x7F p).endTurn fn q)) ∧
    (u.read ≠ u.write → u.owed + u.deferred < u.free →
      (∀ f a, s.ringRead u u.read 16 p.ring = (some f, a) →
        exec (.nop (.queue fn q) p) s = .next ((a.ringFault fn q f.1 false f.2 ⟨.queue fn q, 0, 0, p.irq⟩ ⟨fn, u.ctx⟩).endTurn fn q)) ∧
      ∀ a, s.ringRead u u.read 16 p.ring = (none, a) →
        (lenValid p.len.toNat = false ∨ 2 ^ u.ringLog2 < u.read + p.len.toNat / 4 →
          ∃ t : State, exec (.nop (.queue fn q) p) s = .next (t.endTurn fn q) ∧ ∀ v : Queue, t.queue? fn q = some v → v.halted = true) ∧
        (lenValid p.len.toNat = true → u.read + p.len.toNat / 4 ≤ 2 ^ u.ringLog2 →
          p.len.toNat / 4 ≤ (u.write + 2 ^ u.ringLog2 - u.read) % 2 ^ u.ringLog2 → p.barrier = true →
          u.owed ≠ countIf Job.armed (a.startedJobs (.queue fn q)) →
          exec (.nop (.queue fn q) p) s = .next ((a.holdPacket fn q .barrier 0x7F p).endTurn fn q)))

/-- The checks of a packet, and what holds one. -/
def Obligations.PacketChecks : Prop := packetChecksRules ∧ packetHoldsRules

/-! ## Contexts and queues (R279, R280, R302, R303) -/

/-- CTX_CREATE, CTX_DESTROY, QUEUE_CREATE and QUEUE_DESTROY with parameters that pass their checks, and TEARDOWN_DRAINED and
FLUSH_READ_COMPLETE, complete: the context or the queue stands as its packet asks, the range table area is filled with 0xFF; a
destroyed context goes through its teardown, and a queue goes at once when nothing of it is started. -/
def Obligations.ContextCommands : Prop :=
  (∀ (src : Src) (p : Packet) (pk : Pk) (s b : State),
    (Taken ctxCreateSpec src p pk s b →
      let s1 := offHead src p b
      let k : CtxKey := ⟨pk.fn, pk.f 0 9 0⟩
      let c := newCtx k pk
      s1.ctx? k = none → (c.prot = true → pk.fn = 0) → 1 ≤ c.maxClusters → c.maxClusters ≤ 44 → c.save % 65536 = 0 →
      fnAddrOk (pk.f 0x10 63 0) 65536 = true → fnAddrOk (pk.f 0x18 63 0) 4096 = true → s1.fnAreaOk pk.fn c.rt 131072 = true →
      s1.fnAreaOk pk.fn c.ring 4096 = true → s1.rtFree pk.fn c.rt = true → countIf (fun c => c.key.fn == pk.fn) s1.ctxs < 1024 →
      s1.ctxs.length < 4096 →
      exec (.ctxCreate src p) s =
        .next (answered src pk stOk 0 (({ s1 with ctxs := s1.ctxs ++ [c] } : State).wrRt k c.rt 0 (List.replicate 131072 0xFF)))) ∧
    (Taken ctxDestroySpec src p pk s b → ∀ c, (offHead src p b).named pk (pk.f 0 9 0) 0 true = .ok c → pk.key ≠ some c.key →
      exec (.ctxDestroy src p) s = .next (awaited src ((offHead src p b).beginTeardown c.key pk.origin))) ∧
    (Taken queueCreateSpec src p pk s b →
      let u := newQueue pk.fn pk
      ∀ (c : Ctx) (s2 s3 : State), (offHead src p b).named pk u.ctx 2 false = .ok c → (offHead src p b).queue? pk.fn u.q = none →
      8 ≤ u.ringLog2 → u.ringLog2 ≤ 20 → 6 ≤ u.statusLog2 → u.statusLog2 ≤ 16 →
      (offHead src p b).ringOk c.key u.ringAddr (16 * 2 ^ u.ringLog2) false = (true, s2) →
      s2.ringOk c.key u.statusAddr (32 * 2 ^ u.statusLog2) true = (true, s3) → (s3.queuesOf c.key).length < 16 →
      exec (.queueCreate src p) s = .next (answered src pk stOk 0 { s3 with queues := s3.queues ++ [u] })) ∧
    (Taken queueDestroySpec src p pk s b → ∀ u : Queue,
      let s1 := offHead src p b
      let q := pk.f 0 13 0
      s1.queue? pk.fn q = some u → pk.fromQueue q = false → u.destroying = none → (∀ c, s1.ctx? ⟨pk.fn, u.ctx⟩ = some c → c.st ≠ .destroying) →
      exec (.queueDestroy src p) s = .next (awaited src
        ((((s1.unlist pk.fn q).dropWaitEntries pk.fn q).modQueue pk.fn q fun u =>
          { u with destroying := some pk.origin, write := u.read, held := none, wait := none }).disarmQueue pk.fn q |>.finishQueue pk.fn q)))) ∧
  (∀ (k : CtxKey) (s : State) (c : Ctx) (t : Teardown), s.ctx? k = some c → c.teardown = some t → t.drained = false → s.procUp 0 = true →
    s.ctxQuiet k = true → c.unmaps = [] →
    let s0 := if t.withdrawn then s else s.withdrawCtx k
    (s0.stillShown (fun l => decide (l.key = some k)) (fun b => decide (b.key = k)) = true →
      exec (.teardownDrained k.fn k.id) s = .next s0) ∧
    (s0.stillShown (fun l => decide (l.key = some k)) (fun b => decide (b.key = k)) = false →
    let s1 := runAll (fun (f : Nat × Nat) (s : State) => s.setError k f.1 f.2 none t.origin) t.fences s0
    (s1.pcie.linkUp = false → exec (.teardownDrained k.fn k.id) s = .next (s1.endTeardown k t)) ∧
    (s1.pcie.linkUp = true → ∃ s2, exec (.teardownDrained k.fn k.id) s = .next s2 ∧
      ((∃ f, s1.funs[k.fn]? = some f ∧ s1.issuedBy k.fn < f.tagLimit) → (∀ r ∈ s1.pcie.reqs, r.tag < s1.pcie.nextTag) →
        s2.out.head? = some (.flushRead k.fn s1.pcie.nextTag)) ∧
      s2.pcie.nextTag = s1.pcie.nextTag + 1 ∧ s2.mem = s1.mem))) ∧
  (∀ (k : CtxKey) (s : State) (c : Ctx) (t : Teardown) (r : NpReq), s.ctx? k = some c → c.teardown = some t →
    (s.pcie.reqs.find? fun x => x.tag == r.tag && x.owner.isFlush && x.issued) = some r → r.owner = .teardown k →
    exec (.flushReadComplete r.tag) s = .next ((s.dropReqs fun x => x.tag == r.tag).endTeardown k t)) ∧
  ∀ (k : CtxKey) (t : Teardown) (s : State), s.sluice.deferred = [] → (s.endTeardown k t).ctx? k = none

/-! ## Ranges (R304 to R316) -/

/-- RANGE_MAP, RANGE_UNMAP, RANGE_CHECK, UNMAP_DRAINED and RANGE_WALK complete on what passes their checks. The table stays
sorted and takes all entries; an unmapping leaves every cache, advances every epoch, and replies when its accesses have drained,
after a flush read where a range had target HOST or PEER. -/
def Obligations.RangeCommands : Prop :=
  (∀ (src : Src) (p : Packet) (pk : Pk) (s b : State) (c : Ctx),
    (Taken rangeMapSpec src p pk s b →
      let s1 := offHead src p b
      let es := mapEntries pk
      s1.named pk (pk.f 0 9 0) 0 false = .ok c → es ≠ [] → (∀ i < es.length, badEntry pk i = none) → firstOverlap 0 c.ranges es = none →
      (∀ u ∈ c.unmaps, ∀ r ∈ u.ranges, ∀ e ∈ es, e.meets r = false ∧ r.meets e = false) → (∀ e ∈ es, s1.entryInLevee c e = true) →
      c.ranges.length + es.length ≤ 4096 →
      exec (.rangeMap src p) s = .next (answered src pk stOk 0 (s1.setRanges c (insertRanges es c.ranges)))) ∧
    (Taken rangeUnmapSpec src p pk s b →
      let s1 := offHead src p b
      let n := pk.f 0 24 16
      let starts := (List.range n).map fun i => pk.f (0x10 + 8 * i) 47 0
      let gone := c.ranges.filter fun e => starts.contains e.start
      s1.named pk (pk.f 0 9 0) 0 true = .ok c → 1 ≤ n → n ≤ 510 → firstBadStart c.ranges 0 [] starts = none →
      exec (.rangeUnmap src p) s = .next (awaited src
        (let s2 := (s1.setRanges c (c.ranges.filter fun e => !(starts.contains e.start))).holdRanges c.key gone
         let d := s2.dropRanges c.key gone (s2.walkers.filter fun w => !(s2.epochFull w))
         let flush := gone.any fun e => decide (e.tgt = .host) || decide (e.tgt = .peer)
         let u : Unmap := { origin := pk.origin, ranges := gone, waiting := s2.walkers.filter s2.epochFull, epochs := d.1,
                            needsFlush := flush, drained := false, flushTag := none }
         (d.2.withdrawAll (Layer.names c.key gone) (CamBinding.names c.key gone)).modCtx c.key fun x => { x with unmaps := x.unmaps ++ [u] }))) ∧
    (Taken rangeCheckSpec src p pk s b → ∀ (k : CtxKey) (ps : List Piece) (s2 : State),
      (offHead src p b).named pk (pk.f 0 9 0) 0 true = .ok c → pk.key = some k →
      (offHead src p b).translate .headgate k (pk.f 8 47 0) 32 needW = (.ok ps, s2) → s2.rtUe c = (none, s2) →
      exec (.rangeCheck src p) s = .next (answered src pk stOk (ofLE ((sha256 (s2.rdRt c)).take 4)) (putPieces k.fn ps (sha256 (s2.rdRt c)) s2).2))) ∧
  (∀ (k : CtxKey) (s : State) (c : Ctx) (u : Unmap), s.ctx? k = some c → (c.unmaps.find? fun u => !u.drained) = some u → u.waiting = [] →
    s.drained u.epochs = true →
    s.stillShown (Layer.names k u.ranges) (CamBinding.names k u.ranges) = false → s.procUp 0 = true →
    (u.needsFlush = false ∨ s.pcie.linkUp = false → exec (.unmapDrained k.fn k.id) s =
      .next ((s.modCtx k fun c => { c with unmaps := dropFirst (fun x => decide (x = u)) c.unmaps }).replyHg u.origin stOk 0)) ∧
    (u.needsFlush = true → s.pcie.linkUp = true → ∃ t, exec (.unmapDrained k.fn k.id) s = .next t ∧
      ((∃ f, s.funs[k.fn]? = some f ∧ s.issuedBy k.fn < f.tagLimit) → (∀ r ∈ s.pcie.reqs, r.tag < s.pcie.nextTag) →
        t.out.head? = some (.flushRead k.fn s.pcie.nextTag)) ∧ t.mem = s.mem)) ∧
  (∀ es rs : List RangeEntry, (insertRanges es rs).Perm (es ++ rs) ∧
    (rs.Pairwise (fun a b => a.start ≤ b.start) → (insertRanges es rs).Pairwise (fun a b => a.start ≤ b.start))) ∧
  ∀ (who : Requester) (fn ctx : Nat) (va : BitVec 64) (s : State),
    (2 ^ 48 ≤ va.toNat → exec (.rangeWalk who fn ctx va) s = .next s) ∧
    (∀ (c : Ctx) (e : RangeEntry) (s1 : State), va.toNat < 2 ^ 48 → s.ctx? ⟨fn, ctx⟩ = some c →
      (∀ x ∈ s.rangeCache who, x.key = ⟨fn, ctx⟩ → x.entry.covers va.toNat = false) → s.walk c va.toNat = (.ok e, s1) →
      exec (.rangeWalk who fn ctx va) s =
        .next (s1.setRangeCache who ((⟨⟨fn, ctx⟩, e⟩ :: s1.rangeCache who).take (cacheSize who))))

/-- The lookup of R315: over a device copy that can be read, the twelve dependent reads choose a slot; the lookup finds its
entry, or NO_RANGE when the address lies below its START or beyond its length; a read that meets an uncorrectable error ends in
POISON. Where the words rise from slot to slot, the slot chosen is the last one at or below the address, or slot 0 when none is. -/
def Obligations.RangeWalk : Prop :=
  ∀ (s : State) (c : Ctx) (va : Nat), va < 2 ^ 48 →
    let at_ (i : Nat) := s.slotWord c i
    let i := [2048, 1024, 512, 256, 128, 64, 32, 16, 8, 4, 2, 1].foldl (fun i step => if at_ (i + step) ≤ va then i + step else i) 0
    let e := parseEntry (s.rdFn c.key.fn c.rt (32 * i) 32)
    ((∀ n < 4096, s.fnUe c.key.fn c.rt (32 * n) 32 = none) → (∀ n < 4096, s.fnUe c.key.fn c.rt (32 * n) 8 = none) →
      (at_ i ≤ va → va - e.start < (e.lenM1 + 1) * 65536 → s.walk c va = (.ok e, s)) ∧
      (va < at_ i ∨ (e.lenM1 + 1) * 65536 ≤ va - e.start → s.walk c va = (.error .noRange, s)) ∧
      ((∀ n m, n ≤ m → m < 4096 → at_ n ≤ at_ m) → i < 4096 ∧ (0 < i → at_ i ≤ va) ∧ ∀ j, i < j → j < 4096 → va < at_ j)) ∧
    (∀ (n step : Nat) (t : Target) (w : Nat), walkSteps[n]? = some step →
      let r := (walkSteps.take n).foldl (fun i step => if at_ (i + step) ≤ va then i + step else i) 0 + step
      s.fnUe c.key.fn c.rt (32 * r) 8 = some (t, w) → (∀ m < 4096, m ≠ r → s.fnUe c.key.fn c.rt (32 * m) 8 = none) →
      s.walk c va = (.error .poison, s.ueFound t w)) ∧
    ((∀ n < 4096, s.fnUe c.key.fn c.rt (32 * n) 8 = none) → ∀ t w, s.fnUe c.key.fn c.rt (32 * i) 32 = some (t, w) →
      s.walk c va = (.error .poison, s.ueFound t w))

/-! ## Fences and the ends of jobs (R273, R291, R296 to R300) -/

/-- FENCE_INIT, FENCE_SIGNAL, FENCE_WAIT and CTX_REPLAY complete. init stores the value and clears the error; a signal is
dropped with ST_FENCE_ORDER unless it rises; a wait is answered at once when its value is reached or the fence holds an error,
and else stays at the head of its queue; a FAULTED context runs on once its faults have been taken. -/
def Sys2Proof.fenceCommandsRules : Prop :=
  ∀ (src : Src) (p : Packet) (pk : Pk) (s b : State) (k : CtxKey), pk.key = some k →
    let s1 := offHead src p b
    let va := pk.f 0 47 0
    let v := BitVec.ofNat 64 (pk.f 8 63 0)
    (∀ (tgt t : Target) (pa : Nat) (s2 s3 : State), s1.fenceOk k va needWA = (some tgt, s2) → s2.fenceAt k va needWA = (.ok (t, pa), s3) →
      (Taken (fenceSpec 0x30) src p pk s b →
        exec (.fenceInit src p) s = .next (answered src pk stOk 0 ((s3.wr' t pa (toLE 8 v.toNat ++ toLE 8 0)).fenceWritten t pa))) ∧
      (Taken (fenceSpec 0x31) src p pk s b →
        (s3.fenceValue t pa < v → exec (.fenceSignal src p) s =
          .next (answeredBy src pk 0x62 stOk 0 v ((s3.wr' t pa (toLE 8 v.toNat)).fenceWritten t pa))) ∧
        (v ≤ s3.fenceValue t pa → exec (.fenceSignal src p) s =
          .next (answeredBy src pk 0x62 stFenceOrder ((s3.fenceValue t pa).toNat % 2 ^ 32) v s3)))) ∧
    (Taken (fenceSpec 0x32) src p pk s b → ∀ (tgt : Target) (s2 : State), s1.fenceOk k va needR = (some tgt, s2) → s2.procUp 1 = true →
      (∀ (t : Target) (pa : Nat) (s3 : State), tgt = .dram ∨ tgt = .reservoir → s2.fenceAt k va needR = (.ok (t, pa), s3) →
        (v ≤ s3.fenceValue t pa → exec (.fenceWait src p) s = .next (answeredBy src pk 0x62 stOk 0 (s3.fenceValue t pa) s3).retryDeferred) ∧
        (s3.fenceValue t pa < v → s3.fenceError t pa ≠ 0 → exec (.fenceWait src p) s =
          .next (answeredBy src pk 0x62 stFenceError (s3.fenceError t pa).toNat (s3.fenceValue t pa) s3).retryDeferred)) ∧
      ∀ fn q : Nat, src = .queue fn q →
        let waits (t : State) (remote : Bool) (value : BitVec 64) (err : Word) :=
          ((t.holdPacket fn q .fenceWait 0x32 p).modQueue fn q fun u =>
            { u with wait := some ⟨pk.origin, va, v, remote, none, value, err⟩, read := (b.queue? fn q).elim 0 (·.read) }).endTurn fn q
        (tgt = .host ∨ tgt = .peer → exec (.fenceWait src p) s = .next (waits s2 true 0 0).retryDeferred) ∧
        ∀ (t : Target) (pa : Nat) (s3 : State), tgt = .dram ∨ tgt = .reservoir → s2.fenceAt k va needR = (.ok (t, pa), s3) →
          s3.fenceValue t pa < v → s3.fenceError t pa = 0 →
          exec (.fenceWait src p) s = .next (waits s3 false (s3.fenceValue t pa) 0).retryDeferred) ∧
    (Taken ctxReplaySpec src p pk s b → ∀ c, s1.named pk (pk.f 0 9 0) 0 false = .ok c → c.st = .faulted →
      (∀ e, c.episode = some e → e.waiting = false) →
      exec (.ctxReplay src p) s =
        .next (answered src pk stOk 0 (((s1.endEpisode c.key).modCtx c.key fun c => { c with st := .active }).replayGroups c.key)))

/-- JOB_END completes (R273, R293, R299): a job whose work is over leaves the list; its fence is signalled before its reply,
which says ST_OK, or ST_FENCE_ORDER where the fence stood at the value already; a job that was lost sets its fence's error
first. -/
def Sys2Proof.jobEndsRules : Prop :=
  ∀ (j : Job) (s : State), s.job? j.id = some j → j.outcome ≠ .running → s.jobIdle j.id = true → s.procUp 0 = true → s.fatal = false →
    s.inReset j.key = false →
    exec (.jobEnd j.id) s = .next (s.writeEnd j).retryDeferred ∧
    (j.outcome = .complete →
      (j.fence = 0 → s.endJob j = (s.replyJob j j.island j.endStamp stOk j.okDetail).jobOk j) ∧
      (j.fence ≠ 0 → ∀ (t : Target) (pa : Nat) (s1 : State), s.fenceAt j.key j.fence needWA = (.ok (t, pa), s1) →
        (s1.fenceValue t pa < j.value → s.endJob j =
          (((s1.wr' t pa (toLE 8 j.value.toNat)).fenceWritten t pa).replyJob j j.island j.endStamp stOk j.okDetail).jobOk j) ∧
        (j.value ≤ s1.fenceValue t pa → s.endJob j =
          s1.replyJob j j.island j.endStamp stFenceOrder ((s1.fenceValue t pa).toNat % 2 ^ 32)))) ∧
    (∀ kind, j.outcome = .reset kind → s.endJob j =
      (s.setError j.key j.fence 3 (some j.id) j.origin).replyJob j 0x62 ((s.setError j.key j.fence 3 (some j.id) j.origin).count 0x62) stReset kind) ∧
    (j.outcome = .contextLost → s.endJob j =
      (s.setError j.key j.fence 1 (some j.id) j.origin).replyJob j 0x62 ((s.setError j.key j.fence 1 (some j.id) j.origin).count 0x62)
        stContextLost j.key.id)

/-- The fence packets, CTX_REPLAY, and the ends of jobs. -/
def Obligations.FenceCommands : Prop := fenceCommandsRules ∧ jobEndsRules

/-! ## Job packets and networks (R107, R154 to R160, R281, R318) -/

/-- COPY, PASS_SUBMIT, KERNEL_SUBMIT, NET_RUN, NET_LOAD and NET_UNLOAD complete on what passes their checks: a job is started
and its work is ready; a network is copied into its arena, takes the next handle and its record is written; it goes when no run
uses it. An image whose read faults makes a fault of the context, and the packet replies ST_FAULTED. -/
def Obligations.JobCommands : Prop :=
  ∀ (src : Src) (p : Packet) (pk : Pk) (s b : State) (k : CtxKey), pk.key = some k →
    let s1 := offHead src p b
    (∀ s2 : State, s1.jobFenceOk k pk = (true, s2) →
      (∀ (bs : List Byte) (s3 : State), Taken (jobSpec 0x45) src p pk s b → s2.readNamed pk (pk.f 0x10 47 0) 64 64 = (some bs, s3) →
        copyBad bs (parseCopy bs) = none →
        exec (.copy src p) s = .next (awaited src
          ((s3.startJob pk k (.copy (parseCopy bs) 0 (parseCopy bs).chunks)).2.addReady [⟨s3.nextJob, .copyJob⟩]))) ∧
      (∀ (bs raw : List Byte) (s3 s4 s6 s5 : State), Taken (jobSpec 0x40) src p pk s b → s2.readNamed pk (pk.f 0x10 47 0) 512 256 = (some bs, s3) →
        passOk bs = true →
        let d := parsePass bs
        let recs := (List.range d.drawCount).map fun i => (raw.drop (64 * i)).take 64
        s3.readVa .headgate k d.drawList (64 * d.drawCount) = (.ok raw, s4) → recs.all drawOk = true → vertexSum (recs.map parseDraw) < 2 ^ 32 →
        (d.tileNet = 0 ∨ s4.tileNetOk k d = true) → s4.bufferOk k d = (true, s6) → s6.kernelsBad k (recs.map parseDraw) = (none, s5) →
        d.tooLarge = none →
        exec (.passSubmit src p) s = .next (awaited src ((s5.startJob pk k (.pass (pk.f 0x10 47 0) none)).2.addReady [⟨s5.nextJob, .pass⟩]))) ∧
      (Taken kernelSpec src p pk s b →
        let d := parseKernel ((pk.bytes.drop 0x10).take 64)
        d.vregs ≠ 0 → d.threads ≤ 1024 → d.gridX ≠ 0 → d.gridY ≠ 0 → d.gridZ ≠ 0 → d.tooLarge = false →
        exec (.kernelSubmit src p) s = .next (awaited src ((s2.startJob pk k (.kernel d 0 0 d.workgroups)).2.addReady [⟨s2.nextJob, .kernel⟩]))) ∧
      ∀ (bs : List Byte) (n : Net) (s3 : State), Taken (jobSpec 0x43) src p pk s b → s2.readNamed pk (pk.f 0x10 47 0) 160 32 = (some bs, s3) →
        let r := parseRun bs
        s3.net? k r.handle = some n → runOk bs r n = true → (r.trigger = true → s3.ownsChannel pk.fn r.port r.vc = true) →
        (r.trigger = true → (s3.armedRuns r.port r.vc).length < 16) →
        exec (.netRun src p) s = .next (awaited src (s3.startJob pk k (.net { r with armed := r.trigger })).2.tryRuns)) ∧
    (Taken netUnloadSpec src p pk s b → (s1.net? k (pk.f 0 31 0)).isSome = true → s1.handleUsed k (pk.f 0 31 0) = false →
      exec (.netUnload src p) s =
        .next (answered src pk stOk 0 (s1.modCtx k fun c => { c with nets := c.nets.filter fun n => n.handle != pk.f 0 31 0 }))) ∧
    (∀ (c : Ctx) (ld : List Byte) (s2 s3 : State) (f : FaultKind × Nat), Taken netLoadSpec src p pk s b → s1.ctx? k = some c →
      s1.readNamed pk (pk.f 0 47 0) 64 64 = (some ld, s2) → imgLE ld 0 6 % 4096 = 0 →
      s2.readFor pk k (imgLE ld 0 6) (imgLE ld 8 4) = (.error f, s3) →
      let r := s3.recordFault (s3.readerFault f.1 1 false false 0x62 f.2 none pk.origin k)
      exec (.netLoad src p) s = .next (answered src pk stFaulted r.1 r.2)) ∧
    ∀ (c : Ctx) (ld img : List Byte) (s2 s3 s4 s5 : State), Taken netLoadSpec src p pk s b → s1.ctx? k = some c →
      s1.readNamed pk (pk.f 0 47 0) 64 64 = (some ld, s2) → imgLE ld 0 6 % 4096 = 0 →
      s2.readFor pk k (imgLE ld 0 6) (imgLE ld 8 4) = (.ok img, s3) →
      headerValid img (imgLE ld 8 4) = true → sha256 (img.drop 0x100) = (img.drop 0x40).take 32 →
      firstBadLayer (fld (imgLE img 0x14 4) 23 16) (imgLE img 0x2C 4) 0 0 (imgParts img (imgLE img 0x18 4) 128 (imgLE img 0xC 4)) = none →
      (imgParts img (imgLE img 0x1C 4) 32 (fld (imgLE img 0x14 4) 23 16)).all bindingOk = true →
      let n := parseNet ld img c.nextHandle
      n.tileOk = true → s3.arenaOk k n = (true, s4) → n.need ≤ n.granules → c.nets.length < 64 →
      inTurn (State.loadWrite k) (loadWrites ld img n) s4 = (none, s5) →
      exec (.netLoad src p) s = .next (answered src pk stOk c.nextHandle
        (s5.modCtx k fun c => { c with nets := c.nets ++ [n], nextHandle := c.nextHandle + 1 }))

/-! ## Display and camera packets (R206, R210, R215, R223 to R225) -/

/-- DSP_LAYER_SET, DSP_COMMIT, PROTECT_SET, CAM_CONFIG and CAM_BIND complete: the shadows take their descriptors together; a
commit arms its pipe and is answered when it is applied, and is held at the head of its queue while a table is armed already. -/
def Obligations.LayerAndBindingPackets : Prop :=
  ∀ (src : Src) (p : Packet) (pk : Pk) (s b : State) (k : CtxKey), pk.key = some k →
    let s1 := offHead src p b
    (Taken layerSetSpec src p pk s b → ∀ s2 : State, packetLayers pk ≠ [] →
      checkLayers (pk.f 0 1 0) k (enumFrom 0 (packetLayers pk)) s1 = (none, s2) →
      exec (.dspLayerSet src p) s = .next (answered src pk stOk 0 (s2.modPipe (pk.f 0 1 0) (Pipe.write (.layers (packetLayers pk)))))) ∧
    (Taken dspCommitSpec src p pk s b → ∀ u, s1.pipes[pk.f 0 1 0]? = some u →
      (u.armed = false → exec (.dspCommit src p) s = .next (awaited src (s1.modPipe (pk.f 0 1 0) (Pipe.arm (some pk.origin))))) ∧
      (u.armed = true → ∀ fn q, src = .queue fn q → exec (.dspCommit src p) s = .next ((b.holdPacket fn q .commitArmed 0x51 p).endTurn fn q))) ∧
    (Taken protectSetSpec src p pk s b → ∀ u,
      let d := parseProt (pk.bytes.take 64) pk.origin
      s1.pipes[pk.f 0 1 0]? = some u → s1.procUp 3 = true → d.bad u.applied = none → s1.inProtected d.content d.bytes = true →
      s1.inProtected d.fallback d.bytes = true → u.armed = false →
      exec (.protectSet src p) s = .next (awaited src (s1.modPipe (pk.f 0 1 0) fun u => (u.write (.prot d)).arm (some pk.origin)))) ∧
    ∀ c : Channel, s1.chan? (pk.f 0 2 0) (pk.f 0 11 8) = some c →
      (Taken camConfigSpec src p pk s b →
        let d := parseCam ((pk.bytes.drop 0x10).take 32)
        d.bad = none → c.armed = false → (∀ x, c.shadowBind = some x → d.outH * d.stride ≤ x.bytes) →
        exec (.camConfig src p) s = .next (awaited src (s1.modChan (pk.f 0 2 0) (pk.f 0 11 8) fun c =>
          { c.write (some d, none) with armed := true, waiters := [pk.origin] }))) ∧
      (Taken camBindSpec src p pk s b → ∀ r s2 : State,
        let x := parseBind ((pk.bytes.drop 0x10).take 96) k
        1 ≤ x.count → x.count ≤ 8 → x.bytes % 128 = 0 → 128 ≤ x.bytes → x.record % 512 = 0 → x.fence % 16 = 0 →
        (if x.record = 0 then (true, s1) else s1.bindSpan k x.record 512 false) = (true, r) →
        bindBuffers x (enumFrom 0 (x.bufs.take x.count)) r = (none, s2) →
        exec (.camBind src p) s = .next (answered src pk stOk 0 (s2.modChan (pk.f 0 2 0) (pk.f 0 11 8) (Channel.write (none, some x)))))

/-! ## Management packets (R246 to R249, R336, R342, R343, R378, R385 to R391) -/

/-- LEVEE_SET completes with what R249 says: the added granules are zero with valid check bits, the windows and the protected
mask stand, and a function whose windows changed is told; the reply is that of Levee and counts the granules. -/
def Obligations.LeveeSetApplies : Prop :=
  ∀ (src : Src) (p : Packet) (pk : Pk) (s b : State),
    let s1 := offHead src p b
    let a := s1.leveeAsk pk
    Taken leveeSetSpec src p pk s b → s1.leveeRefusal a pk = none →
    let done := answeredBy src pk 0x65 stOk ((s1.leveeAdds a).1.length + (s1.leveeAdds a).2.length * 65536) 0 (s1.leveeApply a)
    exec (.leveeSet src p) s = .next (if s1.leveeChanges a then done.leveeTell a.tenant else done) ∧
    (∀ (t : State) (f : Fun), t.funs[a.tenant]? = some f → ∃ g, (t.leveeTell a.tenant).funs[a.tenant]? = some g ∧ g.leveeChanged = true) ∧
    (∀ f, s1.funs[a.tenant]? = some f → ∃ g, (s1.leveeApply a).funs[a.tenant]? = some g ∧ g.dramWin = a.wins ∧ g.rsvMask = a.rsv ∧
      (s1.leveeChanges a = true ↔ (a.wins ≠ f.dramWin ∨ a.rsv ≠ f.rsvMask ∨ a.prot ≠ s1.levee.protMask))) ∧
    (s1.leveeApply a).levee.protMask = a.prot ∧
    (∀ g ∈ (s1.leveeAdds a).2, ∀ i < granuleBytes, (s1.leveeApply a).mem.read .reservoir (g * granuleBytes + i) 1 = [0]) ∧
    (∀ g ∈ (s1.leveeAdds a).1, ∀ i < 67108864, (s1.leveeApply a).mem.read .dram (g * 67108864 + i) 1 = [0]) ∧
    ∀ x, (∀ g ∈ (s1.leveeAdds a).2, x < g * granuleBytes ∨ (g + 1) * granuleBytes ≤ x) →
      (s1.leveeApply a).mem.read .reservoir x 1 = s1.mem.read .reservoir x 1

/-- SLUICE_LOAD, MARGIN_REPLAN, POWER_VOTE, POWER_STATE and RESET_DOMAIN complete: the table is armed, the replan waits its
turn, the vote stands, the device begins to enter its sleep state and the reset is taken. -/
def Sys2Proof.managementPacketsRules : Prop :=
  ∀ (src : Src) (p : Packet) (pk : Pk) (s b : State),
    let s1 := offHead src p b
    (Taken sluiceLoadSpec src p pk s b → ∀ (hd bs : List Byte) (s2 s3 : State), s1.sluice.armed = none → s1.procUp 1 = true →
      s1.readNamed pk (pk.f 0 47 0) 64 64 = (some hd, s2) →
      let n := ofLE (hd.take 2) % 1024
      let raw := (List.range n).map fun i => (bs.drop (64 + 32 * i)).take 32
      s2.readNamed pk (pk.f 0 47 0) (64 + 32 * n) 64 = (some bs, s3) → s3.tableBad hd raw (parseTable hd raw) = none →
      exec (.sluiceLoad src p) s = .next (awaited src (s3.modSluice fun l =>
        { l with shadow := parseTable hd raw, armed := some pk.origin, owners := (parseTable hd raw).slots.map s3.slotOwned }))) ∧
    (Taken marginReplanSpec src p pk s b → s1.procUp 2 = true → pk.f 0 7 0 = 0xFF ∨ s1.islandUsable (pk.f 0 7 0) = true → s1.emergency = false →
      exec (.marginReplan src p) s =
        .next (awaited src (s1.modWeir fun w => { w with replans := w.replans ++ [⟨pk.f 0 7 0, some pk.origin⟩] }))) ∧
    (Taken powerVoteSpec src p pk s b →
      (pk.f 0 1 0 ≠ 3 → exec (.powerVote src p) s = .next (answered src pk stOk 0 (s1.modFun pk.fn fun f => { f with vote := pk.f 0 1 0 }))) ∧
      (pk.f 0 1 0 = 3 → exec (.powerVote src p) s = .next (answered src pk stBadParam 0 s1))) ∧
    (Taken powerStateSpec src p pk s b → s1.procUp 2 = true →
      let target := pk.f 0 1 0
      let retain := pk.f 0 15 8
      sleepParamsOk target retain (pk.f 0 16 16 == 1) (pk.f 0 17 17 == 1) = true → s1.emergency = false →
      (s1.sleepBits target = 0 → s1.aon.wakePending = none → exec (.powerState src p) s =
        .next (answeredBy src pk 0x64 stOk 0 0 (s1.modAon fun a =>
          { a with mode := if target = 1 then .enteringS1 else .enteringS3
                   retain := retainMask retain (pk.f 0 17 17 == 1)
                   dramKeep := pk.f 0 16 16 == 1 }))) ∧
      (s1.sleepBits target ≠ 0 → exec (.powerState src p) s = .next (answered src pk stNotPermitted (s1.sleepBits target) s1))) ∧
    (Taken resetDomainSpec src p pk s b →
      let kind := pk.f 0 3 0
      let unit := pk.f 0 15 8
      1 ≤ kind → kind ≤ 8 → s1.unitExists kind unit = true →
      exec (.resetDomain src p) s = .next (awaited src (s1.takeReset (s1.named' kind unit (some pk.origin) false))))

/-- PROGRESS_READ, DUMP_COLLECT, TELEMETRY_READ, CLOCK_CORRELATE and ATTEST complete: their bytes are written at the address
given, and the reply's detail says how many (of CLOCK_CORRELATE the spread: 50 ns while every clock is nominal). The periodic
telemetry page is written where its address lies in the function's windows. -/
def Sys2Proof.reportPacketsRules : Prop :=
  (∀ (src : Src) (p : Packet) (pk : Pk) (s b : State) (k : CtxKey), pk.key = some k →
    let s1 := offHead src p b
    let va := pk.f 0 47 0
    (Taken (destSpec 0x72 true) src p pk s b → ∀ (ps : List Piece) (s2 : State), va % 16 = 0 → s1.translate .headgate k va 2896 needW = (.ok ps, s2) →
      exec (.progressRead src p) s = .next (answered src pk stOk 2896 (putPieces k.fn ps (s2.progressBytes pk.fn) s2).2)) ∧
    (Taken dumpSpec src p pk s b → ∀ (f : Fun) (s2 : State), s1.funs[pk.fn]? = some f → 64 ≤ pk.f 8 31 0 → va % 16 = 0 →
      s1.spanOk .headgate k va (pk.f 8 31 0) needW = (true, s2) →
      exec (.dumpCollect src p) s = .next (answered src pk stOk (s2.dumpBytes pk.fn (pk.f 8 31 0) f).length
        (s2.putVa .headgate k va (s2.dumpBytes pk.fn (pk.f 8 31 0) f)).2) ∧
      (s2.dumpBytes pk.fn (pk.f 8 31 0) f).length ≤ pk.f 8 31 0) ∧
    (Taken telemetrySpec src p pk s b → ∀ (f : Fun) (s2 : State), s1.funs[pk.fn]? = some f → s1.spanOk .headgate k va 4096 needW = (true, s2) →
      (pk.f 8 31 0 = 0 → f.sample ≠ [] → exec (.telemetryRead src p) s =
        .next (answered src pk stOk f.sample.length (s2.putVa .headgate k va f.sample).2)) ∧
      (pk.f 8 31 0 = 1 → pk.fn ≠ 0 → exec (.telemetryRead src p) s = .next (answered src pk stNotPermitted 0 s2)) ∧
      (pk.f 8 31 0 = 1 → pk.fn = 0 → s2.weir.sample ≠ [] → exec (.telemetryRead src p) s =
        .next (answered src pk stOk s2.weir.sample.length (s2.putVa .headgate k va s2.weir.sample).2))) ∧
    (Taken (destSpec 0x62 false) src p pk s b → ∀ (ps : List Piece) (s2 : State),
      s1.translate .headgate k va (16 + 16 * s1.islandsOn.length) needW = (.ok ps, s2) → s2.clocksNominal = true →
      exec (.clockCorrelate src p) s = .next (answered src pk stOk 50
        (putPieces k.fn ps (toLE 4 s1.islandsOn.length ++ toLE 4 50 ++ toLE 8 0 ++ s1.islandsOn.flatMap islandRecord) s2).2)) ∧
    (Taken attestSpec src p pk s b → ∀ (ps : List Piece) (s2 : State), s1.procUp 3 = true → 832 ≤ pk.f 8 31 0 →
      s1.translate .headgate k va 832 needW = (.ok ps, s2) →
      let r := s2.reportBody pk.fn ((pk.bytes.drop 16).take 32)
      exec (.attest src p) s = .next (answeredBy src pk 0x65 stOk 832 0 (putPieces k.fn ps (r ++ signature r) s2).2))) ∧
  ∀ (fn : Nat) (s : State) (f : Fun), s.funs[fn]? = some f → s.procUp 2 = true → s.aon.mode = .a → f.st = .ready →
    let addr : BitVec 64 := f.telemHi ++ (f.telemLo &&& 0xFFFFF000)
    let ok := fnAddrOk addr.toNat 4096 && s.fnAreaOk fn addr 4096
    ∃ u g, u.funs[fn]? = some g ∧ u.queues = s.queues ∧ g.telemSeq = f.telemSeq + 2 ∧ g.sample = s.tenantSample fn f (f.telemSeq + 2) ∧
      (addr = 0 → exec (.telemetryPageWrite fn) s = .next u ∧ u.mem = s.mem ∧ g.telemBad = false) ∧
      (addr ≠ 0 → ok = true → g.telemBad = false ∧ ∀ (tgt : Target) (a : Nat), s.fnAddr fn addr 0 = some (tgt, a) →
        exec (.telemetryPageWrite fn) s = .next (u.spanWritten tgt a g.sample.length) ∧ u.mem = (s.wrFn fn addr 0 g.sample).mem) ∧
      (addr ≠ 0 → ok = false → exec (.telemetryPageWrite fn) s = .next u ∧ u.mem = s.mem ∧ g.telemBad = true)

/-- The packets that manage the device, and those that report on it. -/
def Obligations.ManagementPackets : Prop := managementPacketsRules ∧ reportPacketsRules

/-! ## Firmware and resets (R359 to R373, R377 to R384) -/

/-- FW_STAGE, FW_STAGE_WRITTEN, FW_ACTIVATE with and without CANCEL, HANDOVER_POINT and HANDOVER_DONE complete. Four images that
pass are programmed into the slot that is not ACTIVE; an activation hands over from Weir to Levee, waits for the end of an
emergency, and may be cancelled before it goes on; the last handover makes the staged slot ACTIVE. -/
def Sys2Proof.firmwareUpdateRules : Prop :=
  (∀ (src : Src) (p : Packet) (pk : Pk) (s b : State),
    let s1 := offHead src p b
    (Taken fwStageSpec src p pk s b → ∀ (k : CtxKey) (bs : List Byte) (s2 : State), pk.key = some k → s1.procUp 3 = true → pk.f 8 31 0 = 0x200000 →
      s1.stageBytes k (pk.f 0 47 0) = (some bs, s2) → s2.levee.staging = none → s2.levee.still = true →
      (s2.firstFail (parseBundle bs) [0, 1, 2, 3] = none → oneSvn (parseBundle bs) = true → s2.handoverFail (parseBundle bs) = none →
        exec (.fwStage src p) s = .next (awaited src (s2.modLevee fun v =>
          { v with staged := false, staging := some (pk.origin, parseBundle bs), recordSeq := v.recordSeq + 1 }))) ∧
      ∀ i r, s2.firstFail (parseBundle bs) [0, 1, 2, 3] = some (i, r) →
        exec (.fwStage src p) s = .next (answered src pk stVerifyFail (r + i * 256)
          (s2.modLevee fun v => { v with bootFail := failCode r i !v.activeSlot }))) ∧
    (Taken fwActivateSpec src p pk s b → s1.procUp 3 = true →
      (pk.f 0 0 0 = 0 → s1.levee.staged = true → s1.levee.still = true → s1.emergency = false →
        exec (.fwActivate src p) s = .next (awaited src (s1.beginActivation pk.origin .running))) ∧
      (pk.f 0 0 0 = 0 → s1.levee.staged = true → s1.levee.still = true → s1.emergency = true → ∀ fn q, src = .queue fn q →
        exec (.fwActivate src p) s = .next ((((s1.beginActivation pk.origin .deferred).modQueue fn q fun u => { u with deferred := u.deferred + 1 }).replyBy
          pk.origin 0x62 stDeferred s1.emergencyDetail).afterTake fn q)) ∧
      (pk.f 0 0 0 = 0 → s1.levee.staged = false → exec (.fwActivate src p) s = .next (answered src pk stNotPermitted 1 s1)) ∧
      (pk.f 0 0 0 ≠ 0 → s1.levee.activation = .deferred → exec (.fwActivateCancel src p) s =
        .next (answered src pk stOk 0 ((s1.activationOutcome stNotPermitted 4).modLevee Levee.rest))) ∧
      (pk.f 0 0 0 ≠ 0 → s1.levee.activation = .none → exec (.fwActivateCancel src p) s = .next (answered src pk stNotPermitted 3 s1)) ∧
      (pk.f 0 0 0 ≠ 0 → s1.levee.activation = .paused → exec (.fwActivateCancel src p) s =
        .next (awaited src (s1.modLevee fun v => { v with backOrigin := some pk.origin }).handBack)))) ∧
  ∀ s : State,
    (∀ o imgs, s.levee.staging = some (o, imgs) → s.procUp 3 = true →
      exec (.fwStageWritten true) s = .next (((s.modLevee fun v =>
        { v.setSlot (!v.activeSlot) imgs with staged := true, staging := none, recordSeq := v.recordSeq + 1 }).replyBy o 0x65 stOk 0).logDrain) ∧
      exec (.fwStageWritten false) s = .next ((s.spoilSlot.replyBy o 0x65 stNoResource 0x10).logDrain) ∧ s.spoilSlot.levee.staging = none ∧
      s.spoilSlot.levee.slot s.levee.activeSlot = s.levee.slot s.levee.activeSlot) ∧
    (∀ (n : Nat) (r : Proc), s.levee.activation = .running ∨ s.levee.activation = .handingBack → s.levee.nextProc = n → s.procs[n]? = some r →
      (s.procUp n = true → (n = 1 → s.noSwitch = true) → ∀ img, s.handoverImage n = some img →
        exec .handoverPoint s = .next (s.modProc n fun r => { r with paused := true, downSince := s.now, iramDigest := img.iramDigest })) ∧
      (r.paused = true → s.levee.activation = .running →
        exec (.handoverDone n .ok) s = .next ((s.takeOver n (s.handoverImage n) true).nextHandover n) ∧
        exec (.handoverDone n .digest) s = .next ((s.takeOver n (s.levee.slot s.levee.activeSlot)[n]? false).failActivation n 5) ∧
        exec (.handoverDone n .importFail) s = .next ((s.takeOver n (s.levee.slot s.levee.activeSlot)[n]? false).failActivation n 8)) ∧
      (r.paused = true → s.levee.activation = .handingBack → exec (.handoverDone n .digest) s = .next s.allFatal)) ∧
    (∀ n m, (n, m) ∈ [(2, 1), (1, 0), (0, 3)] → s.emergency = false → (s.nextHandover n).levee.nextProc = m ∧
      (s.nextHandover n).levee.activation = s.levee.activation) ∧
    (s.nextHandover 3 = s.endActivation) ∧ (∀ r ∈ s.endActivation.procs, r.newImage = false) ∧
    s.endActivation.levee.activeSlot = !s.levee.activeSlot ∧ s.endActivation.levee.staged = false ∧ s.endActivation.levee.activation = .none

/-- A crash (R62, R371, R373): the processor is down, its caches are invalid, and it is counted; its replies and its work wait;
the fourth crash within 10 s makes every function FATAL. After the restart what waited goes on. -/
def Sys2Proof.processorCrashesRules : Prop :=
  ∀ (n : Nat) (s : State) (r : Proc), s.procs[n]? = some r → s.fatal = false →
    (s.procUp n = true → s.aon.mode ≠ .s1 →
      let down := s.modProc n fun r =>
        { r with up := false, cached := false, restarts := satInc r.restarts, downSince := s.now,
                 times := (s.now :: r.times).filter fun t => decide (s.now < t + 10000000) }
      ((r.times.filter fun t => decide (s.now < t + 10000000)).length < 3 → s.levee.activation = .none →
        exec (.watchdogExpiry n true) s = .next down ∧ exec (.processorException n true) s = .next down) ∧
      (3 ≤ (r.times.filter fun t => decide (s.now < t + 10000000)).length →
        exec (.watchdogExpiry n true) s = .next down.allFatal ∧ exec (.processorException n false) s = .next down.allFatal) ∧
      down.procUp n = false) ∧
    (r.up = false → r.image ≠ none → (∀ x ∈ s.resets, x.kind ≠ 8) →
      exec (.processorRestartDone n) s = .next ((s.modProc n fun r => { r with up := true, cached := true }).procReturns n)) ∧
    (∀ e : Entry, s.procUp 0 = false → s.reply e = { s with backlog := s.backlog ++ [e] })

/-- Staging, activation and handover of firmware, and the crashes of its processors. -/
def Obligations.FirmwareCommands : Prop := firmwareUpdateRules ∧ processorCrashesRules

/-- The reset domains (R377 to R383): a reset that begins puts the islands of its domain in reset and loses its contexts; it
completes when its domain is quiet; one that overruns 2 ms widens, and out of DEVICE every function is FATAL. A Hot Reset resets
the device and takes the link down. -/
def Obligations.ResetDomains : Prop :=
  (∀ (i : Nat) (s : State) (r : Reset), s.resets[i]? = some r → s.fatal = false → s.resetHeld r = false →
    (r.kind < 7 → s.domainQuiet (s.engines.filter fun e => r.islands.contains (engineIsland e)) = true) →
    exec (.resetComplete i) s = .next (({ s with resets := s.resets.eraseIdx i } : State).completeReset r)) ∧
  (∀ (i : Nat) (s : State) (r : Reset), s.resets[i]? = some r → s.fatal = false → s.resetHeld r = false → r.startedAt + 2000 ≤ s.now →
    (r.kind ≠ 8 → exec (.resetLimitExpiry i) s = .next (({ s with resets := s.resets.eraseIdx i } : State).takeReset r.wider)) ∧
    (r.kind = 8 → ∃ t, exec (.resetLimitExpiry i) s = .next t ∧ ∀ f ∈ t.funs, f.st = .fatal)) ∧
  (∀ r : Reset, (r.kind ∈ [1, 2, 4] → r.wider.kind = 5) ∧ (r.kind = 3 → r.wider.kind = 6) ∧ (r.kind = 7 → r.wider.kind = 8) ∧
    (r.kind ∈ [5, 6] → r.tenants ≠ [] → r.wider.kind = 7 ∧ r.wider.units = r.tenants)) ∧
  (∀ (kind unit : Nat) (s : State), 1 ≤ kind → kind ≤ 6 → s.resets = [] →
    let t := s.takeReset (s.named' kind unit none false)
    (∀ i ∈ t.islands, i.id ∈ s.domainIslands kind [unit] → i.inReset = true) ∧
    (∀ k c c', s.ctx? k = some c → t.ctx? k = some c' →
      (k ∈ s.ctxsIn kind [unit] → c.st = .active ∨ c.st = .faulted → c'.st = .lost) ∧ (k ∉ s.ctxsIn kind [unit] → c'.st = c.st)) ∧ t.mem = s.mem) ∧
  ∀ s : State, s.fatal = false → s.aon.mode = .a ∨ s.aon.mode = .s1 →
    ∃ t, exec .hotReset s = .next t ∧ t.pcie.linkUp = false ∧ t.aon.mode = .a ∧ t.mem.dram = s.mem.dram ∧
      (s.resets = [] → ∀ i ∈ t.islands, s.islandUsable i.id = true → i.id ≠ 0x7F → i.inReset = true)

/-! ## Power, temperature and clocks (R322 to R341) -/

/-- The power cap (R333): a window of 1 ms above the limit lowers it by one point, the fourth below 90 % of the limit raises it,
and the third in a row above 110 % of the limit at cap 0 begins a power emergency. The limit is WEIR_PWR_LIMIT in steps of 0.25
W, held between 25 W and 60 W. -/
def Obligations.PowerCapLoop : Prop :=
  ∀ (s : State) (mw : Nat), s.aon.mode = .a → s.procUp 2 = true → s.weir.alertLow = false → s.emergency = false →
    let lim := s.weir.limitMw
    lim = max 25000 (min 60000 (250 * (s.weir.pwrLimit.toNat % 512))) ∧
    ∃ t, exec (.powerWindow mw) s = .next t ∧ t.weir.lastMw = mw ∧ t.weir.window = (mw :: s.weir.window).take 1000 ∧
      (lim < mw → t.weir.cap = s.weir.cap - 1 ∧ t.weir.below = 0) ∧
      (mw ≤ lim → lim * 9 < mw * 10 → t.weir.cap = s.weir.cap ∧ t.weir.below = 0) ∧
      (mw * 10 ≤ lim * 9 → 3 ≤ s.weir.below → s.weir.cap < 7 → t.weir.cap = s.weir.cap + 1 ∧ t.weir.below = 0) ∧
      (mw * 10 ≤ lim * 9 → s.weir.below < 3 ∨ 7 ≤ s.weir.cap → t.weir.cap = s.weir.cap ∧ t.weir.below = s.weir.below + 1) ∧
      (t.weir.powerEmerg = true ↔ s.weir.cap = 0 ∧ lim * 11 < mw * 10 ∧ 2 ≤ s.weir.over110)

/-- The power emergency and Weir's absence complete (R334, R335, R373), with what a move to a point does. -/
def Sys2Proof.powerEmergenciesRules : Prop :=
  ∀ s : State,
    (s.aon.mode = .a → s.weir.powerEmerg = false → ∃ t, exec .pwrAlert s = .next t ∧ t.weir.alertLow = true ∧ t.weir.powerEmerg = true ∧
      t.weir.powerEvents = satInc s.weir.powerEvents ∧
      ∀ (n : Nat) (i : Island), s.islands[n]? = some i → onComputeDie i.id = true → i.a2 = false → i.off = false → i.inReset = false →
        t.islands[n]? = some (i.moveTo 0)) ∧
    (s.weir.alertLow = true → exec .pwrAlertRelease s = .next (s.modWeir fun w => { w with alertLow := false, alertHighAt := s.now })) ∧
    (s.weir.powerEmerg = true → s.weir.alertLow = false → s.weir.alertHighAt + 10000 ≤ s.now → 10 ≤ s.weir.okWindows → s.procUp 2 = true →
      ∃ t, exec .powerEmergencyEnd s = .next t ∧ t.weir.powerEmerg = false ∧ t.weir.thermEmerg = s.weir.thermEmerg ∧
        (s.weir.thermEmerg = false → t.weir.cap = s.weir.capAtStart) ∧ (s.weir.thermEmerg = true → t.weir.cap = s.weir.cap)) ∧
    (∀ r, s.procs[2]? = some r → s.procUp 2 = false → r.downSince + 10000 ≤ s.now → s.aon.mode = .a →
      ∃ t, exec .weirDownClamp s = .next t ∧ t.weir.clamped = true ∧
        ∀ (n : Nat) (i : Island), s.islands[n]? = some i → regulated i.id = true ∨ isCopyIsland i.id = true → i.a2 = false → i.off = false → i.inReset = false →
          t.islands[n]? = some (i.moveTo 0)) ∧
    ∀ (i : Island) (k : Nat) (p : PlanPoint), i.plan[k]? = some p → (i.moveTo k).point = k ∧ (i.moveTo k).id = i.id ∧
      (regulated i.id = true → (i.moveTo k).freqKHz = p.freqKHz ∧ (k ≠ i.point → (i.moveTo k).mv = min p.vMax 850))

/-- The sensors complete (R327, R329, R335): a sample at or above TRIP_C begins a trip and a thermal emergency, one at or above
EMERG_C an emergency; a trip ends 10 degrees below. The thermal caps move one point at a time, and rise to at most 3 in an
emergency. -/
def Sys2Proof.thermalLoopRules : Prop :=
  ∀ s : State,
    (∀ temps : List Int, s.aon.mode = .a → temps.length = 64 →
      ∃ t, exec (.sensorSample temps) s = .next t ∧ t.weir.temps = temps ∧
        ((∃ x ∈ temps, s.weir.tripC ≤ x) → t.weir.trip = true ∧ t.weir.thermEmerg = true ∧
          (s.weir.trip = false → t.aon.thermN = false ∧ t.weir.trips = satInc s.weir.trips)) ∧
        ((∀ x ∈ temps, x < s.weir.tripC) → (∃ x ∈ temps, s.weir.tripC < x + 10) → t.weir.trip = s.weir.trip) ∧
        (s.weir.trip = true → (∀ x ∈ temps, x + 10 ≤ s.weir.tripC) → t.weir.trip = false ∧ t.aon.thermN = true) ∧
        ((∃ x ∈ temps, s.weir.emergC ≤ x) → t.weir.thermEmerg = true) ∧
        ((∀ x ∈ temps, x < s.weir.emergC) → (∀ x ∈ temps, x < s.weir.tripC) → t.weir.thermEmerg = s.weir.thermEmerg) ∧
        (t.weir.thermEmerg = true → s.weir.thermEmerg = false → ∀ i ∈ t.islands, i.thermCap ≤ 3)) ∧
    (s.procUp 2 = true → s.aon.mode = .a →
      (∃ t, exec .thermalCapLower s = .next t ∧ ∀ (n : Nat) (i : Island), s.islands[n]? = some i → t.islands[n]? = some
        (if (s.sensorsOf i.id).any fun x => decide (s.weir.throttleC ≤ x) then { i with thermCap := i.thermCap - 1 } else i)) ∧
      (∃ t, exec .thermalCapRise s = .next t ∧ ∀ (n : Nat) (i : Island), s.islands[n]? = some i → ∃ j, t.islands[n]? = some j ∧
        (s.sensorsOf i.id ≠ [] → (∀ x ∈ s.sensorsOf i.id, x + 5 ≤ s.weir.throttleC) → i.thermCap < (if s.weir.thermEmerg then 3 else 7) →
          j = { i with thermCap := i.thermCap + 1 }) ∧
        ((∃ x ∈ s.sensorsOf i.id, s.weir.throttleC < x + 5) → j = i))) ∧
    (∀ since, s.weir.thermEmerg = true → s.weir.trip = false → s.weir.coolSince = some since → since + 100000 ≤ s.now → s.procUp 2 = true →
      ∃ t, exec .thermalEmergencyEnd s = .next t ∧ t.weir.thermEmerg = false ∧ t.weir.powerEmerg = s.weir.powerEmerg ∧
        (s.weir.powerEmerg = false → t.weir.cap = s.weir.capAtStart))

/-- Power emergencies, sensors, trips and thermal caps. -/
def Obligations.EmergenciesAndTemperature : Prop := powerEmergenciesRules ∧ thermalLoopRules

/-- Droops, trims, points, A2, hours and replans complete (R323 to R325, R331, R332, R337 to R340). -/
def Obligations.ClocksAndAgeing : Prop :=
  ∀ s : State,
    (∀ id, exec (.droopStretch id) s = .next s) ∧
    (∀ id i, s.island? id = some i → regulated id = true → s.islandUp id = true →
      (∃ t j, exec (.severeDroop id) s = .next t ∧ t.weir.droops = satInc s.weir.droops ∧ t.island? id = some j ∧ j.drooped = true ∧
        (∀ p, i.plan[0]? = some p → i.off = false → i.inReset = false → j.point = 0 ∧ j.freqKHz = p.freqKHz)) ∧
      (∀ (slack : Int) (p : PlanPoint), i.plan[i.point]? = some p → p.vMin ≤ min p.vMax 850 →
        ∃ t, exec (.voltageTrim id slack) s = .next t ∧ t.island? id =
          some { i with mv := max p.vMin (min (min p.vMax 850) (if p.slack < slack then i.mv - 5 else if slack < p.slack then i.mv + 5 else i.mv)) })) ∧
    (∀ id, ∃ t, exec (.severeDroopEnd id) s = .next t ∧ ∀ i, s.island? id = some i → t.island? id = some { i with drooped := false }) ∧
    (∀ id, ∃ t, exec (.pointChange id) s = .next t ∧ ∀ (n : Nat) (i : Island), s.islands[n]? = some i → t.islands[n]? = some
      (if i.id = id ∧ i.a2 = false ∧ i.off = false ∧ i.inReset = false then i.moveTo (s.pointOf i) else i)) ∧
    (∀ i : Island, i.drooped = false → s.weir.clamped = false →
      (onComputeDie i.id = true → s.emergency = true → s.pointOf i = 0) ∧
      (onComputeDie i.id = true → s.emergency = false → s.pointOf i = min i.thermCap (min 7 s.weir.cap))) ∧
    (∀ e, s.weir.cfg.getLsbD 18 = true → s.enabled e = true → s.islandUp (engineIsland e) = true → s.unitBare e = true →
      exec (.a2Entry e) s = .next ((s.forget e).modIsland (engineIsland e) fun i => { i with a2 := true })) ∧
    (∀ e i, s.island? (engineIsland e) = some i → i.a2 = true → i.off = false → i.inReset = false → s.weir.scIdle = false →
      exec (.a2Wake e) s = .next ((s.modIsland (engineIsland e) fun i => { i with a2 := false }).settle' fun i => i.id == engineIsland e)) ∧
    (s.aon.mode = .a → ∃ t, exec .activeHour s = .next t ∧ t.weir.hours = s.weir.hours + 1 ∧ t.weir.sinceReplan = s.weir.sinceReplan + 1 ∧
      (s.weir.sinceReplan < 499 → s.weir.retryReplan = false → t.weir.replans = s.weir.replans) ∧
      (499 ≤ s.weir.sinceReplan → (∀ r ∈ s.weir.replans, r.origin ≠ none) → t.weir.replans = s.weir.replans ++ [⟨0xFF, none⟩])) ∧
    (∀ (r : Replan) (rest : List Replan) (fmax : List Nat), s.weir.replans = r :: rest → s.levee.staging = none → s.procUp 2 = true → s.aon.mode = .a →
      (∀ o, r.origin = some o → exec (.replanDone fmax false) s =
        .next (({ s.modWeir fun w => { w with replans := rest } with fv := s.fv + 1 } : State).replyBy o 0x64 stNoResource 0x10)) ∧
      (r.origin = none → ∃ t, exec (.replanDone fmax false) s = .next t ∧ t.weir.replans = rest ∧ t.weir.retryReplan = true ∧
        t.weir.planVersion = s.weir.planVersion) ∧
      let isl := s.replanned s.fv r.island fmax
      ∀ l1 l2 : List LogSector, r.origin = none → appendLog 0x02 (planPayload isl (s.weir.planVersion + 1)) true s.log = some l1 →
        appendLog 0x03 (agePayload isl) true l1 = some l2 →
        ∃ t, exec (.replanDone fmax true) s = .next t ∧ t.weir.replans = rest ∧ t.weir.planVersion = s.weir.planVersion + 1 ∧
          t.weir.sinceReplan = 0 ∧ t.log = l2) ∧
    ∀ (type : BitVec 8) (payload : List Byte) (ok : Bool) (l : List LogSector), s.levee.staging = none → s.procUp 2 = true →
      appendLog type payload ok s.log = some l → exec (.flashLogAppend type payload ok) s = .next { s with log := l }

/-! ## Sleep, wake and boot (R342 to R355, R364, R399 to R407) -/

/-- S1 (R344 to R347): the islands but those that stay power off, the working state of the compute die goes and contexts and
memory stay; the exit puts the device in A with the source recorded, and keeps of the Reservoir exactly the segments of the
mask. The pin and the bus wake it. -/
def Sys2Proof.sleepS1Rules : Prop :=
  ∀ s : State,
    (s.aon.mode = .enteringS1 → s.resets = [] → ∃ t, exec .s1PowerDown s = .next t ∧ t.aon.mode = .s1 ∧ t.ctxs = s.ctxs ∧ t.mem = s.mem ∧
      t.rsv.retained = s.aon.retain ∧ t.rsv.active = false ∧
      (∀ (n : Nat) (i : Island), s.islands[n]? = some i → ∃ j, t.islands[n]? = some j ∧ j.id = i.id ∧ j.off = if staysInS1 i.id then i.off else true) ∧
      (∀ c ∈ t.clusters, c.groups = [] ∧ c.tileMem = [] ∧ c.core.cache = []) ∧ ∀ x ∈ t.sc.slices, x = resetSlice) ∧
    (∀ src, s.aon.mode = .s1 → s.aon.wakePending = some src → s.pcie.held = [] → ∃ t, exec .s1Exit s = .next t ∧ t.aon.mode = .a ∧
      t.aon.wakeSrc = src ∧ t.aon.wakePending = none ∧ t.rsv.active = true ∧ t.mem.dram = s.mem.dram ∧ t.ctxs = s.ctxs ∧
      ∀ k < 8, ∀ x, (s.segment k).1 ≤ x → x < (s.segment k).1 + (s.segment k).2 →
        t.mem.read .reservoir x 1 = if s.aon.retain.getLsbD k then s.mem.read .reservoir x 1 else [0]) ∧
    (s.aon.i3cCfg.getLsbD 9 = true →
      (s.aon.mode = .s1 → s.aon.wakePending = none → exec .wakePin s = .next (s.modAon fun a => { a with wakePending := some 3 })) ∧
      (s.aon.mode = .s3 → exec .wakePin s = .next (s.modAon fun a =>
        { a with mode := .wakingS3, wakeSrc := 3, wakePending := none, ldoLp := false, corePwrReq := true, memPwrEn := true, railSince := s.now })) ∧
      (s.aon.mode = .a → exec .wakePin s = .next s)) ∧
    (s.aon.mode = .s1 → s.aon.i3cCfg.getLsbD 8 = true → s.aon.wakePending = none → ∃ t, exec .wake s = .next t ∧
      t.aon.wakePending = some (if s.aon.i2c then 2 else 1) ∧ t.aon.i3cAck = true ∧ t.aon.mode = .s1)

/-- S3 (R348 to R351): the save area is written, every context ceases, the Reservoir is empty and DRAM stays where it is kept;
the wake restores the save area and puts the device in A with cause 4; a save area that is bad gives a cold boot with cause 5;
rails that do not come up put it back. -/
def Sys2Proof.sleepS3Rules : Prop :=
  ∀ s : State,
    (s.aon.mode = .enteringS3 → s.aon.xtalStable = true → s.aon.wakePending = none → ∃ t, exec .s3Entry s = .next t ∧ t.aon.mode = .s3 ∧
      t.aon.save = some s.saveArea ∧ t.aon.saveValid = true ∧ t.ctxs = [] ∧ t.queues = [] ∧ t.jobs = [] ∧ t.mem.rsv = [] ∧
      t.mem.dram = (if s.aon.dramKeep then s.mem.dram else []) ∧ t.aon.corePwrReq = false ∧ t.aon.memPwrEn = s.aon.dramKeep ∧ t.log = s.log) ∧
    (∀ src v, s.aon.mode = .wakingS3 → s.aon.wakeSrc = src → s.aon.corePgood = true → s.aon.sysclk = true → s.aon.save = some v →
      (s.firstFail (s.levee.slot s.levee.activeSlot) bootOrder = none → ∃ t, exec (.s3Wake src true) s = .next t ∧ t.aon.mode = .a ∧ t.aon.cause = 4 ∧
        t.aon.saveValid = false ∧ t.rsv.outBank = v.outBank ∧ t.rsv.scrubCfg = v.scrubCfg ∧ t.levee.protMask = v.protMask ∧ t.sc.mode = v.scMode ∧
        t.pcie.cfg = v.pciCfg ∧ t.weir.hours = v.hours ∧ t.weir.planVersion = v.version ∧ t.ctxs = [] ∧ t.mem.dram = s.mem.dram ∧
        ∀ (fn : Nat) (f : Fun), fn < 4 → t.funs[fn]? = some f → f.st = .ready ∧ f.service = .startup ∧ v.windows[fn]? = some (f.dramWin, f.rsvMask)) ∧
      exec (.s3Wake src false) s = .next (s.coldStart 5)) ∧
    (s.aon.mode = .wakingS3 → s.aon.corePgood = false → s.aon.railSince + s.aon.railWait ≤ s.now → exec .railWaitTimeout s = .next (s.modAon fun a =>
      { a with mode := .s3, railTimeout := true, corePwrReq := false, memPwrEn := a.dramKeep, ldoLp := true })) ∧
    (∀ cause, (s.coldStart cause).aon.cause = cause ∧ (s.coldStart cause).aon.saveValid = false ∧ (s.coldStart cause).aon.mode = .off ∧
      (s.coldStart cause).aon.bootPending = true ∧ (s.coldStart cause).ctxs = [] ∧ (s.coldStart cause).log = s.log)

/-- The entries into S1 and S3 and the ways out. -/
def Obligations.SleepStates : Prop := sleepS1Rules ∧ sleepS3Rules

/-- The wake bus completes (R353): the target acknowledges in A, S1 and while it wakes; a private read gives the state word; the
CCCs that read give as many bytes as the bus's specification says, the broadcast ones are acknowledged; in S3 the address is not
acknowledged and wakes the device. -/
def Obligations.WakeBus : Prop :=
  ∀ s : State,
    (s.busAnswers = true →
      (∀ i2c, exec (.i3cAddressMatch i2c) s = .next (s.modAon fun a => { a with i2c := i2c, i3cAck := true, i3cData := [] })) ∧
      exec .privateRead s = .next (s.modAon fun a => { a with i3cAck := true, i3cData := toLE 4 s.stateWord }) ∧
      (∃ d, exec .getpid s = .next (s.modAon fun a => { a with i3cAck := true, i3cData := d }) ∧ d.length = 6) ∧
      (∃ d, exec .getbcr s = .next (s.modAon fun a => { a with i3cAck := true, i3cData := d }) ∧ d.length = 1) ∧
      (∃ d, exec .getdcr s = .next (s.modAon fun a => { a with i3cAck := true, i3cData := d }) ∧ d.length = 1) ∧
      (∃ d, exec .getstatus s = .next (s.modAon fun a => { a with i3cAck := true, i3cData := d }) ∧ d.length = 2) ∧
      exec .rstdaa s = .next (s.modAon fun a => { a with i3cAck := true, i3cData := [] }) ∧
      exec .enec s = .next (s.modAon fun a => { a with i3cAck := true, i3cData := [] }) ∧
      exec .disec s = .next (s.modAon fun a => { a with i3cAck := true, i3cData := [] })) ∧
    (s.aon.mode = .a → exec .wake s = .next (s.modAon fun a => { a with i3cAck := true, i3cData := [] }) ∧ s.stateWord % 16 = 0 ∧
      s.stateWord / 16 % 16 = s.aon.cause.toNat ∧ s.stateWord.testBit 8 = s.weir.powerEmerg ∧ s.stateWord.testBit 9 = s.weir.thermEmerg ∧
      s.stateWord.testBit 10 = s.weir.trip) ∧
    (s.aon.mode = .s3 → s.aon.i3cCfg.getLsbD 8 = true → ∀ i2c, ∃ t, exec (.i3cAddressMatch i2c) s = .next t ∧ t.aon.i3cAck = false ∧
      t.aon.mode = .wakingS3 ∧ t.aon.wakeSrc = (if i2c then 2 else 1) ∧ t.aon.corePwrReq = true)

/-- Supplies, reset pins and clocks complete (R354, R355, R399 to R407): each reset of the device gives its boot cause and keeps
the flash; a fall of CORE_PGOOD holds every island in reset; the rails are asked for again after 100 ms; the pins and clocks
show. -/
def Sys2Proof.suppliesAndPinsRules : Prop :=
  ∀ s : State,
    (s.aon.vaon = true → s.aon.aonRst = false →
      (∃ t, exec .brownOut s = .next t ∧ t.aon.cause = 2 ∧ t.aon.mode = .off ∧ t.aon.bootPending = true ∧ t.aon.saveValid = false ∧ t.log = s.log ∧
        t.ctxs = []) ∧
      (∃ t, exec (.perst true) s = .next t ∧ t.aon.cause = 3 ∧ t.aon.perst = true ∧ t.aon.mode = .off ∧ t.aon.i3cCfg = s.aon.i3cCfg ∧
        t.aon.s3Cfg = s.aon.s3Cfg ∧ t.log = s.log) ∧
      (s.aon.corePwrReq = true → exec (.corePgood false) s = .next ((s.modAon fun a => { a with corePgood := false }).coldStart 0))) ∧
    (s.aon.vaon = true → ∃ t, exec .aonReset s = .next t ∧ t.aon.cause = 1 ∧ t.aon.aonRst = true ∧ t.aon.corePwrReq = false ∧
      t.aon.memPwrEn = false ∧ t.log = s.log) ∧
    exec (.perst false) s = .next (s.modAon fun a => { a with perst := false }) ∧
    exec (.corePgood true) s = .next (s.modAon fun a => { a with corePgood := true }) ∧
    (s.aon.vaon = true → s.aon.aonRst = true → exec .aonRstRelease s = .next (s.modAon fun a =>
      { a with aonRst := false, corePwrReq := true, memPwrEn := true, bootPending := true, railSince := s.now })) ∧
    (s.aon.mode = .off → s.aon.corePwrReq = true → s.aon.corePgood = false → s.aon.railSince + s.aon.railWait ≤ s.now →
      ∃ t, exec .pgoodWaitTimeout s = .next t ∧ t.now = s.now + 100000 ∧ t.aon = { s.aon with railSince := s.now + 100000 }) ∧
    (∃ t, exec .vaonLoss s = .next t ∧ t.aon.vaon = false ∧ t.aon.aonRst = true ∧ t.aon.perst = true ∧ t.aon.cause = 0 ∧ t.aon.xtalStable = false) ∧
    exec .vaonReturn s = .next (s.modAon fun a => { a with vaon := true }) ∧
    (s.aon.vaon = true → exec .xtal32kStable s = .next (s.modAon fun a => { a with xtalStable := true })) ∧
    exec .sysclkInDetected s = .next (s.modAon fun a => { a with sysclk := true })

/-- The cold boot (R25, R246, R364, R365): the boot ROM takes out of service the failing bank, the factory's spare, or the whole
group; with images that pass every function is READY in STARTUP, PF0 holds all of DRAM and of the Reservoir, and no context or
queue lives; a bad configuration makes the device FATAL. -/
def Sys2Proof.coldBootRules : Prop :=
  ∀ (failing : MbistResult) (s : State), s.bootReady = true →
    exec (.mbistComplete failing) s = .next (s.repair failing) ∧
    (∀ g < 8, ∀ n, (s.repair failing).rsv.outBank[g]? = some n →
      (failing.getD g [] = [] → n = s.part.spare.getD g 8) ∧ (∀ x, failing.getD g [] = [x] → n = x) ∧
      (∀ x y, x ≠ y → x ∈ failing.getD g [] → y ∈ failing.getD g [] → n = 0xF)) ∧
    (s.levee.staging = none → s.firstFail (s.levee.slot s.levee.activeSlot) bootOrder = none →
      ∃ t, exec (.coldBoot failing true) s = .next t ∧ t.aon.mode = .a ∧ t.aon.bootPending = false ∧ t.aon.cause = s.aon.cause ∧ t.ctxs = [] ∧
        t.queues = [] ∧ t.rsv.outBank = (s.repair failing).rsv.outBank ∧ t.mem.rsv = [] ∧
        (∀ (n : Nat) (p : Proc), t.procs[n]? = some p → p.up = true ∧ p.image = (s.levee.slot s.levee.activeSlot)[n]?) ∧
        ∀ (fn : Nat) (f : Fun), t.funs[fn]? = some f → f.st = .ready ∧ f.service = .startup ∧
          (fn = 0 → f.dramWin = [(0, t.dramBytes / 67108864), (0, 0), (0, 0), (0, 0)] ∧ f.rsvMask = BitVec.ofNat 64 (2 ^ t.rsvGranules - 1)) ∧
          (fn ≠ 0 → f.dramWin = [(0, 0), (0, 0), (0, 0), (0, 0)] ∧ f.rsvMask = 0)) ∧
    ∃ t, exec (.coldBoot failing false) s = .next t ∧ t.levee.cfgBad = true ∧ ∀ f ∈ t.funs, f.st = .fatal

/-- Supplies, reset pins and clocks, and the cold boot. -/
def Obligations.PowerOnAndBoot : Prop := suppliesAndPinsRules ∧ coldBootRules

/-! ## The block as a whole -/

/-- A step runs the command at the front of the queue, with the queue's rest. -/
def Obligations.StepRunsFrontCommand : Prop :=
  ∀ (c : Instr) (cs : List Instr) (s : State), step { s with pending := c :: cs } = exec c { s with pending := cs }

/-- With no command waiting a step lets one microsecond of the Sluice timer pass (the model's choice: log entry 1): the time and
the counters of the islands move, memory and the queue stay. -/
def Obligations.StepIdles : Prop :=
  ∀ s : State, s.pending = [] → ∃ t, step s = .next t ∧ t.now = s.now + 1 ∧ t.pending = [] ∧ t.mem = s.mem ∧ t.funs = s.funs ∧
    t.clusters = s.clusters ∧ t.islands.length = s.islands.length ∧ ∀ (n : Nat) (i j : Island), s.islands[n]? = some i → t.islands[n]? = some j → j.id = i.id ∧ j.point = i.point

/-- What reset leaves, where the spec's tables give a value: the functions BOOTING in STARTUP with no window, the configuration
registers, the default table with every unit of the part, no context, queue or job; and memory in its canonical form with
nothing listed. -/
def Obligations.ResetValues : Prop :=
  State.reset.mem.wf = true ∧ State.reset.mem.dram = [] ∧ State.reset.mem.rsv = [] ∧ State.reset.ctxs = [] ∧ State.reset.queues = [] ∧
  State.reset.jobs = [] ∧ State.reset.pending = [] ∧ State.reset.resets = [] ∧
  (∀ fn < 4, ∃ f, State.reset.funs[fn]? = some f ∧ f.st = .booting ∧ f.service = .startup ∧ f.vote = 0 ∧ f.rsvMask = 0 ∧
    f.dramWin = [(0, 0), (0, 0), (0, 0), (0, 0)] ∧ f.telemCfg = 0x64 ∧ f.msixEnable = false) ∧
  State.reset.rsv.scrubCfg = 0x1040003C ∧ State.reset.sc.mode = 6 ∧ State.reset.sc.patrolCfg = 0x18 ∧ State.reset.pcie.cfg = 0xC6 ∧
  State.reset.weir.pwrLimit = 0xF0 ∧ State.reset.weir.thermCfg = 0x786E64 ∧ State.reset.weir.cfg = 0x70032 ∧ State.reset.aon.i3cCfg = 0x35A ∧
  State.reset.aon.s3Cfg = 0x14 ∧ State.reset.sluice.isDefault = true ∧ State.reset.islands.length = 98 ∧ State.reset.readLv 4 % 16 = 0

/-- The word of R98 holds every field of an instruction: decoding the words of a well-formed command of Heith gives that command
back (the fetch, which is no part of the word, aside), and every word of 64 bits, with the word that follows it where X is 1, is
the encoding of what it decodes to. -/
def Obligations.HeithRoundTrip : Prop :=
  (∀ (i : Instr) (x : BitVec 64) (e : Option (BitVec 64)), i.wf = true → encodeHeith i = some (x, e) →
    (∀ op w, i.heith? = some (op, w) → w.fetch = .ok) → ∃ c g, decodeHeith c g x (e.getD 0) = i) ∧
  ∀ (c g : Nat) (x ext : BitVec 64), encodeHeith (decodeHeith c g x ext) = some (x, if x.getLsbD 55 then some ext else none)

/-- Memory keeps its canonical form, addresses rising and no cell equal to what an unlisted address reads as, over every step of
the block. -/
def Obligations.MemoryStaysCanonical : Prop :=
  ∀ s t : State, s.mem.wf = true → step s = .next t → t.mem.wf = true

/-- The commands of memory keep its canonical form: accesses, atomics, scrubbing and patrol at the banks and channels, the host's
apertures, and the data that completions bring. -/
def Obligations.MemoryCommandsKeepForm : Prop :=
  ∀ (s t : State), s.mem.wf = true →
    (∀ who write addr len data errs, exec (.reservoirAccess who write addr len data errs) s = .next t → t.mem.wf = true) ∧
    (∀ who op wide addr x cmp errs, exec (.reservoirAtomic who op wide addr x cmp errs) s = .next t → t.mem.wf = true) ∧
    (∀ errs, exec (.scrubLine errs) s = .next t → t.mem.wf = true) ∧
    (∀ write addr len data valid errs link allocates, exec (.dramAccess write addr len data valid errs link allocates) s = .next t → t.mem.wf = true) ∧
    (∀ errs, exec (.patrol errs) s = .next t → t.mem.wf = true) ∧
    (∀ fn write off len data ep errs, s.aon.mode = .a → exec (.bar2Access fn write off len data ep errs) s = .next t → t.mem.wf = true) ∧
    (∀ fn write off len data ep errs, s.aon.mode = .a → exec (.bar4Access fn write off len data ep errs) s = .next t → t.mem.wf = true)

/-- The only commands that end in a fault are accesses that name a place that does not exist: a DRAM access beyond the part's
DRAM, and a Reservoir access or atomic beyond the Reservoir by a requester that R41 gives no fault for. Every other command of
the block answers a next state, and none is refused. -/
def Sys2Proof.stopsOnlyBeyondMemoryRules : Prop :=
  ∀ (c : Instr) (s : State), (∀ t, exec c s ≠ .next t) →
    (∃ write addr len data valid errs link allocates, c = .dramAccess write addr len data valid errs link allocates ∧
      s.dramBytes < addr + len ∧ exec c s = .fault .dramAddress) ∨
    (∃ who write addr len data errs, c = .reservoirAccess who write addr len data errs ∧ (∀ e, who ≠ .engine e) ∧
      s.rsvBytes < addr + min len (128 - addr % 128) ∧ exec c s = .fault .reservoirAddress) ∨
    ∃ who op wide addr x cmp errs, c = .reservoirAtomic who op wide addr x cmp errs ∧ (∀ e, who ≠ .engine e) ∧
      s.rsvBytes < addr + (if wide then 8 else 4) ∧ exec c s = .fault .reservoirAddress

/-- What ends a run: an access to a place that does not exist, and nothing else. -/
def Obligations.StopsOnlyBeyondMemory : Prop := stopsOnlyBeyondMemoryRules ∧ beyondMemoryRules

/-! ## Rules stated one by one -/

/-- The fence operations of R298 on a fence that can be reached: a signal is dropped unless it raises VALUE, and leaves the
error; an error is set once, later ones set MULTIPLE, and VALUE stays; init stores the value and clears both. No operation
touches a byte outside the fence's 16. -/
def Obligations.FenceOperations : Prop :=
  ∀ (k : CtxKey) (va : Nat) (s s1 : State) (t : Target) (pa : Nat), s.fenceAt k va needWA = (.ok (t, pa), s1) → s1.mem.wf = true →
    (∀ u ∈ s1.queues, u.wait = none) →
    let value (x : State) := x.mem.readLE t pa 8
    let error (x : State) := x.mem.readLE t (pa + 8) 4
    let multiple (x : State) := x.mem.readLE t (pa + 12) 4 % 2
    let rest (x : State) := ∀ a, a < pa ∨ pa + 16 ≤ a → x.mem.read t a 1 = s1.mem.read t a 1
    (∀ v : BitVec 64,
      (v.toNat ≤ value s1 → s.signal k va v = (.order (BitVec.ofNat 64 (value s1)), s1)) ∧
      (value s1 < v.toNat → ∃ x, s.signal k va v = (.done, x) ∧ value x = v.toNat ∧ error x = error s1 ∧ multiple x = multiple s1 ∧ rest x) ∧
      ∃ x, s.fenceInit k va v = (.done, x) ∧ value x = v.toNat ∧ error x = 0 ∧ multiple x = 0 ∧ rest x) ∧
    ∀ (cause : Nat) (job : Option Nat) (o : Origin), va ≠ 0 → cause < 65536 → k.id < 1024 → k.fn < 4 →
      let x := s.setError k va cause job o
      value x = value s1 ∧ rest x ∧
      (error s1 = 0 → error x = cause + k.id * 2 ^ 16 + k.fn * 2 ^ 26 ∧ multiple x = multiple s1) ∧
      (error s1 ≠ 0 → error x = error s1 ∧ multiple x = 1)

/-- A job whose signal is dropped has completed: it replies ST_FENCE_ORDER with the fence's low word, and no context changes; a
FENCE_SIGNAL that is dropped replies so too (R299). -/
def Obligations.DroppedSignals : Prop :=
  (∀ (j : Job) (s s1 : State) (t : Target) (pa : Nat), j.outcome = .complete → j.fence ≠ 0 →
    s.fenceAt j.key j.fence needWA = (.ok (t, pa), s1) → j.value ≤ s1.fenceValue t pa →
    s.endJob j = s1.replyJob j j.island j.endStamp stFenceOrder ((s1.fenceValue t pa).toNat % 2 ^ 32) ∧ (s.endJob j).ctxs = s.ctxs) ∧
  ∀ (src : Src) (p : Packet) (pk : Pk) (s b : State) (k : CtxKey) (tgt t : Target) (pa : Nat) (s2 s3 : State), pk.key = some k →
    Taken (fenceSpec 0x31) src p pk s b → (offHead src p b).fenceOk k (pk.f 0 47 0) needWA = (some tgt, s2) →
    s2.fenceAt k (pk.f 0 47 0) needWA = (.ok (t, pa), s3) → BitVec.ofNat 64 (pk.f 8 63 0) ≤ s3.fenceValue t pa →
    exec (.fenceSignal src p) s = .next (answeredBy src pk 0x62 stFenceOrder ((s3.fenceValue t pa).toNat % 2 ^ 32) (BitVec.ofNat 64 (pk.f 8 63 0)) s3)

/-- An entry is announced on the queue's vector when the packet's IRQ bit is 1, the queue was created with IRQ_ALL, the status
is not ST_OK, or it is an event; a queue with vector 0 announces nothing (R271). -/
def Obligations.EntriesAnnounced : Prop :=
  ∀ (u : Queue) (e : Entry) (s s1 s2 : State) (ps : List Piece),
    s.translate .headgate ⟨u.fn, u.ctx⟩ (u.statusAddr + 32 * u.sw) 32 needW = (.ok ps, s1) →
    (overLink ps = true → s1.pcie.linkUp = true) →
    writePieces u.fn ps (statusBytes e.origin.seq e.origin.opcode e.status e.detail u.read e.event e.fval e.island e.stamp u.phase) s1 = (none, s2) →
    ∃ f : Queue → Queue, (u.vector ≠ 0 → (e.origin.irq = true ∨ u.irqAll = true ∨ e.status ≠ 0 ∨ e.event = true) →
        s.writeStatus u e = (s2.modQueue u.fn u.q f).msix u.fn u.vector) ∧
      (u.vector = 0 ∨ (e.origin.irq = false ∧ u.irqAll = false ∧ e.status = 0 ∧ e.event = false) → s.writeStatus u e = s2.modQueue u.fn u.q f)

/-- A tenant's vote is the DEEPEST of its latest POWER_VOTE; a cold boot, a wake from S3 and an FLR of the tenant put it at 0; a
tenant with no live context permits every state (R342). -/
def Obligations.Votes : Prop :=
  (∀ (src : Src) (p : Packet) (pk : Pk) (s b : State), Taken powerVoteSpec src p pk s b → pk.f 0 1 0 ≠ 3 →
    exec (.powerVote src p) s = .next (answered src pk stOk 0 ((offHead src p b).modFun pk.fn fun f => { f with vote := pk.f 0 1 0 }))) ∧
  (∀ (failing : MbistResult) (ok : Bool) (s : State), s.bootReady = true → ∃ t, exec (.coldBoot failing ok) s = .next t ∧ ∀ f ∈ t.funs, f.vote = 0) ∧
  (∀ (src : BitVec 4) (ok : Bool) (s : State), s.aon.mode = .wakingS3 → s.aon.wakeSrc = src → s.aon.corePgood = true → s.aon.sysclk = true →
    ∃ t, exec (.s3Wake src ok) s = .next t ∧ ∀ f ∈ t.funs, f.vote = 0) ∧
  (∀ (fn : Nat) (s : State) (f : Fun), fn < 4 → s.funs[fn]? = some f → hostReaches s →
    ∃ t g, exec (.flr fn) s = .next t ∧ t.funs[fn]? = some g ∧ g.vote = 0) ∧
  ∀ (s : State) (target fn : Nat) (f : Fun), s.funs.length = 4 → s.funs[fn]? = some f →
    (s.liveTenant fn = false → (s.sleepBits target).testBit fn = false) ∧
    (s.liveTenant fn = true → ((s.sleepBits target).testBit fn = true ↔ f.vote < target))

/-- The service state of a function (R384): STARTUP when it becomes READY; a job that replies ST_OK ends STARTUP, and RECOVERY
when it started after the reset completed; a reset that loses a context of the function, or one of its tenant or of the device,
begins RECOVERY, but TEST lasts until the last two; TEST is entered and left by its register. -/
def Obligations.ServiceStates : Prop :=
  (∀ (s : State) (fn : Nat) (f : Fun), fn < 4 → s.functionsReady.funs[fn]? = some f → f.st = .ready ∧ f.service = .startup) ∧
  (∀ (j : Job) (s : State) (f : Fun), s.funs[j.key.fn]? = some f → ∃ g, (s.jobOk j).funs[j.key.fn]? = some g ∧ g.service =
    match f.service with
    | .startup => .normal
    | .recovery => if j.sinceReset then .normal else .recovery
    | .test => .test
    | .normal => .normal) ∧
  (∀ (s : State) (fn kind unit : Nat) (f : Fun), s.funs[fn]? = some f → fn < 4 → s.resets = [] → 1 ≤ kind → kind ≤ 8 →
    ∃ g, (s.takeReset (s.named' kind unit none false)).funs[fn]? = some g ∧
      (kind = 8 ∨ (kind = 7 ∧ unit = fn) → g.service = .recovery) ∧
      (kind < 7 → (∃ c, s.ctx? c.key = some c ∧ c.key ∈ s.ctxsIn kind [unit] ∧ c.key.fn = fn ∧ (c.st = .active ∨ c.st = .faulted)) →
        g.service = if f.service = .test then .test else .recovery) ∧
      (kind < 7 → (∀ c, s.ctx? c.key = some c → c.key ∈ s.ctxsIn kind [unit] → c.key.fn ≠ fn) → g.service = f.service)) ∧
  ∀ (fn : Nat) (s : State) (f : Fun), s.funs[fn]? = some f → f.d3hot = false → hostReaches s →
    exec (.testEnter fn) s = .next (s.modFun fn fun f => { f with service := .test }) ∧
    (f.service = .test → exec (.testExit fn) s = .next (s.modFun fn fun f => { f with service := .normal })) ∧
    s.readFn fn 0x200 f = (match f.service with
      | .normal => 0
      | .startup => 1
      | .test => 2
      | .recovery => 3)
end

