-- ==== Sys2Proof/Laws/State.lean ====
section
/-! SUPPORT. One lemma for each update of the state and each field: what the update leaves and what it writes. -/

namespace Sys2Proof.Machine

variable (s : State)

/-! ## modCluster writes clusters -/

@[simp] theorem State.modCluster_pending (c : Nat) (f : Cluster → Cluster) : (s.modCluster c f).pending = s.pending := rfl
@[simp] theorem State.modCluster_now (c : Nat) (f : Cluster → Cluster) : (s.modCluster c f).now = s.now := rfl
@[simp] theorem State.modCluster_fv (c : Nat) (f : Cluster → Cluster) : (s.modCluster c f).fv = s.fv := rfl
@[simp] theorem State.modCluster_part (c : Nat) (f : Cluster → Cluster) : (s.modCluster c f).part = s.part := rfl
@[simp] theorem State.modCluster_mem (c : Nat) (f : Cluster → Cluster) : (s.modCluster c f).mem = s.mem := rfl
@[simp] theorem State.modCluster_rsv (c : Nat) (f : Cluster → Cluster) : (s.modCluster c f).rsv = s.rsv := rfl
@[simp] theorem State.modCluster_sc (c : Nat) (f : Cluster → Cluster) : (s.modCluster c f).sc = s.sc := rfl
@[simp] theorem State.modCluster_dram (c : Nat) (f : Cluster → Cluster) : (s.modCluster c f).dram = s.dram := rfl
@[simp] theorem State.modCluster_islands (c : Nat) (f : Cluster → Cluster) : (s.modCluster c f).islands = s.islands := rfl
@[simp] theorem State.modCluster_clusters (c : Nat) (f : Cluster → Cluster) : (s.modCluster c f).clusters = modNth f c s.clusters := rfl
@[simp] theorem State.modCluster_fronts (c : Nat) (f : Cluster → Cluster) : (s.modCluster c f).fronts = s.fronts := rfl
@[simp] theorem State.modCluster_arrays (c : Nat) (f : Cluster → Cluster) : (s.modCluster c f).arrays = s.arrays := rfl
@[simp] theorem State.modCluster_copies (c : Nat) (f : Cluster → Cluster) : (s.modCluster c f).copies = s.copies := rfl
@[simp] theorem State.modCluster_nsRestarts (c : Nat) (f : Cluster → Cluster) : (s.modCluster c f).nsRestarts = s.nsRestarts := rfl
@[simp] theorem State.modCluster_nsMissed (c : Nat) (f : Cluster → Cluster) : (s.modCluster c f).nsMissed = s.nsMissed := rfl
@[simp] theorem State.modCluster_sluice (c : Nat) (f : Cluster → Cluster) : (s.modCluster c f).sluice = s.sluice := rfl
@[simp] theorem State.modCluster_pipes (c : Nat) (f : Cluster → Cluster) : (s.modCluster c f).pipes = s.pipes := rfl
@[simp] theorem State.modCluster_camera (c : Nat) (f : Cluster → Cluster) : (s.modCluster c f).camera = s.camera := rfl
@[simp] theorem State.modCluster_funs (c : Nat) (f : Cluster → Cluster) : (s.modCluster c f).funs = s.funs := rfl
@[simp] theorem State.modCluster_ctxs (c : Nat) (f : Cluster → Cluster) : (s.modCluster c f).ctxs = s.ctxs := rfl
@[simp] theorem State.modCluster_queues (c : Nat) (f : Cluster → Cluster) : (s.modCluster c f).queues = s.queues := rfl
@[simp] theorem State.modCluster_jobs (c : Nat) (f : Cluster → Cluster) : (s.modCluster c f).jobs = s.jobs := rfl
@[simp] theorem State.modCluster_nextJob (c : Nat) (f : Cluster → Cluster) : (s.modCluster c f).nextJob = s.nextJob := rfl
@[simp] theorem State.modCluster_hgPackets (c : Nat) (f : Cluster → Cluster) : (s.modCluster c f).hgPackets = s.hgPackets := rfl
@[simp] theorem State.modCluster_backlog (c : Nat) (f : Cluster → Cluster) : (s.modCluster c f).backlog = s.backlog := rfl
@[simp] theorem State.modCluster_hgCache (c : Nat) (f : Cluster → Cluster) : (s.modCluster c f).hgCache = s.hgCache := rfl
@[simp] theorem State.modCluster_hgEpoch (c : Nat) (f : Cluster → Cluster) : (s.modCluster c f).hgEpoch = s.hgEpoch := rfl
@[simp] theorem State.modCluster_flight (c : Nat) (f : Cluster → Cluster) : (s.modCluster c f).flight = s.flight := rfl
@[simp] theorem State.modCluster_levee (c : Nat) (f : Cluster → Cluster) : (s.modCluster c f).levee = s.levee := rfl
@[simp] theorem State.modCluster_procs (c : Nat) (f : Cluster → Cluster) : (s.modCluster c f).procs = s.procs := rfl
@[simp] theorem State.modCluster_log (c : Nat) (f : Cluster → Cluster) : (s.modCluster c f).log = s.log := rfl
@[simp] theorem State.modCluster_logWait (c : Nat) (f : Cluster → Cluster) : (s.modCluster c f).logWait = s.logWait := rfl
@[simp] theorem State.modCluster_weir (c : Nat) (f : Cluster → Cluster) : (s.modCluster c f).weir = s.weir := rfl
@[simp] theorem State.modCluster_aon (c : Nat) (f : Cluster → Cluster) : (s.modCluster c f).aon = s.aon := rfl
@[simp] theorem State.modCluster_pcie (c : Nat) (f : Cluster → Cluster) : (s.modCluster c f).pcie = s.pcie := rfl
@[simp] theorem State.modCluster_resets (c : Nat) (f : Cluster → Cluster) : (s.modCluster c f).resets = s.resets := rfl
@[simp] theorem State.modCluster_out (c : Nat) (f : Cluster → Cluster) : (s.modCluster c f).out = s.out := rfl

/-! ## modFront writes fronts -/

@[simp] theorem State.modFront_pending (i : Nat) (f : FrontEnd → FrontEnd) : (s.modFront i f).pending = s.pending := rfl
@[simp] theorem State.modFront_now (i : Nat) (f : FrontEnd → FrontEnd) : (s.modFront i f).now = s.now := rfl
@[simp] theorem State.modFront_fv (i : Nat) (f : FrontEnd → FrontEnd) : (s.modFront i f).fv = s.fv := rfl
@[simp] theorem State.modFront_part (i : Nat) (f : FrontEnd → FrontEnd) : (s.modFront i f).part = s.part := rfl
@[simp] theorem State.modFront_mem (i : Nat) (f : FrontEnd → FrontEnd) : (s.modFront i f).mem = s.mem := rfl
@[simp] theorem State.modFront_rsv (i : Nat) (f : FrontEnd → FrontEnd) : (s.modFront i f).rsv = s.rsv := rfl
@[simp] theorem State.modFront_sc (i : Nat) (f : FrontEnd → FrontEnd) : (s.modFront i f).sc = s.sc := rfl
@[simp] theorem State.modFront_dram (i : Nat) (f : FrontEnd → FrontEnd) : (s.modFront i f).dram = s.dram := rfl
@[simp] theorem State.modFront_islands (i : Nat) (f : FrontEnd → FrontEnd) : (s.modFront i f).islands = s.islands := rfl
@[simp] theorem State.modFront_clusters (i : Nat) (f : FrontEnd → FrontEnd) : (s.modFront i f).clusters = s.clusters := rfl
@[simp] theorem State.modFront_fronts (i : Nat) (f : FrontEnd → FrontEnd) : (s.modFront i f).fronts = modNth f i s.fronts := rfl
@[simp] theorem State.modFront_arrays (i : Nat) (f : FrontEnd → FrontEnd) : (s.modFront i f).arrays = s.arrays := rfl
@[simp] theorem State.modFront_copies (i : Nat) (f : FrontEnd → FrontEnd) : (s.modFront i f).copies = s.copies := rfl
@[simp] theorem State.modFront_nsRestarts (i : Nat) (f : FrontEnd → FrontEnd) : (s.modFront i f).nsRestarts = s.nsRestarts := rfl
@[simp] theorem State.modFront_nsMissed (i : Nat) (f : FrontEnd → FrontEnd) : (s.modFront i f).nsMissed = s.nsMissed := rfl
@[simp] theorem State.modFront_sluice (i : Nat) (f : FrontEnd → FrontEnd) : (s.modFront i f).sluice = s.sluice := rfl
@[simp] theorem State.modFront_pipes (i : Nat) (f : FrontEnd → FrontEnd) : (s.modFront i f).pipes = s.pipes := rfl
@[simp] theorem State.modFront_camera (i : Nat) (f : FrontEnd → FrontEnd) : (s.modFront i f).camera = s.camera := rfl
@[simp] theorem State.modFront_funs (i : Nat) (f : FrontEnd → FrontEnd) : (s.modFront i f).funs = s.funs := rfl
@[simp] theorem State.modFront_ctxs (i : Nat) (f : FrontEnd → FrontEnd) : (s.modFront i f).ctxs = s.ctxs := rfl
@[simp] theorem State.modFront_queues (i : Nat) (f : FrontEnd → FrontEnd) : (s.modFront i f).queues = s.queues := rfl
@[simp] theorem State.modFront_jobs (i : Nat) (f : FrontEnd → FrontEnd) : (s.modFront i f).jobs = s.jobs := rfl
@[simp] theorem State.modFront_nextJob (i : Nat) (f : FrontEnd → FrontEnd) : (s.modFront i f).nextJob = s.nextJob := rfl
@[simp] theorem State.modFront_hgPackets (i : Nat) (f : FrontEnd → FrontEnd) : (s.modFront i f).hgPackets = s.hgPackets := rfl
@[simp] theorem State.modFront_backlog (i : Nat) (f : FrontEnd → FrontEnd) : (s.modFront i f).backlog = s.backlog := rfl
@[simp] theorem State.modFront_hgCache (i : Nat) (f : FrontEnd → FrontEnd) : (s.modFront i f).hgCache = s.hgCache := rfl
@[simp] theorem State.modFront_hgEpoch (i : Nat) (f : FrontEnd → FrontEnd) : (s.modFront i f).hgEpoch = s.hgEpoch := rfl
@[simp] theorem State.modFront_flight (i : Nat) (f : FrontEnd → FrontEnd) : (s.modFront i f).flight = s.flight := rfl
@[simp] theorem State.modFront_levee (i : Nat) (f : FrontEnd → FrontEnd) : (s.modFront i f).levee = s.levee := rfl
@[simp] theorem State.modFront_procs (i : Nat) (f : FrontEnd → FrontEnd) : (s.modFront i f).procs = s.procs := rfl
@[simp] theorem State.modFront_log (i : Nat) (f : FrontEnd → FrontEnd) : (s.modFront i f).log = s.log := rfl
@[simp] theorem State.modFront_logWait (i : Nat) (f : FrontEnd → FrontEnd) : (s.modFront i f).logWait = s.logWait := rfl
@[simp] theorem State.modFront_weir (i : Nat) (f : FrontEnd → FrontEnd) : (s.modFront i f).weir = s.weir := rfl
@[simp] theorem State.modFront_aon (i : Nat) (f : FrontEnd → FrontEnd) : (s.modFront i f).aon = s.aon := rfl
@[simp] theorem State.modFront_pcie (i : Nat) (f : FrontEnd → FrontEnd) : (s.modFront i f).pcie = s.pcie := rfl
@[simp] theorem State.modFront_resets (i : Nat) (f : FrontEnd → FrontEnd) : (s.modFront i f).resets = s.resets := rfl
@[simp] theorem State.modFront_out (i : Nat) (f : FrontEnd → FrontEnd) : (s.modFront i f).out = s.out := rfl

/-! ## modArray writes arrays -/

@[simp] theorem State.modArray_pending (i : Nat) (f : Array → Array) : (s.modArray i f).pending = s.pending := rfl
@[simp] theorem State.modArray_now (i : Nat) (f : Array → Array) : (s.modArray i f).now = s.now := rfl
@[simp] theorem State.modArray_fv (i : Nat) (f : Array → Array) : (s.modArray i f).fv = s.fv := rfl
@[simp] theorem State.modArray_part (i : Nat) (f : Array → Array) : (s.modArray i f).part = s.part := rfl
@[simp] theorem State.modArray_mem (i : Nat) (f : Array → Array) : (s.modArray i f).mem = s.mem := rfl
@[simp] theorem State.modArray_rsv (i : Nat) (f : Array → Array) : (s.modArray i f).rsv = s.rsv := rfl
@[simp] theorem State.modArray_sc (i : Nat) (f : Array → Array) : (s.modArray i f).sc = s.sc := rfl
@[simp] theorem State.modArray_dram (i : Nat) (f : Array → Array) : (s.modArray i f).dram = s.dram := rfl
@[simp] theorem State.modArray_islands (i : Nat) (f : Array → Array) : (s.modArray i f).islands = s.islands := rfl
@[simp] theorem State.modArray_clusters (i : Nat) (f : Array → Array) : (s.modArray i f).clusters = s.clusters := rfl
@[simp] theorem State.modArray_fronts (i : Nat) (f : Array → Array) : (s.modArray i f).fronts = s.fronts := rfl
@[simp] theorem State.modArray_arrays (i : Nat) (f : Array → Array) : (s.modArray i f).arrays = modNth f i s.arrays := rfl
@[simp] theorem State.modArray_copies (i : Nat) (f : Array → Array) : (s.modArray i f).copies = s.copies := rfl
@[simp] theorem State.modArray_nsRestarts (i : Nat) (f : Array → Array) : (s.modArray i f).nsRestarts = s.nsRestarts := rfl
@[simp] theorem State.modArray_nsMissed (i : Nat) (f : Array → Array) : (s.modArray i f).nsMissed = s.nsMissed := rfl
@[simp] theorem State.modArray_sluice (i : Nat) (f : Array → Array) : (s.modArray i f).sluice = s.sluice := rfl
@[simp] theorem State.modArray_pipes (i : Nat) (f : Array → Array) : (s.modArray i f).pipes = s.pipes := rfl
@[simp] theorem State.modArray_camera (i : Nat) (f : Array → Array) : (s.modArray i f).camera = s.camera := rfl
@[simp] theorem State.modArray_funs (i : Nat) (f : Array → Array) : (s.modArray i f).funs = s.funs := rfl
@[simp] theorem State.modArray_ctxs (i : Nat) (f : Array → Array) : (s.modArray i f).ctxs = s.ctxs := rfl
@[simp] theorem State.modArray_queues (i : Nat) (f : Array → Array) : (s.modArray i f).queues = s.queues := rfl
@[simp] theorem State.modArray_jobs (i : Nat) (f : Array → Array) : (s.modArray i f).jobs = s.jobs := rfl
@[simp] theorem State.modArray_nextJob (i : Nat) (f : Array → Array) : (s.modArray i f).nextJob = s.nextJob := rfl
@[simp] theorem State.modArray_hgPackets (i : Nat) (f : Array → Array) : (s.modArray i f).hgPackets = s.hgPackets := rfl
@[simp] theorem State.modArray_backlog (i : Nat) (f : Array → Array) : (s.modArray i f).backlog = s.backlog := rfl
@[simp] theorem State.modArray_hgCache (i : Nat) (f : Array → Array) : (s.modArray i f).hgCache = s.hgCache := rfl
@[simp] theorem State.modArray_hgEpoch (i : Nat) (f : Array → Array) : (s.modArray i f).hgEpoch = s.hgEpoch := rfl
@[simp] theorem State.modArray_flight (i : Nat) (f : Array → Array) : (s.modArray i f).flight = s.flight := rfl
@[simp] theorem State.modArray_levee (i : Nat) (f : Array → Array) : (s.modArray i f).levee = s.levee := rfl
@[simp] theorem State.modArray_procs (i : Nat) (f : Array → Array) : (s.modArray i f).procs = s.procs := rfl
@[simp] theorem State.modArray_log (i : Nat) (f : Array → Array) : (s.modArray i f).log = s.log := rfl
@[simp] theorem State.modArray_logWait (i : Nat) (f : Array → Array) : (s.modArray i f).logWait = s.logWait := rfl
@[simp] theorem State.modArray_weir (i : Nat) (f : Array → Array) : (s.modArray i f).weir = s.weir := rfl
@[simp] theorem State.modArray_aon (i : Nat) (f : Array → Array) : (s.modArray i f).aon = s.aon := rfl
@[simp] theorem State.modArray_pcie (i : Nat) (f : Array → Array) : (s.modArray i f).pcie = s.pcie := rfl
@[simp] theorem State.modArray_resets (i : Nat) (f : Array → Array) : (s.modArray i f).resets = s.resets := rfl
@[simp] theorem State.modArray_out (i : Nat) (f : Array → Array) : (s.modArray i f).out = s.out := rfl

/-! ## modCopy writes copies -/

@[simp] theorem State.modCopy_pending (i : Nat) (f : CopyEngine → CopyEngine) : (s.modCopy i f).pending = s.pending := rfl
@[simp] theorem State.modCopy_now (i : Nat) (f : CopyEngine → CopyEngine) : (s.modCopy i f).now = s.now := rfl
@[simp] theorem State.modCopy_fv (i : Nat) (f : CopyEngine → CopyEngine) : (s.modCopy i f).fv = s.fv := rfl
@[simp] theorem State.modCopy_part (i : Nat) (f : CopyEngine → CopyEngine) : (s.modCopy i f).part = s.part := rfl
@[simp] theorem State.modCopy_mem (i : Nat) (f : CopyEngine → CopyEngine) : (s.modCopy i f).mem = s.mem := rfl
@[simp] theorem State.modCopy_rsv (i : Nat) (f : CopyEngine → CopyEngine) : (s.modCopy i f).rsv = s.rsv := rfl
@[simp] theorem State.modCopy_sc (i : Nat) (f : CopyEngine → CopyEngine) : (s.modCopy i f).sc = s.sc := rfl
@[simp] theorem State.modCopy_dram (i : Nat) (f : CopyEngine → CopyEngine) : (s.modCopy i f).dram = s.dram := rfl
@[simp] theorem State.modCopy_islands (i : Nat) (f : CopyEngine → CopyEngine) : (s.modCopy i f).islands = s.islands := rfl
@[simp] theorem State.modCopy_clusters (i : Nat) (f : CopyEngine → CopyEngine) : (s.modCopy i f).clusters = s.clusters := rfl
@[simp] theorem State.modCopy_fronts (i : Nat) (f : CopyEngine → CopyEngine) : (s.modCopy i f).fronts = s.fronts := rfl
@[simp] theorem State.modCopy_arrays (i : Nat) (f : CopyEngine → CopyEngine) : (s.modCopy i f).arrays = s.arrays := rfl
@[simp] theorem State.modCopy_copies (i : Nat) (f : CopyEngine → CopyEngine) : (s.modCopy i f).copies = modNth f i s.copies := rfl
@[simp] theorem State.modCopy_nsRestarts (i : Nat) (f : CopyEngine → CopyEngine) : (s.modCopy i f).nsRestarts = s.nsRestarts := rfl
@[simp] theorem State.modCopy_nsMissed (i : Nat) (f : CopyEngine → CopyEngine) : (s.modCopy i f).nsMissed = s.nsMissed := rfl
@[simp] theorem State.modCopy_sluice (i : Nat) (f : CopyEngine → CopyEngine) : (s.modCopy i f).sluice = s.sluice := rfl
@[simp] theorem State.modCopy_pipes (i : Nat) (f : CopyEngine → CopyEngine) : (s.modCopy i f).pipes = s.pipes := rfl
@[simp] theorem State.modCopy_camera (i : Nat) (f : CopyEngine → CopyEngine) : (s.modCopy i f).camera = s.camera := rfl
@[simp] theorem State.modCopy_funs (i : Nat) (f : CopyEngine → CopyEngine) : (s.modCopy i f).funs = s.funs := rfl
@[simp] theorem State.modCopy_ctxs (i : Nat) (f : CopyEngine → CopyEngine) : (s.modCopy i f).ctxs = s.ctxs := rfl
@[simp] theorem State.modCopy_queues (i : Nat) (f : CopyEngine → CopyEngine) : (s.modCopy i f).queues = s.queues := rfl
@[simp] theorem State.modCopy_jobs (i : Nat) (f : CopyEngine → CopyEngine) : (s.modCopy i f).jobs = s.jobs := rfl
@[simp] theorem State.modCopy_nextJob (i : Nat) (f : CopyEngine → CopyEngine) : (s.modCopy i f).nextJob = s.nextJob := rfl
@[simp] theorem State.modCopy_hgPackets (i : Nat) (f : CopyEngine → CopyEngine) : (s.modCopy i f).hgPackets = s.hgPackets := rfl
@[simp] theorem State.modCopy_backlog (i : Nat) (f : CopyEngine → CopyEngine) : (s.modCopy i f).backlog = s.backlog := rfl
@[simp] theorem State.modCopy_hgCache (i : Nat) (f : CopyEngine → CopyEngine) : (s.modCopy i f).hgCache = s.hgCache := rfl
@[simp] theorem State.modCopy_hgEpoch (i : Nat) (f : CopyEngine → CopyEngine) : (s.modCopy i f).hgEpoch = s.hgEpoch := rfl
@[simp] theorem State.modCopy_flight (i : Nat) (f : CopyEngine → CopyEngine) : (s.modCopy i f).flight = s.flight := rfl
@[simp] theorem State.modCopy_levee (i : Nat) (f : CopyEngine → CopyEngine) : (s.modCopy i f).levee = s.levee := rfl
@[simp] theorem State.modCopy_procs (i : Nat) (f : CopyEngine → CopyEngine) : (s.modCopy i f).procs = s.procs := rfl
@[simp] theorem State.modCopy_log (i : Nat) (f : CopyEngine → CopyEngine) : (s.modCopy i f).log = s.log := rfl
@[simp] theorem State.modCopy_logWait (i : Nat) (f : CopyEngine → CopyEngine) : (s.modCopy i f).logWait = s.logWait := rfl
@[simp] theorem State.modCopy_weir (i : Nat) (f : CopyEngine → CopyEngine) : (s.modCopy i f).weir = s.weir := rfl
@[simp] theorem State.modCopy_aon (i : Nat) (f : CopyEngine → CopyEngine) : (s.modCopy i f).aon = s.aon := rfl
@[simp] theorem State.modCopy_pcie (i : Nat) (f : CopyEngine → CopyEngine) : (s.modCopy i f).pcie = s.pcie := rfl
@[simp] theorem State.modCopy_resets (i : Nat) (f : CopyEngine → CopyEngine) : (s.modCopy i f).resets = s.resets := rfl
@[simp] theorem State.modCopy_out (i : Nat) (f : CopyEngine → CopyEngine) : (s.modCopy i f).out = s.out := rfl

/-! ## modPipe writes pipes -/

@[simp] theorem State.modPipe_pending (p : Nat) (f : Pipe → Pipe) : (s.modPipe p f).pending = s.pending := rfl
@[simp] theorem State.modPipe_now (p : Nat) (f : Pipe → Pipe) : (s.modPipe p f).now = s.now := rfl
@[simp] theorem State.modPipe_fv (p : Nat) (f : Pipe → Pipe) : (s.modPipe p f).fv = s.fv := rfl
@[simp] theorem State.modPipe_part (p : Nat) (f : Pipe → Pipe) : (s.modPipe p f).part = s.part := rfl
@[simp] theorem State.modPipe_mem (p : Nat) (f : Pipe → Pipe) : (s.modPipe p f).mem = s.mem := rfl
@[simp] theorem State.modPipe_rsv (p : Nat) (f : Pipe → Pipe) : (s.modPipe p f).rsv = s.rsv := rfl
@[simp] theorem State.modPipe_sc (p : Nat) (f : Pipe → Pipe) : (s.modPipe p f).sc = s.sc := rfl
@[simp] theorem State.modPipe_dram (p : Nat) (f : Pipe → Pipe) : (s.modPipe p f).dram = s.dram := rfl
@[simp] theorem State.modPipe_islands (p : Nat) (f : Pipe → Pipe) : (s.modPipe p f).islands = s.islands := rfl
@[simp] theorem State.modPipe_clusters (p : Nat) (f : Pipe → Pipe) : (s.modPipe p f).clusters = s.clusters := rfl
@[simp] theorem State.modPipe_fronts (p : Nat) (f : Pipe → Pipe) : (s.modPipe p f).fronts = s.fronts := rfl
@[simp] theorem State.modPipe_arrays (p : Nat) (f : Pipe → Pipe) : (s.modPipe p f).arrays = s.arrays := rfl
@[simp] theorem State.modPipe_copies (p : Nat) (f : Pipe → Pipe) : (s.modPipe p f).copies = s.copies := rfl
@[simp] theorem State.modPipe_nsRestarts (p : Nat) (f : Pipe → Pipe) : (s.modPipe p f).nsRestarts = s.nsRestarts := rfl
@[simp] theorem State.modPipe_nsMissed (p : Nat) (f : Pipe → Pipe) : (s.modPipe p f).nsMissed = s.nsMissed := rfl
@[simp] theorem State.modPipe_sluice (p : Nat) (f : Pipe → Pipe) : (s.modPipe p f).sluice = s.sluice := rfl
@[simp] theorem State.modPipe_pipes (p : Nat) (f : Pipe → Pipe) : (s.modPipe p f).pipes = modNth f p s.pipes := rfl
@[simp] theorem State.modPipe_camera (p : Nat) (f : Pipe → Pipe) : (s.modPipe p f).camera = s.camera := rfl
@[simp] theorem State.modPipe_funs (p : Nat) (f : Pipe → Pipe) : (s.modPipe p f).funs = s.funs := rfl
@[simp] theorem State.modPipe_ctxs (p : Nat) (f : Pipe → Pipe) : (s.modPipe p f).ctxs = s.ctxs := rfl
@[simp] theorem State.modPipe_queues (p : Nat) (f : Pipe → Pipe) : (s.modPipe p f).queues = s.queues := rfl
@[simp] theorem State.modPipe_jobs (p : Nat) (f : Pipe → Pipe) : (s.modPipe p f).jobs = s.jobs := rfl
@[simp] theorem State.modPipe_nextJob (p : Nat) (f : Pipe → Pipe) : (s.modPipe p f).nextJob = s.nextJob := rfl
@[simp] theorem State.modPipe_hgPackets (p : Nat) (f : Pipe → Pipe) : (s.modPipe p f).hgPackets = s.hgPackets := rfl
@[simp] theorem State.modPipe_backlog (p : Nat) (f : Pipe → Pipe) : (s.modPipe p f).backlog = s.backlog := rfl
@[simp] theorem State.modPipe_hgCache (p : Nat) (f : Pipe → Pipe) : (s.modPipe p f).hgCache = s.hgCache := rfl
@[simp] theorem State.modPipe_hgEpoch (p : Nat) (f : Pipe → Pipe) : (s.modPipe p f).hgEpoch = s.hgEpoch := rfl
@[simp] theorem State.modPipe_flight (p : Nat) (f : Pipe → Pipe) : (s.modPipe p f).flight = s.flight := rfl
@[simp] theorem State.modPipe_levee (p : Nat) (f : Pipe → Pipe) : (s.modPipe p f).levee = s.levee := rfl
@[simp] theorem State.modPipe_procs (p : Nat) (f : Pipe → Pipe) : (s.modPipe p f).procs = s.procs := rfl
@[simp] theorem State.modPipe_log (p : Nat) (f : Pipe → Pipe) : (s.modPipe p f).log = s.log := rfl
@[simp] theorem State.modPipe_logWait (p : Nat) (f : Pipe → Pipe) : (s.modPipe p f).logWait = s.logWait := rfl
@[simp] theorem State.modPipe_weir (p : Nat) (f : Pipe → Pipe) : (s.modPipe p f).weir = s.weir := rfl
@[simp] theorem State.modPipe_aon (p : Nat) (f : Pipe → Pipe) : (s.modPipe p f).aon = s.aon := rfl
@[simp] theorem State.modPipe_pcie (p : Nat) (f : Pipe → Pipe) : (s.modPipe p f).pcie = s.pcie := rfl
@[simp] theorem State.modPipe_resets (p : Nat) (f : Pipe → Pipe) : (s.modPipe p f).resets = s.resets := rfl
@[simp] theorem State.modPipe_out (p : Nat) (f : Pipe → Pipe) : (s.modPipe p f).out = s.out := rfl

/-! ## modFun writes funs -/

@[simp] theorem State.modFun_pending (n : Nat) (f : Fun → Fun) : (s.modFun n f).pending = s.pending := rfl
@[simp] theorem State.modFun_now (n : Nat) (f : Fun → Fun) : (s.modFun n f).now = s.now := rfl
@[simp] theorem State.modFun_fv (n : Nat) (f : Fun → Fun) : (s.modFun n f).fv = s.fv := rfl
@[simp] theorem State.modFun_part (n : Nat) (f : Fun → Fun) : (s.modFun n f).part = s.part := rfl
@[simp] theorem State.modFun_mem (n : Nat) (f : Fun → Fun) : (s.modFun n f).mem = s.mem := rfl
@[simp] theorem State.modFun_rsv (n : Nat) (f : Fun → Fun) : (s.modFun n f).rsv = s.rsv := rfl
@[simp] theorem State.modFun_sc (n : Nat) (f : Fun → Fun) : (s.modFun n f).sc = s.sc := rfl
@[simp] theorem State.modFun_dram (n : Nat) (f : Fun → Fun) : (s.modFun n f).dram = s.dram := rfl
@[simp] theorem State.modFun_islands (n : Nat) (f : Fun → Fun) : (s.modFun n f).islands = s.islands := rfl
@[simp] theorem State.modFun_clusters (n : Nat) (f : Fun → Fun) : (s.modFun n f).clusters = s.clusters := rfl
@[simp] theorem State.modFun_fronts (n : Nat) (f : Fun → Fun) : (s.modFun n f).fronts = s.fronts := rfl
@[simp] theorem State.modFun_arrays (n : Nat) (f : Fun → Fun) : (s.modFun n f).arrays = s.arrays := rfl
@[simp] theorem State.modFun_copies (n : Nat) (f : Fun → Fun) : (s.modFun n f).copies = s.copies := rfl
@[simp] theorem State.modFun_nsRestarts (n : Nat) (f : Fun → Fun) : (s.modFun n f).nsRestarts = s.nsRestarts := rfl
@[simp] theorem State.modFun_nsMissed (n : Nat) (f : Fun → Fun) : (s.modFun n f).nsMissed = s.nsMissed := rfl
@[simp] theorem State.modFun_sluice (n : Nat) (f : Fun → Fun) : (s.modFun n f).sluice = s.sluice := rfl
@[simp] theorem State.modFun_pipes (n : Nat) (f : Fun → Fun) : (s.modFun n f).pipes = s.pipes := rfl
@[simp] theorem State.modFun_camera (n : Nat) (f : Fun → Fun) : (s.modFun n f).camera = s.camera := rfl
@[simp] theorem State.modFun_funs (n : Nat) (f : Fun → Fun) : (s.modFun n f).funs = modNth f n s.funs := rfl
@[simp] theorem State.modFun_ctxs (n : Nat) (f : Fun → Fun) : (s.modFun n f).ctxs = s.ctxs := rfl
@[simp] theorem State.modFun_queues (n : Nat) (f : Fun → Fun) : (s.modFun n f).queues = s.queues := rfl
@[simp] theorem State.modFun_jobs (n : Nat) (f : Fun → Fun) : (s.modFun n f).jobs = s.jobs := rfl
@[simp] theorem State.modFun_nextJob (n : Nat) (f : Fun → Fun) : (s.modFun n f).nextJob = s.nextJob := rfl
@[simp] theorem State.modFun_hgPackets (n : Nat) (f : Fun → Fun) : (s.modFun n f).hgPackets = s.hgPackets := rfl
@[simp] theorem State.modFun_backlog (n : Nat) (f : Fun → Fun) : (s.modFun n f).backlog = s.backlog := rfl
@[simp] theorem State.modFun_hgCache (n : Nat) (f : Fun → Fun) : (s.modFun n f).hgCache = s.hgCache := rfl
@[simp] theorem State.modFun_hgEpoch (n : Nat) (f : Fun → Fun) : (s.modFun n f).hgEpoch = s.hgEpoch := rfl
@[simp] theorem State.modFun_flight (n : Nat) (f : Fun → Fun) : (s.modFun n f).flight = s.flight := rfl
@[simp] theorem State.modFun_levee (n : Nat) (f : Fun → Fun) : (s.modFun n f).levee = s.levee := rfl
@[simp] theorem State.modFun_procs (n : Nat) (f : Fun → Fun) : (s.modFun n f).procs = s.procs := rfl
@[simp] theorem State.modFun_log (n : Nat) (f : Fun → Fun) : (s.modFun n f).log = s.log := rfl
@[simp] theorem State.modFun_logWait (n : Nat) (f : Fun → Fun) : (s.modFun n f).logWait = s.logWait := rfl
@[simp] theorem State.modFun_weir (n : Nat) (f : Fun → Fun) : (s.modFun n f).weir = s.weir := rfl
@[simp] theorem State.modFun_aon (n : Nat) (f : Fun → Fun) : (s.modFun n f).aon = s.aon := rfl
@[simp] theorem State.modFun_pcie (n : Nat) (f : Fun → Fun) : (s.modFun n f).pcie = s.pcie := rfl
@[simp] theorem State.modFun_resets (n : Nat) (f : Fun → Fun) : (s.modFun n f).resets = s.resets := rfl
@[simp] theorem State.modFun_out (n : Nat) (f : Fun → Fun) : (s.modFun n f).out = s.out := rfl

/-! ## modSlice writes sc -/

@[simp] theorem State.modSlice_pending (i : Nat) (f : Slice → Slice) : (s.modSlice i f).pending = s.pending := rfl
@[simp] theorem State.modSlice_now (i : Nat) (f : Slice → Slice) : (s.modSlice i f).now = s.now := rfl
@[simp] theorem State.modSlice_fv (i : Nat) (f : Slice → Slice) : (s.modSlice i f).fv = s.fv := rfl
@[simp] theorem State.modSlice_part (i : Nat) (f : Slice → Slice) : (s.modSlice i f).part = s.part := rfl
@[simp] theorem State.modSlice_mem (i : Nat) (f : Slice → Slice) : (s.modSlice i f).mem = s.mem := rfl
@[simp] theorem State.modSlice_rsv (i : Nat) (f : Slice → Slice) : (s.modSlice i f).rsv = s.rsv := rfl
@[simp] theorem State.modSlice_sc (i : Nat) (f : Slice → Slice) : (s.modSlice i f).sc = { s.sc with slices := modNth f i s.sc.slices } := rfl
@[simp] theorem State.modSlice_dram (i : Nat) (f : Slice → Slice) : (s.modSlice i f).dram = s.dram := rfl
@[simp] theorem State.modSlice_islands (i : Nat) (f : Slice → Slice) : (s.modSlice i f).islands = s.islands := rfl
@[simp] theorem State.modSlice_clusters (i : Nat) (f : Slice → Slice) : (s.modSlice i f).clusters = s.clusters := rfl
@[simp] theorem State.modSlice_fronts (i : Nat) (f : Slice → Slice) : (s.modSlice i f).fronts = s.fronts := rfl
@[simp] theorem State.modSlice_arrays (i : Nat) (f : Slice → Slice) : (s.modSlice i f).arrays = s.arrays := rfl
@[simp] theorem State.modSlice_copies (i : Nat) (f : Slice → Slice) : (s.modSlice i f).copies = s.copies := rfl
@[simp] theorem State.modSlice_nsRestarts (i : Nat) (f : Slice → Slice) : (s.modSlice i f).nsRestarts = s.nsRestarts := rfl
@[simp] theorem State.modSlice_nsMissed (i : Nat) (f : Slice → Slice) : (s.modSlice i f).nsMissed = s.nsMissed := rfl
@[simp] theorem State.modSlice_sluice (i : Nat) (f : Slice → Slice) : (s.modSlice i f).sluice = s.sluice := rfl
@[simp] theorem State.modSlice_pipes (i : Nat) (f : Slice → Slice) : (s.modSlice i f).pipes = s.pipes := rfl
@[simp] theorem State.modSlice_camera (i : Nat) (f : Slice → Slice) : (s.modSlice i f).camera = s.camera := rfl
@[simp] theorem State.modSlice_funs (i : Nat) (f : Slice → Slice) : (s.modSlice i f).funs = s.funs := rfl
@[simp] theorem State.modSlice_ctxs (i : Nat) (f : Slice → Slice) : (s.modSlice i f).ctxs = s.ctxs := rfl
@[simp] theorem State.modSlice_queues (i : Nat) (f : Slice → Slice) : (s.modSlice i f).queues = s.queues := rfl
@[simp] theorem State.modSlice_jobs (i : Nat) (f : Slice → Slice) : (s.modSlice i f).jobs = s.jobs := rfl
@[simp] theorem State.modSlice_nextJob (i : Nat) (f : Slice → Slice) : (s.modSlice i f).nextJob = s.nextJob := rfl
@[simp] theorem State.modSlice_hgPackets (i : Nat) (f : Slice → Slice) : (s.modSlice i f).hgPackets = s.hgPackets := rfl
@[simp] theorem State.modSlice_backlog (i : Nat) (f : Slice → Slice) : (s.modSlice i f).backlog = s.backlog := rfl
@[simp] theorem State.modSlice_hgCache (i : Nat) (f : Slice → Slice) : (s.modSlice i f).hgCache = s.hgCache := rfl
@[simp] theorem State.modSlice_hgEpoch (i : Nat) (f : Slice → Slice) : (s.modSlice i f).hgEpoch = s.hgEpoch := rfl
@[simp] theorem State.modSlice_flight (i : Nat) (f : Slice → Slice) : (s.modSlice i f).flight = s.flight := rfl
@[simp] theorem State.modSlice_levee (i : Nat) (f : Slice → Slice) : (s.modSlice i f).levee = s.levee := rfl
@[simp] theorem State.modSlice_procs (i : Nat) (f : Slice → Slice) : (s.modSlice i f).procs = s.procs := rfl
@[simp] theorem State.modSlice_log (i : Nat) (f : Slice → Slice) : (s.modSlice i f).log = s.log := rfl
@[simp] theorem State.modSlice_logWait (i : Nat) (f : Slice → Slice) : (s.modSlice i f).logWait = s.logWait := rfl
@[simp] theorem State.modSlice_weir (i : Nat) (f : Slice → Slice) : (s.modSlice i f).weir = s.weir := rfl
@[simp] theorem State.modSlice_aon (i : Nat) (f : Slice → Slice) : (s.modSlice i f).aon = s.aon := rfl
@[simp] theorem State.modSlice_pcie (i : Nat) (f : Slice → Slice) : (s.modSlice i f).pcie = s.pcie := rfl
@[simp] theorem State.modSlice_resets (i : Nat) (f : Slice → Slice) : (s.modSlice i f).resets = s.resets := rfl
@[simp] theorem State.modSlice_out (i : Nat) (f : Slice → Slice) : (s.modSlice i f).out = s.out := rfl

/-! ## modChannel writes dram -/

@[simp] theorem State.modChannel_pending (c : Nat) (f : DramChannel → DramChannel) : (s.modChannel c f).pending = s.pending := rfl
@[simp] theorem State.modChannel_now (c : Nat) (f : DramChannel → DramChannel) : (s.modChannel c f).now = s.now := rfl
@[simp] theorem State.modChannel_fv (c : Nat) (f : DramChannel → DramChannel) : (s.modChannel c f).fv = s.fv := rfl
@[simp] theorem State.modChannel_part (c : Nat) (f : DramChannel → DramChannel) : (s.modChannel c f).part = s.part := rfl
@[simp] theorem State.modChannel_mem (c : Nat) (f : DramChannel → DramChannel) : (s.modChannel c f).mem = s.mem := rfl
@[simp] theorem State.modChannel_rsv (c : Nat) (f : DramChannel → DramChannel) : (s.modChannel c f).rsv = s.rsv := rfl
@[simp] theorem State.modChannel_sc (c : Nat) (f : DramChannel → DramChannel) : (s.modChannel c f).sc = s.sc := rfl
@[simp] theorem State.modChannel_dram (c : Nat) (f : DramChannel → DramChannel) : (s.modChannel c f).dram = modNth f c s.dram := rfl
@[simp] theorem State.modChannel_islands (c : Nat) (f : DramChannel → DramChannel) : (s.modChannel c f).islands = s.islands := rfl
@[simp] theorem State.modChannel_clusters (c : Nat) (f : DramChannel → DramChannel) : (s.modChannel c f).clusters = s.clusters := rfl
@[simp] theorem State.modChannel_fronts (c : Nat) (f : DramChannel → DramChannel) : (s.modChannel c f).fronts = s.fronts := rfl
@[simp] theorem State.modChannel_arrays (c : Nat) (f : DramChannel → DramChannel) : (s.modChannel c f).arrays = s.arrays := rfl
@[simp] theorem State.modChannel_copies (c : Nat) (f : DramChannel → DramChannel) : (s.modChannel c f).copies = s.copies := rfl
@[simp] theorem State.modChannel_nsRestarts (c : Nat) (f : DramChannel → DramChannel) : (s.modChannel c f).nsRestarts = s.nsRestarts := rfl
@[simp] theorem State.modChannel_nsMissed (c : Nat) (f : DramChannel → DramChannel) : (s.modChannel c f).nsMissed = s.nsMissed := rfl
@[simp] theorem State.modChannel_sluice (c : Nat) (f : DramChannel → DramChannel) : (s.modChannel c f).sluice = s.sluice := rfl
@[simp] theorem State.modChannel_pipes (c : Nat) (f : DramChannel → DramChannel) : (s.modChannel c f).pipes = s.pipes := rfl
@[simp] theorem State.modChannel_camera (c : Nat) (f : DramChannel → DramChannel) : (s.modChannel c f).camera = s.camera := rfl
@[simp] theorem State.modChannel_funs (c : Nat) (f : DramChannel → DramChannel) : (s.modChannel c f).funs = s.funs := rfl
@[simp] theorem State.modChannel_ctxs (c : Nat) (f : DramChannel → DramChannel) : (s.modChannel c f).ctxs = s.ctxs := rfl
@[simp] theorem State.modChannel_queues (c : Nat) (f : DramChannel → DramChannel) : (s.modChannel c f).queues = s.queues := rfl
@[simp] theorem State.modChannel_jobs (c : Nat) (f : DramChannel → DramChannel) : (s.modChannel c f).jobs = s.jobs := rfl
@[simp] theorem State.modChannel_nextJob (c : Nat) (f : DramChannel → DramChannel) : (s.modChannel c f).nextJob = s.nextJob := rfl
@[simp] theorem State.modChannel_hgPackets (c : Nat) (f : DramChannel → DramChannel) : (s.modChannel c f).hgPackets = s.hgPackets := rfl
@[simp] theorem State.modChannel_backlog (c : Nat) (f : DramChannel → DramChannel) : (s.modChannel c f).backlog = s.backlog := rfl
@[simp] theorem State.modChannel_hgCache (c : Nat) (f : DramChannel → DramChannel) : (s.modChannel c f).hgCache = s.hgCache := rfl
@[simp] theorem State.modChannel_hgEpoch (c : Nat) (f : DramChannel → DramChannel) : (s.modChannel c f).hgEpoch = s.hgEpoch := rfl
@[simp] theorem State.modChannel_flight (c : Nat) (f : DramChannel → DramChannel) : (s.modChannel c f).flight = s.flight := rfl
@[simp] theorem State.modChannel_levee (c : Nat) (f : DramChannel → DramChannel) : (s.modChannel c f).levee = s.levee := rfl
@[simp] theorem State.modChannel_procs (c : Nat) (f : DramChannel → DramChannel) : (s.modChannel c f).procs = s.procs := rfl
@[simp] theorem State.modChannel_log (c : Nat) (f : DramChannel → DramChannel) : (s.modChannel c f).log = s.log := rfl
@[simp] theorem State.modChannel_logWait (c : Nat) (f : DramChannel → DramChannel) : (s.modChannel c f).logWait = s.logWait := rfl
@[simp] theorem State.modChannel_weir (c : Nat) (f : DramChannel → DramChannel) : (s.modChannel c f).weir = s.weir := rfl
@[simp] theorem State.modChannel_aon (c : Nat) (f : DramChannel → DramChannel) : (s.modChannel c f).aon = s.aon := rfl
@[simp] theorem State.modChannel_pcie (c : Nat) (f : DramChannel → DramChannel) : (s.modChannel c f).pcie = s.pcie := rfl
@[simp] theorem State.modChannel_resets (c : Nat) (f : DramChannel → DramChannel) : (s.modChannel c f).resets = s.resets := rfl
@[simp] theorem State.modChannel_out (c : Nat) (f : DramChannel → DramChannel) : (s.modChannel c f).out = s.out := rfl

/-! ## modProc writes procs -/

@[simp] theorem State.modProc_pending (p : Nat) (f : Proc → Proc) : (s.modProc p f).pending = s.pending := rfl
@[simp] theorem State.modProc_now (p : Nat) (f : Proc → Proc) : (s.modProc p f).now = s.now := rfl
@[simp] theorem State.modProc_fv (p : Nat) (f : Proc → Proc) : (s.modProc p f).fv = s.fv := rfl
@[simp] theorem State.modProc_part (p : Nat) (f : Proc → Proc) : (s.modProc p f).part = s.part := rfl
@[simp] theorem State.modProc_mem (p : Nat) (f : Proc → Proc) : (s.modProc p f).mem = s.mem := rfl
@[simp] theorem State.modProc_rsv (p : Nat) (f : Proc → Proc) : (s.modProc p f).rsv = s.rsv := rfl
@[simp] theorem State.modProc_sc (p : Nat) (f : Proc → Proc) : (s.modProc p f).sc = s.sc := rfl
@[simp] theorem State.modProc_dram (p : Nat) (f : Proc → Proc) : (s.modProc p f).dram = s.dram := rfl
@[simp] theorem State.modProc_islands (p : Nat) (f : Proc → Proc) : (s.modProc p f).islands = s.islands := rfl
@[simp] theorem State.modProc_clusters (p : Nat) (f : Proc → Proc) : (s.modProc p f).clusters = s.clusters := rfl
@[simp] theorem State.modProc_fronts (p : Nat) (f : Proc → Proc) : (s.modProc p f).fronts = s.fronts := rfl
@[simp] theorem State.modProc_arrays (p : Nat) (f : Proc → Proc) : (s.modProc p f).arrays = s.arrays := rfl
@[simp] theorem State.modProc_copies (p : Nat) (f : Proc → Proc) : (s.modProc p f).copies = s.copies := rfl
@[simp] theorem State.modProc_nsRestarts (p : Nat) (f : Proc → Proc) : (s.modProc p f).nsRestarts = s.nsRestarts := rfl
@[simp] theorem State.modProc_nsMissed (p : Nat) (f : Proc → Proc) : (s.modProc p f).nsMissed = s.nsMissed := rfl
@[simp] theorem State.modProc_sluice (p : Nat) (f : Proc → Proc) : (s.modProc p f).sluice = s.sluice := rfl
@[simp] theorem State.modProc_pipes (p : Nat) (f : Proc → Proc) : (s.modProc p f).pipes = s.pipes := rfl
@[simp] theorem State.modProc_camera (p : Nat) (f : Proc → Proc) : (s.modProc p f).camera = s.camera := rfl
@[simp] theorem State.modProc_funs (p : Nat) (f : Proc → Proc) : (s.modProc p f).funs = s.funs := rfl
@[simp] theorem State.modProc_ctxs (p : Nat) (f : Proc → Proc) : (s.modProc p f).ctxs = s.ctxs := rfl
@[simp] theorem State.modProc_queues (p : Nat) (f : Proc → Proc) : (s.modProc p f).queues = s.queues := rfl
@[simp] theorem State.modProc_jobs (p : Nat) (f : Proc → Proc) : (s.modProc p f).jobs = s.jobs := rfl
@[simp] theorem State.modProc_nextJob (p : Nat) (f : Proc → Proc) : (s.modProc p f).nextJob = s.nextJob := rfl
@[simp] theorem State.modProc_hgPackets (p : Nat) (f : Proc → Proc) : (s.modProc p f).hgPackets = s.hgPackets := rfl
@[simp] theorem State.modProc_backlog (p : Nat) (f : Proc → Proc) : (s.modProc p f).backlog = s.backlog := rfl
@[simp] theorem State.modProc_hgCache (p : Nat) (f : Proc → Proc) : (s.modProc p f).hgCache = s.hgCache := rfl
@[simp] theorem State.modProc_hgEpoch (p : Nat) (f : Proc → Proc) : (s.modProc p f).hgEpoch = s.hgEpoch := rfl
@[simp] theorem State.modProc_flight (p : Nat) (f : Proc → Proc) : (s.modProc p f).flight = s.flight := rfl
@[simp] theorem State.modProc_levee (p : Nat) (f : Proc → Proc) : (s.modProc p f).levee = s.levee := rfl
@[simp] theorem State.modProc_procs (p : Nat) (f : Proc → Proc) : (s.modProc p f).procs = modNth f p s.procs := rfl
@[simp] theorem State.modProc_log (p : Nat) (f : Proc → Proc) : (s.modProc p f).log = s.log := rfl
@[simp] theorem State.modProc_logWait (p : Nat) (f : Proc → Proc) : (s.modProc p f).logWait = s.logWait := rfl
@[simp] theorem State.modProc_weir (p : Nat) (f : Proc → Proc) : (s.modProc p f).weir = s.weir := rfl
@[simp] theorem State.modProc_aon (p : Nat) (f : Proc → Proc) : (s.modProc p f).aon = s.aon := rfl
@[simp] theorem State.modProc_pcie (p : Nat) (f : Proc → Proc) : (s.modProc p f).pcie = s.pcie := rfl
@[simp] theorem State.modProc_resets (p : Nat) (f : Proc → Proc) : (s.modProc p f).resets = s.resets := rfl
@[simp] theorem State.modProc_out (p : Nat) (f : Proc → Proc) : (s.modProc p f).out = s.out := rfl

/-! ## modPort writes camera -/

@[simp] theorem State.modPort_pending (p : Nat) (f : Port → Port) : (s.modPort p f).pending = s.pending := rfl
@[simp] theorem State.modPort_now (p : Nat) (f : Port → Port) : (s.modPort p f).now = s.now := rfl
@[simp] theorem State.modPort_fv (p : Nat) (f : Port → Port) : (s.modPort p f).fv = s.fv := rfl
@[simp] theorem State.modPort_part (p : Nat) (f : Port → Port) : (s.modPort p f).part = s.part := rfl
@[simp] theorem State.modPort_mem (p : Nat) (f : Port → Port) : (s.modPort p f).mem = s.mem := rfl
@[simp] theorem State.modPort_rsv (p : Nat) (f : Port → Port) : (s.modPort p f).rsv = s.rsv := rfl
@[simp] theorem State.modPort_sc (p : Nat) (f : Port → Port) : (s.modPort p f).sc = s.sc := rfl
@[simp] theorem State.modPort_dram (p : Nat) (f : Port → Port) : (s.modPort p f).dram = s.dram := rfl
@[simp] theorem State.modPort_islands (p : Nat) (f : Port → Port) : (s.modPort p f).islands = s.islands := rfl
@[simp] theorem State.modPort_clusters (p : Nat) (f : Port → Port) : (s.modPort p f).clusters = s.clusters := rfl
@[simp] theorem State.modPort_fronts (p : Nat) (f : Port → Port) : (s.modPort p f).fronts = s.fronts := rfl
@[simp] theorem State.modPort_arrays (p : Nat) (f : Port → Port) : (s.modPort p f).arrays = s.arrays := rfl
@[simp] theorem State.modPort_copies (p : Nat) (f : Port → Port) : (s.modPort p f).copies = s.copies := rfl
@[simp] theorem State.modPort_nsRestarts (p : Nat) (f : Port → Port) : (s.modPort p f).nsRestarts = s.nsRestarts := rfl
@[simp] theorem State.modPort_nsMissed (p : Nat) (f : Port → Port) : (s.modPort p f).nsMissed = s.nsMissed := rfl
@[simp] theorem State.modPort_sluice (p : Nat) (f : Port → Port) : (s.modPort p f).sluice = s.sluice := rfl
@[simp] theorem State.modPort_pipes (p : Nat) (f : Port → Port) : (s.modPort p f).pipes = s.pipes := rfl
@[simp] theorem State.modPort_camera (p : Nat) (f : Port → Port) : (s.modPort p f).camera = { s.camera with ports := modNth f p s.camera.ports } := rfl
@[simp] theorem State.modPort_funs (p : Nat) (f : Port → Port) : (s.modPort p f).funs = s.funs := rfl
@[simp] theorem State.modPort_ctxs (p : Nat) (f : Port → Port) : (s.modPort p f).ctxs = s.ctxs := rfl
@[simp] theorem State.modPort_queues (p : Nat) (f : Port → Port) : (s.modPort p f).queues = s.queues := rfl
@[simp] theorem State.modPort_jobs (p : Nat) (f : Port → Port) : (s.modPort p f).jobs = s.jobs := rfl
@[simp] theorem State.modPort_nextJob (p : Nat) (f : Port → Port) : (s.modPort p f).nextJob = s.nextJob := rfl
@[simp] theorem State.modPort_hgPackets (p : Nat) (f : Port → Port) : (s.modPort p f).hgPackets = s.hgPackets := rfl
@[simp] theorem State.modPort_backlog (p : Nat) (f : Port → Port) : (s.modPort p f).backlog = s.backlog := rfl
@[simp] theorem State.modPort_hgCache (p : Nat) (f : Port → Port) : (s.modPort p f).hgCache = s.hgCache := rfl
@[simp] theorem State.modPort_hgEpoch (p : Nat) (f : Port → Port) : (s.modPort p f).hgEpoch = s.hgEpoch := rfl
@[simp] theorem State.modPort_flight (p : Nat) (f : Port → Port) : (s.modPort p f).flight = s.flight := rfl
@[simp] theorem State.modPort_levee (p : Nat) (f : Port → Port) : (s.modPort p f).levee = s.levee := rfl
@[simp] theorem State.modPort_procs (p : Nat) (f : Port → Port) : (s.modPort p f).procs = s.procs := rfl
@[simp] theorem State.modPort_log (p : Nat) (f : Port → Port) : (s.modPort p f).log = s.log := rfl
@[simp] theorem State.modPort_logWait (p : Nat) (f : Port → Port) : (s.modPort p f).logWait = s.logWait := rfl
@[simp] theorem State.modPort_weir (p : Nat) (f : Port → Port) : (s.modPort p f).weir = s.weir := rfl
@[simp] theorem State.modPort_aon (p : Nat) (f : Port → Port) : (s.modPort p f).aon = s.aon := rfl
@[simp] theorem State.modPort_pcie (p : Nat) (f : Port → Port) : (s.modPort p f).pcie = s.pcie := rfl
@[simp] theorem State.modPort_resets (p : Nat) (f : Port → Port) : (s.modPort p f).resets = s.resets := rfl
@[simp] theorem State.modPort_out (p : Nat) (f : Port → Port) : (s.modPort p f).out = s.out := rfl

/-! ## modIsland writes islands -/

@[simp] theorem State.modIsland_pending (n : Nat) (f : Island → Island) : (s.modIsland n f).pending = s.pending := rfl
@[simp] theorem State.modIsland_now (n : Nat) (f : Island → Island) : (s.modIsland n f).now = s.now := rfl
@[simp] theorem State.modIsland_fv (n : Nat) (f : Island → Island) : (s.modIsland n f).fv = s.fv := rfl
@[simp] theorem State.modIsland_part (n : Nat) (f : Island → Island) : (s.modIsland n f).part = s.part := rfl
@[simp] theorem State.modIsland_mem (n : Nat) (f : Island → Island) : (s.modIsland n f).mem = s.mem := rfl
@[simp] theorem State.modIsland_rsv (n : Nat) (f : Island → Island) : (s.modIsland n f).rsv = s.rsv := rfl
@[simp] theorem State.modIsland_sc (n : Nat) (f : Island → Island) : (s.modIsland n f).sc = s.sc := rfl
@[simp] theorem State.modIsland_dram (n : Nat) (f : Island → Island) : (s.modIsland n f).dram = s.dram := rfl
@[simp] theorem State.modIsland_islands (n : Nat) (f : Island → Island) : (s.modIsland n f).islands = s.islands.map fun i => if i.id = n then f i else i := rfl
@[simp] theorem State.modIsland_clusters (n : Nat) (f : Island → Island) : (s.modIsland n f).clusters = s.clusters := rfl
@[simp] theorem State.modIsland_fronts (n : Nat) (f : Island → Island) : (s.modIsland n f).fronts = s.fronts := rfl
@[simp] theorem State.modIsland_arrays (n : Nat) (f : Island → Island) : (s.modIsland n f).arrays = s.arrays := rfl
@[simp] theorem State.modIsland_copies (n : Nat) (f : Island → Island) : (s.modIsland n f).copies = s.copies := rfl
@[simp] theorem State.modIsland_nsRestarts (n : Nat) (f : Island → Island) : (s.modIsland n f).nsRestarts = s.nsRestarts := rfl
@[simp] theorem State.modIsland_nsMissed (n : Nat) (f : Island → Island) : (s.modIsland n f).nsMissed = s.nsMissed := rfl
@[simp] theorem State.modIsland_sluice (n : Nat) (f : Island → Island) : (s.modIsland n f).sluice = s.sluice := rfl
@[simp] theorem State.modIsland_pipes (n : Nat) (f : Island → Island) : (s.modIsland n f).pipes = s.pipes := rfl
@[simp] theorem State.modIsland_camera (n : Nat) (f : Island → Island) : (s.modIsland n f).camera = s.camera := rfl
@[simp] theorem State.modIsland_funs (n : Nat) (f : Island → Island) : (s.modIsland n f).funs = s.funs := rfl
@[simp] theorem State.modIsland_ctxs (n : Nat) (f : Island → Island) : (s.modIsland n f).ctxs = s.ctxs := rfl
@[simp] theorem State.modIsland_queues (n : Nat) (f : Island → Island) : (s.modIsland n f).queues = s.queues := rfl
@[simp] theorem State.modIsland_jobs (n : Nat) (f : Island → Island) : (s.modIsland n f).jobs = s.jobs := rfl
@[simp] theorem State.modIsland_nextJob (n : Nat) (f : Island → Island) : (s.modIsland n f).nextJob = s.nextJob := rfl
@[simp] theorem State.modIsland_hgPackets (n : Nat) (f : Island → Island) : (s.modIsland n f).hgPackets = s.hgPackets := rfl
@[simp] theorem State.modIsland_backlog (n : Nat) (f : Island → Island) : (s.modIsland n f).backlog = s.backlog := rfl
@[simp] theorem State.modIsland_hgCache (n : Nat) (f : Island → Island) : (s.modIsland n f).hgCache = s.hgCache := rfl
@[simp] theorem State.modIsland_hgEpoch (n : Nat) (f : Island → Island) : (s.modIsland n f).hgEpoch = s.hgEpoch := rfl
@[simp] theorem State.modIsland_flight (n : Nat) (f : Island → Island) : (s.modIsland n f).flight = s.flight := rfl
@[simp] theorem State.modIsland_levee (n : Nat) (f : Island → Island) : (s.modIsland n f).levee = s.levee := rfl
@[simp] theorem State.modIsland_procs (n : Nat) (f : Island → Island) : (s.modIsland n f).procs = s.procs := rfl
@[simp] theorem State.modIsland_log (n : Nat) (f : Island → Island) : (s.modIsland n f).log = s.log := rfl
@[simp] theorem State.modIsland_logWait (n : Nat) (f : Island → Island) : (s.modIsland n f).logWait = s.logWait := rfl
@[simp] theorem State.modIsland_weir (n : Nat) (f : Island → Island) : (s.modIsland n f).weir = s.weir := rfl
@[simp] theorem State.modIsland_aon (n : Nat) (f : Island → Island) : (s.modIsland n f).aon = s.aon := rfl
@[simp] theorem State.modIsland_pcie (n : Nat) (f : Island → Island) : (s.modIsland n f).pcie = s.pcie := rfl
@[simp] theorem State.modIsland_resets (n : Nat) (f : Island → Island) : (s.modIsland n f).resets = s.resets := rfl
@[simp] theorem State.modIsland_out (n : Nat) (f : Island → Island) : (s.modIsland n f).out = s.out := rfl

/-! ## modCtx writes ctxs -/

@[simp] theorem State.modCtx_pending (k : CtxKey) (f : Ctx → Ctx) : (s.modCtx k f).pending = s.pending := rfl
@[simp] theorem State.modCtx_now (k : CtxKey) (f : Ctx → Ctx) : (s.modCtx k f).now = s.now := rfl
@[simp] theorem State.modCtx_fv (k : CtxKey) (f : Ctx → Ctx) : (s.modCtx k f).fv = s.fv := rfl
@[simp] theorem State.modCtx_part (k : CtxKey) (f : Ctx → Ctx) : (s.modCtx k f).part = s.part := rfl
@[simp] theorem State.modCtx_mem (k : CtxKey) (f : Ctx → Ctx) : (s.modCtx k f).mem = s.mem := rfl
@[simp] theorem State.modCtx_rsv (k : CtxKey) (f : Ctx → Ctx) : (s.modCtx k f).rsv = s.rsv := rfl
@[simp] theorem State.modCtx_sc (k : CtxKey) (f : Ctx → Ctx) : (s.modCtx k f).sc = s.sc := rfl
@[simp] theorem State.modCtx_dram (k : CtxKey) (f : Ctx → Ctx) : (s.modCtx k f).dram = s.dram := rfl
@[simp] theorem State.modCtx_islands (k : CtxKey) (f : Ctx → Ctx) : (s.modCtx k f).islands = s.islands := rfl
@[simp] theorem State.modCtx_clusters (k : CtxKey) (f : Ctx → Ctx) : (s.modCtx k f).clusters = s.clusters := rfl
@[simp] theorem State.modCtx_fronts (k : CtxKey) (f : Ctx → Ctx) : (s.modCtx k f).fronts = s.fronts := rfl
@[simp] theorem State.modCtx_arrays (k : CtxKey) (f : Ctx → Ctx) : (s.modCtx k f).arrays = s.arrays := rfl
@[simp] theorem State.modCtx_copies (k : CtxKey) (f : Ctx → Ctx) : (s.modCtx k f).copies = s.copies := rfl
@[simp] theorem State.modCtx_nsRestarts (k : CtxKey) (f : Ctx → Ctx) : (s.modCtx k f).nsRestarts = s.nsRestarts := rfl
@[simp] theorem State.modCtx_nsMissed (k : CtxKey) (f : Ctx → Ctx) : (s.modCtx k f).nsMissed = s.nsMissed := rfl
@[simp] theorem State.modCtx_sluice (k : CtxKey) (f : Ctx → Ctx) : (s.modCtx k f).sluice = s.sluice := rfl
@[simp] theorem State.modCtx_pipes (k : CtxKey) (f : Ctx → Ctx) : (s.modCtx k f).pipes = s.pipes := rfl
@[simp] theorem State.modCtx_camera (k : CtxKey) (f : Ctx → Ctx) : (s.modCtx k f).camera = s.camera := rfl
@[simp] theorem State.modCtx_funs (k : CtxKey) (f : Ctx → Ctx) : (s.modCtx k f).funs = s.funs := rfl
@[simp] theorem State.modCtx_ctxs (k : CtxKey) (f : Ctx → Ctx) : (s.modCtx k f).ctxs = s.ctxs.map fun c => if c.key = k then f c else c := rfl
@[simp] theorem State.modCtx_queues (k : CtxKey) (f : Ctx → Ctx) : (s.modCtx k f).queues = s.queues := rfl
@[simp] theorem State.modCtx_jobs (k : CtxKey) (f : Ctx → Ctx) : (s.modCtx k f).jobs = s.jobs := rfl
@[simp] theorem State.modCtx_nextJob (k : CtxKey) (f : Ctx → Ctx) : (s.modCtx k f).nextJob = s.nextJob := rfl
@[simp] theorem State.modCtx_hgPackets (k : CtxKey) (f : Ctx → Ctx) : (s.modCtx k f).hgPackets = s.hgPackets := rfl
@[simp] theorem State.modCtx_backlog (k : CtxKey) (f : Ctx → Ctx) : (s.modCtx k f).backlog = s.backlog := rfl
@[simp] theorem State.modCtx_hgCache (k : CtxKey) (f : Ctx → Ctx) : (s.modCtx k f).hgCache = s.hgCache := rfl
@[simp] theorem State.modCtx_hgEpoch (k : CtxKey) (f : Ctx → Ctx) : (s.modCtx k f).hgEpoch = s.hgEpoch := rfl
@[simp] theorem State.modCtx_flight (k : CtxKey) (f : Ctx → Ctx) : (s.modCtx k f).flight = s.flight := rfl
@[simp] theorem State.modCtx_levee (k : CtxKey) (f : Ctx → Ctx) : (s.modCtx k f).levee = s.levee := rfl
@[simp] theorem State.modCtx_procs (k : CtxKey) (f : Ctx → Ctx) : (s.modCtx k f).procs = s.procs := rfl
@[simp] theorem State.modCtx_log (k : CtxKey) (f : Ctx → Ctx) : (s.modCtx k f).log = s.log := rfl
@[simp] theorem State.modCtx_logWait (k : CtxKey) (f : Ctx → Ctx) : (s.modCtx k f).logWait = s.logWait := rfl
@[simp] theorem State.modCtx_weir (k : CtxKey) (f : Ctx → Ctx) : (s.modCtx k f).weir = s.weir := rfl
@[simp] theorem State.modCtx_aon (k : CtxKey) (f : Ctx → Ctx) : (s.modCtx k f).aon = s.aon := rfl
@[simp] theorem State.modCtx_pcie (k : CtxKey) (f : Ctx → Ctx) : (s.modCtx k f).pcie = s.pcie := rfl
@[simp] theorem State.modCtx_resets (k : CtxKey) (f : Ctx → Ctx) : (s.modCtx k f).resets = s.resets := rfl
@[simp] theorem State.modCtx_out (k : CtxKey) (f : Ctx → Ctx) : (s.modCtx k f).out = s.out := rfl

/-! ## modQueue writes queues -/

@[simp] theorem State.modQueue_pending (n q : Nat) (f : Queue → Queue) : (s.modQueue n q f).pending = s.pending := rfl
@[simp] theorem State.modQueue_now (n q : Nat) (f : Queue → Queue) : (s.modQueue n q f).now = s.now := rfl
@[simp] theorem State.modQueue_fv (n q : Nat) (f : Queue → Queue) : (s.modQueue n q f).fv = s.fv := rfl
@[simp] theorem State.modQueue_part (n q : Nat) (f : Queue → Queue) : (s.modQueue n q f).part = s.part := rfl
@[simp] theorem State.modQueue_mem (n q : Nat) (f : Queue → Queue) : (s.modQueue n q f).mem = s.mem := rfl
@[simp] theorem State.modQueue_rsv (n q : Nat) (f : Queue → Queue) : (s.modQueue n q f).rsv = s.rsv := rfl
@[simp] theorem State.modQueue_sc (n q : Nat) (f : Queue → Queue) : (s.modQueue n q f).sc = s.sc := rfl
@[simp] theorem State.modQueue_dram (n q : Nat) (f : Queue → Queue) : (s.modQueue n q f).dram = s.dram := rfl
@[simp] theorem State.modQueue_islands (n q : Nat) (f : Queue → Queue) : (s.modQueue n q f).islands = s.islands := rfl
@[simp] theorem State.modQueue_clusters (n q : Nat) (f : Queue → Queue) : (s.modQueue n q f).clusters = s.clusters := rfl
@[simp] theorem State.modQueue_fronts (n q : Nat) (f : Queue → Queue) : (s.modQueue n q f).fronts = s.fronts := rfl
@[simp] theorem State.modQueue_arrays (n q : Nat) (f : Queue → Queue) : (s.modQueue n q f).arrays = s.arrays := rfl
@[simp] theorem State.modQueue_copies (n q : Nat) (f : Queue → Queue) : (s.modQueue n q f).copies = s.copies := rfl
@[simp] theorem State.modQueue_nsRestarts (n q : Nat) (f : Queue → Queue) : (s.modQueue n q f).nsRestarts = s.nsRestarts := rfl
@[simp] theorem State.modQueue_nsMissed (n q : Nat) (f : Queue → Queue) : (s.modQueue n q f).nsMissed = s.nsMissed := rfl
@[simp] theorem State.modQueue_sluice (n q : Nat) (f : Queue → Queue) : (s.modQueue n q f).sluice = s.sluice := rfl
@[simp] theorem State.modQueue_pipes (n q : Nat) (f : Queue → Queue) : (s.modQueue n q f).pipes = s.pipes := rfl
@[simp] theorem State.modQueue_camera (n q : Nat) (f : Queue → Queue) : (s.modQueue n q f).camera = s.camera := rfl
@[simp] theorem State.modQueue_funs (n q : Nat) (f : Queue → Queue) : (s.modQueue n q f).funs = s.funs := rfl
@[simp] theorem State.modQueue_ctxs (n q : Nat) (f : Queue → Queue) : (s.modQueue n q f).ctxs = s.ctxs := rfl
@[simp] theorem State.modQueue_queues (n q : Nat) (f : Queue → Queue) : (s.modQueue n q f).queues = s.queues.map fun u => if u.fn = n ∧ u.q = q then f u else u := rfl
@[simp] theorem State.modQueue_jobs (n q : Nat) (f : Queue → Queue) : (s.modQueue n q f).jobs = s.jobs := rfl
@[simp] theorem State.modQueue_nextJob (n q : Nat) (f : Queue → Queue) : (s.modQueue n q f).nextJob = s.nextJob := rfl
@[simp] theorem State.modQueue_hgPackets (n q : Nat) (f : Queue → Queue) : (s.modQueue n q f).hgPackets = s.hgPackets := rfl
@[simp] theorem State.modQueue_backlog (n q : Nat) (f : Queue → Queue) : (s.modQueue n q f).backlog = s.backlog := rfl
@[simp] theorem State.modQueue_hgCache (n q : Nat) (f : Queue → Queue) : (s.modQueue n q f).hgCache = s.hgCache := rfl
@[simp] theorem State.modQueue_hgEpoch (n q : Nat) (f : Queue → Queue) : (s.modQueue n q f).hgEpoch = s.hgEpoch := rfl
@[simp] theorem State.modQueue_flight (n q : Nat) (f : Queue → Queue) : (s.modQueue n q f).flight = s.flight := rfl
@[simp] theorem State.modQueue_levee (n q : Nat) (f : Queue → Queue) : (s.modQueue n q f).levee = s.levee := rfl
@[simp] theorem State.modQueue_procs (n q : Nat) (f : Queue → Queue) : (s.modQueue n q f).procs = s.procs := rfl
@[simp] theorem State.modQueue_log (n q : Nat) (f : Queue → Queue) : (s.modQueue n q f).log = s.log := rfl
@[simp] theorem State.modQueue_logWait (n q : Nat) (f : Queue → Queue) : (s.modQueue n q f).logWait = s.logWait := rfl
@[simp] theorem State.modQueue_weir (n q : Nat) (f : Queue → Queue) : (s.modQueue n q f).weir = s.weir := rfl
@[simp] theorem State.modQueue_aon (n q : Nat) (f : Queue → Queue) : (s.modQueue n q f).aon = s.aon := rfl
@[simp] theorem State.modQueue_pcie (n q : Nat) (f : Queue → Queue) : (s.modQueue n q f).pcie = s.pcie := rfl
@[simp] theorem State.modQueue_resets (n q : Nat) (f : Queue → Queue) : (s.modQueue n q f).resets = s.resets := rfl
@[simp] theorem State.modQueue_out (n q : Nat) (f : Queue → Queue) : (s.modQueue n q f).out = s.out := rfl

/-! ## modJob writes jobs -/

@[simp] theorem State.modJob_pending (n : Nat) (f : Job → Job) : (s.modJob n f).pending = s.pending := rfl
@[simp] theorem State.modJob_now (n : Nat) (f : Job → Job) : (s.modJob n f).now = s.now := rfl
@[simp] theorem State.modJob_fv (n : Nat) (f : Job → Job) : (s.modJob n f).fv = s.fv := rfl
@[simp] theorem State.modJob_part (n : Nat) (f : Job → Job) : (s.modJob n f).part = s.part := rfl
@[simp] theorem State.modJob_mem (n : Nat) (f : Job → Job) : (s.modJob n f).mem = s.mem := rfl
@[simp] theorem State.modJob_rsv (n : Nat) (f : Job → Job) : (s.modJob n f).rsv = s.rsv := rfl
@[simp] theorem State.modJob_sc (n : Nat) (f : Job → Job) : (s.modJob n f).sc = s.sc := rfl
@[simp] theorem State.modJob_dram (n : Nat) (f : Job → Job) : (s.modJob n f).dram = s.dram := rfl
@[simp] theorem State.modJob_islands (n : Nat) (f : Job → Job) : (s.modJob n f).islands = s.islands := rfl
@[simp] theorem State.modJob_clusters (n : Nat) (f : Job → Job) : (s.modJob n f).clusters = s.clusters := rfl
@[simp] theorem State.modJob_fronts (n : Nat) (f : Job → Job) : (s.modJob n f).fronts = s.fronts := rfl
@[simp] theorem State.modJob_arrays (n : Nat) (f : Job → Job) : (s.modJob n f).arrays = s.arrays := rfl
@[simp] theorem State.modJob_copies (n : Nat) (f : Job → Job) : (s.modJob n f).copies = s.copies := rfl
@[simp] theorem State.modJob_nsRestarts (n : Nat) (f : Job → Job) : (s.modJob n f).nsRestarts = s.nsRestarts := rfl
@[simp] theorem State.modJob_nsMissed (n : Nat) (f : Job → Job) : (s.modJob n f).nsMissed = s.nsMissed := rfl
@[simp] theorem State.modJob_sluice (n : Nat) (f : Job → Job) : (s.modJob n f).sluice = s.sluice := rfl
@[simp] theorem State.modJob_pipes (n : Nat) (f : Job → Job) : (s.modJob n f).pipes = s.pipes := rfl
@[simp] theorem State.modJob_camera (n : Nat) (f : Job → Job) : (s.modJob n f).camera = s.camera := rfl
@[simp] theorem State.modJob_funs (n : Nat) (f : Job → Job) : (s.modJob n f).funs = s.funs := rfl
@[simp] theorem State.modJob_ctxs (n : Nat) (f : Job → Job) : (s.modJob n f).ctxs = s.ctxs := rfl
@[simp] theorem State.modJob_queues (n : Nat) (f : Job → Job) : (s.modJob n f).queues = s.queues := rfl
@[simp] theorem State.modJob_jobs (n : Nat) (f : Job → Job) : (s.modJob n f).jobs = s.jobs.map fun j => if j.id = n then f j else j := rfl
@[simp] theorem State.modJob_nextJob (n : Nat) (f : Job → Job) : (s.modJob n f).nextJob = s.nextJob := rfl
@[simp] theorem State.modJob_hgPackets (n : Nat) (f : Job → Job) : (s.modJob n f).hgPackets = s.hgPackets := rfl
@[simp] theorem State.modJob_backlog (n : Nat) (f : Job → Job) : (s.modJob n f).backlog = s.backlog := rfl
@[simp] theorem State.modJob_hgCache (n : Nat) (f : Job → Job) : (s.modJob n f).hgCache = s.hgCache := rfl
@[simp] theorem State.modJob_hgEpoch (n : Nat) (f : Job → Job) : (s.modJob n f).hgEpoch = s.hgEpoch := rfl
@[simp] theorem State.modJob_flight (n : Nat) (f : Job → Job) : (s.modJob n f).flight = s.flight := rfl
@[simp] theorem State.modJob_levee (n : Nat) (f : Job → Job) : (s.modJob n f).levee = s.levee := rfl
@[simp] theorem State.modJob_procs (n : Nat) (f : Job → Job) : (s.modJob n f).procs = s.procs := rfl
@[simp] theorem State.modJob_log (n : Nat) (f : Job → Job) : (s.modJob n f).log = s.log := rfl
@[simp] theorem State.modJob_logWait (n : Nat) (f : Job → Job) : (s.modJob n f).logWait = s.logWait := rfl
@[simp] theorem State.modJob_weir (n : Nat) (f : Job → Job) : (s.modJob n f).weir = s.weir := rfl
@[simp] theorem State.modJob_aon (n : Nat) (f : Job → Job) : (s.modJob n f).aon = s.aon := rfl
@[simp] theorem State.modJob_pcie (n : Nat) (f : Job → Job) : (s.modJob n f).pcie = s.pcie := rfl
@[simp] theorem State.modJob_resets (n : Nat) (f : Job → Job) : (s.modJob n f).resets = s.resets := rfl
@[simp] theorem State.modJob_out (n : Nat) (f : Job → Job) : (s.modJob n f).out = s.out := rfl

/-! ## modWeir writes weir -/

@[simp] theorem State.modWeir_pending (f : Weir → Weir) : (s.modWeir f).pending = s.pending := rfl
@[simp] theorem State.modWeir_now (f : Weir → Weir) : (s.modWeir f).now = s.now := rfl
@[simp] theorem State.modWeir_fv (f : Weir → Weir) : (s.modWeir f).fv = s.fv := rfl
@[simp] theorem State.modWeir_part (f : Weir → Weir) : (s.modWeir f).part = s.part := rfl
@[simp] theorem State.modWeir_mem (f : Weir → Weir) : (s.modWeir f).mem = s.mem := rfl
@[simp] theorem State.modWeir_rsv (f : Weir → Weir) : (s.modWeir f).rsv = s.rsv := rfl
@[simp] theorem State.modWeir_sc (f : Weir → Weir) : (s.modWeir f).sc = s.sc := rfl
@[simp] theorem State.modWeir_dram (f : Weir → Weir) : (s.modWeir f).dram = s.dram := rfl
@[simp] theorem State.modWeir_islands (f : Weir → Weir) : (s.modWeir f).islands = s.islands := rfl
@[simp] theorem State.modWeir_clusters (f : Weir → Weir) : (s.modWeir f).clusters = s.clusters := rfl
@[simp] theorem State.modWeir_fronts (f : Weir → Weir) : (s.modWeir f).fronts = s.fronts := rfl
@[simp] theorem State.modWeir_arrays (f : Weir → Weir) : (s.modWeir f).arrays = s.arrays := rfl
@[simp] theorem State.modWeir_copies (f : Weir → Weir) : (s.modWeir f).copies = s.copies := rfl
@[simp] theorem State.modWeir_nsRestarts (f : Weir → Weir) : (s.modWeir f).nsRestarts = s.nsRestarts := rfl
@[simp] theorem State.modWeir_nsMissed (f : Weir → Weir) : (s.modWeir f).nsMissed = s.nsMissed := rfl
@[simp] theorem State.modWeir_sluice (f : Weir → Weir) : (s.modWeir f).sluice = s.sluice := rfl
@[simp] theorem State.modWeir_pipes (f : Weir → Weir) : (s.modWeir f).pipes = s.pipes := rfl
@[simp] theorem State.modWeir_camera (f : Weir → Weir) : (s.modWeir f).camera = s.camera := rfl
@[simp] theorem State.modWeir_funs (f : Weir → Weir) : (s.modWeir f).funs = s.funs := rfl
@[simp] theorem State.modWeir_ctxs (f : Weir → Weir) : (s.modWeir f).ctxs = s.ctxs := rfl
@[simp] theorem State.modWeir_queues (f : Weir → Weir) : (s.modWeir f).queues = s.queues := rfl
@[simp] theorem State.modWeir_jobs (f : Weir → Weir) : (s.modWeir f).jobs = s.jobs := rfl
@[simp] theorem State.modWeir_nextJob (f : Weir → Weir) : (s.modWeir f).nextJob = s.nextJob := rfl
@[simp] theorem State.modWeir_hgPackets (f : Weir → Weir) : (s.modWeir f).hgPackets = s.hgPackets := rfl
@[simp] theorem State.modWeir_backlog (f : Weir → Weir) : (s.modWeir f).backlog = s.backlog := rfl
@[simp] theorem State.modWeir_hgCache (f : Weir → Weir) : (s.modWeir f).hgCache = s.hgCache := rfl
@[simp] theorem State.modWeir_hgEpoch (f : Weir → Weir) : (s.modWeir f).hgEpoch = s.hgEpoch := rfl
@[simp] theorem State.modWeir_flight (f : Weir → Weir) : (s.modWeir f).flight = s.flight := rfl
@[simp] theorem State.modWeir_levee (f : Weir → Weir) : (s.modWeir f).levee = s.levee := rfl
@[simp] theorem State.modWeir_procs (f : Weir → Weir) : (s.modWeir f).procs = s.procs := rfl
@[simp] theorem State.modWeir_log (f : Weir → Weir) : (s.modWeir f).log = s.log := rfl
@[simp] theorem State.modWeir_logWait (f : Weir → Weir) : (s.modWeir f).logWait = s.logWait := rfl
@[simp] theorem State.modWeir_weir (f : Weir → Weir) : (s.modWeir f).weir = f s.weir := rfl
@[simp] theorem State.modWeir_aon (f : Weir → Weir) : (s.modWeir f).aon = s.aon := rfl
@[simp] theorem State.modWeir_pcie (f : Weir → Weir) : (s.modWeir f).pcie = s.pcie := rfl
@[simp] theorem State.modWeir_resets (f : Weir → Weir) : (s.modWeir f).resets = s.resets := rfl
@[simp] theorem State.modWeir_out (f : Weir → Weir) : (s.modWeir f).out = s.out := rfl

/-! ## modAon writes aon -/

@[simp] theorem State.modAon_pending (f : Aon → Aon) : (s.modAon f).pending = s.pending := rfl
@[simp] theorem State.modAon_now (f : Aon → Aon) : (s.modAon f).now = s.now := rfl
@[simp] theorem State.modAon_fv (f : Aon → Aon) : (s.modAon f).fv = s.fv := rfl
@[simp] theorem State.modAon_part (f : Aon → Aon) : (s.modAon f).part = s.part := rfl
@[simp] theorem State.modAon_mem (f : Aon → Aon) : (s.modAon f).mem = s.mem := rfl
@[simp] theorem State.modAon_rsv (f : Aon → Aon) : (s.modAon f).rsv = s.rsv := rfl
@[simp] theorem State.modAon_sc (f : Aon → Aon) : (s.modAon f).sc = s.sc := rfl
@[simp] theorem State.modAon_dram (f : Aon → Aon) : (s.modAon f).dram = s.dram := rfl
@[simp] theorem State.modAon_islands (f : Aon → Aon) : (s.modAon f).islands = s.islands := rfl
@[simp] theorem State.modAon_clusters (f : Aon → Aon) : (s.modAon f).clusters = s.clusters := rfl
@[simp] theorem State.modAon_fronts (f : Aon → Aon) : (s.modAon f).fronts = s.fronts := rfl
@[simp] theorem State.modAon_arrays (f : Aon → Aon) : (s.modAon f).arrays = s.arrays := rfl
@[simp] theorem State.modAon_copies (f : Aon → Aon) : (s.modAon f).copies = s.copies := rfl
@[simp] theorem State.modAon_nsRestarts (f : Aon → Aon) : (s.modAon f).nsRestarts = s.nsRestarts := rfl
@[simp] theorem State.modAon_nsMissed (f : Aon → Aon) : (s.modAon f).nsMissed = s.nsMissed := rfl
@[simp] theorem State.modAon_sluice (f : Aon → Aon) : (s.modAon f).sluice = s.sluice := rfl
@[simp] theorem State.modAon_pipes (f : Aon → Aon) : (s.modAon f).pipes = s.pipes := rfl
@[simp] theorem State.modAon_camera (f : Aon → Aon) : (s.modAon f).camera = s.camera := rfl
@[simp] theorem State.modAon_funs (f : Aon → Aon) : (s.modAon f).funs = s.funs := rfl
@[simp] theorem State.modAon_ctxs (f : Aon → Aon) : (s.modAon f).ctxs = s.ctxs := rfl
@[simp] theorem State.modAon_queues (f : Aon → Aon) : (s.modAon f).queues = s.queues := rfl
@[simp] theorem State.modAon_jobs (f : Aon → Aon) : (s.modAon f).jobs = s.jobs := rfl
@[simp] theorem State.modAon_nextJob (f : Aon → Aon) : (s.modAon f).nextJob = s.nextJob := rfl
@[simp] theorem State.modAon_hgPackets (f : Aon → Aon) : (s.modAon f).hgPackets = s.hgPackets := rfl
@[simp] theorem State.modAon_backlog (f : Aon → Aon) : (s.modAon f).backlog = s.backlog := rfl
@[simp] theorem State.modAon_hgCache (f : Aon → Aon) : (s.modAon f).hgCache = s.hgCache := rfl
@[simp] theorem State.modAon_hgEpoch (f : Aon → Aon) : (s.modAon f).hgEpoch = s.hgEpoch := rfl
@[simp] theorem State.modAon_flight (f : Aon → Aon) : (s.modAon f).flight = s.flight := rfl
@[simp] theorem State.modAon_levee (f : Aon → Aon) : (s.modAon f).levee = s.levee := rfl
@[simp] theorem State.modAon_procs (f : Aon → Aon) : (s.modAon f).procs = s.procs := rfl
@[simp] theorem State.modAon_log (f : Aon → Aon) : (s.modAon f).log = s.log := rfl
@[simp] theorem State.modAon_logWait (f : Aon → Aon) : (s.modAon f).logWait = s.logWait := rfl
@[simp] theorem State.modAon_weir (f : Aon → Aon) : (s.modAon f).weir = s.weir := rfl
@[simp] theorem State.modAon_aon (f : Aon → Aon) : (s.modAon f).aon = f s.aon := rfl
@[simp] theorem State.modAon_pcie (f : Aon → Aon) : (s.modAon f).pcie = s.pcie := rfl
@[simp] theorem State.modAon_resets (f : Aon → Aon) : (s.modAon f).resets = s.resets := rfl
@[simp] theorem State.modAon_out (f : Aon → Aon) : (s.modAon f).out = s.out := rfl

/-! ## modRsv writes rsv -/

@[simp] theorem State.modRsv_pending (f : Rsv → Rsv) : (s.modRsv f).pending = s.pending := rfl
@[simp] theorem State.modRsv_now (f : Rsv → Rsv) : (s.modRsv f).now = s.now := rfl
@[simp] theorem State.modRsv_fv (f : Rsv → Rsv) : (s.modRsv f).fv = s.fv := rfl
@[simp] theorem State.modRsv_part (f : Rsv → Rsv) : (s.modRsv f).part = s.part := rfl
@[simp] theorem State.modRsv_mem (f : Rsv → Rsv) : (s.modRsv f).mem = s.mem := rfl
@[simp] theorem State.modRsv_rsv (f : Rsv → Rsv) : (s.modRsv f).rsv = f s.rsv := rfl
@[simp] theorem State.modRsv_sc (f : Rsv → Rsv) : (s.modRsv f).sc = s.sc := rfl
@[simp] theorem State.modRsv_dram (f : Rsv → Rsv) : (s.modRsv f).dram = s.dram := rfl
@[simp] theorem State.modRsv_islands (f : Rsv → Rsv) : (s.modRsv f).islands = s.islands := rfl
@[simp] theorem State.modRsv_clusters (f : Rsv → Rsv) : (s.modRsv f).clusters = s.clusters := rfl
@[simp] theorem State.modRsv_fronts (f : Rsv → Rsv) : (s.modRsv f).fronts = s.fronts := rfl
@[simp] theorem State.modRsv_arrays (f : Rsv → Rsv) : (s.modRsv f).arrays = s.arrays := rfl
@[simp] theorem State.modRsv_copies (f : Rsv → Rsv) : (s.modRsv f).copies = s.copies := rfl
@[simp] theorem State.modRsv_nsRestarts (f : Rsv → Rsv) : (s.modRsv f).nsRestarts = s.nsRestarts := rfl
@[simp] theorem State.modRsv_nsMissed (f : Rsv → Rsv) : (s.modRsv f).nsMissed = s.nsMissed := rfl
@[simp] theorem State.modRsv_sluice (f : Rsv → Rsv) : (s.modRsv f).sluice = s.sluice := rfl
@[simp] theorem State.modRsv_pipes (f : Rsv → Rsv) : (s.modRsv f).pipes = s.pipes := rfl
@[simp] theorem State.modRsv_camera (f : Rsv → Rsv) : (s.modRsv f).camera = s.camera := rfl
@[simp] theorem State.modRsv_funs (f : Rsv → Rsv) : (s.modRsv f).funs = s.funs := rfl
@[simp] theorem State.modRsv_ctxs (f : Rsv → Rsv) : (s.modRsv f).ctxs = s.ctxs := rfl
@[simp] theorem State.modRsv_queues (f : Rsv → Rsv) : (s.modRsv f).queues = s.queues := rfl
@[simp] theorem State.modRsv_jobs (f : Rsv → Rsv) : (s.modRsv f).jobs = s.jobs := rfl
@[simp] theorem State.modRsv_nextJob (f : Rsv → Rsv) : (s.modRsv f).nextJob = s.nextJob := rfl
@[simp] theorem State.modRsv_hgPackets (f : Rsv → Rsv) : (s.modRsv f).hgPackets = s.hgPackets := rfl
@[simp] theorem State.modRsv_backlog (f : Rsv → Rsv) : (s.modRsv f).backlog = s.backlog := rfl
@[simp] theorem State.modRsv_hgCache (f : Rsv → Rsv) : (s.modRsv f).hgCache = s.hgCache := rfl
@[simp] theorem State.modRsv_hgEpoch (f : Rsv → Rsv) : (s.modRsv f).hgEpoch = s.hgEpoch := rfl
@[simp] theorem State.modRsv_flight (f : Rsv → Rsv) : (s.modRsv f).flight = s.flight := rfl
@[simp] theorem State.modRsv_levee (f : Rsv → Rsv) : (s.modRsv f).levee = s.levee := rfl
@[simp] theorem State.modRsv_procs (f : Rsv → Rsv) : (s.modRsv f).procs = s.procs := rfl
@[simp] theorem State.modRsv_log (f : Rsv → Rsv) : (s.modRsv f).log = s.log := rfl
@[simp] theorem State.modRsv_logWait (f : Rsv → Rsv) : (s.modRsv f).logWait = s.logWait := rfl
@[simp] theorem State.modRsv_weir (f : Rsv → Rsv) : (s.modRsv f).weir = s.weir := rfl
@[simp] theorem State.modRsv_aon (f : Rsv → Rsv) : (s.modRsv f).aon = s.aon := rfl
@[simp] theorem State.modRsv_pcie (f : Rsv → Rsv) : (s.modRsv f).pcie = s.pcie := rfl
@[simp] theorem State.modRsv_resets (f : Rsv → Rsv) : (s.modRsv f).resets = s.resets := rfl
@[simp] theorem State.modRsv_out (f : Rsv → Rsv) : (s.modRsv f).out = s.out := rfl

/-! ## modSc writes sc -/

@[simp] theorem State.modSc_pending (f : Sc → Sc) : (s.modSc f).pending = s.pending := rfl
@[simp] theorem State.modSc_now (f : Sc → Sc) : (s.modSc f).now = s.now := rfl
@[simp] theorem State.modSc_fv (f : Sc → Sc) : (s.modSc f).fv = s.fv := rfl
@[simp] theorem State.modSc_part (f : Sc → Sc) : (s.modSc f).part = s.part := rfl
@[simp] theorem State.modSc_mem (f : Sc → Sc) : (s.modSc f).mem = s.mem := rfl
@[simp] theorem State.modSc_rsv (f : Sc → Sc) : (s.modSc f).rsv = s.rsv := rfl
@[simp] theorem State.modSc_sc (f : Sc → Sc) : (s.modSc f).sc = f s.sc := rfl
@[simp] theorem State.modSc_dram (f : Sc → Sc) : (s.modSc f).dram = s.dram := rfl
@[simp] theorem State.modSc_islands (f : Sc → Sc) : (s.modSc f).islands = s.islands := rfl
@[simp] theorem State.modSc_clusters (f : Sc → Sc) : (s.modSc f).clusters = s.clusters := rfl
@[simp] theorem State.modSc_fronts (f : Sc → Sc) : (s.modSc f).fronts = s.fronts := rfl
@[simp] theorem State.modSc_arrays (f : Sc → Sc) : (s.modSc f).arrays = s.arrays := rfl
@[simp] theorem State.modSc_copies (f : Sc → Sc) : (s.modSc f).copies = s.copies := rfl
@[simp] theorem State.modSc_nsRestarts (f : Sc → Sc) : (s.modSc f).nsRestarts = s.nsRestarts := rfl
@[simp] theorem State.modSc_nsMissed (f : Sc → Sc) : (s.modSc f).nsMissed = s.nsMissed := rfl
@[simp] theorem State.modSc_sluice (f : Sc → Sc) : (s.modSc f).sluice = s.sluice := rfl
@[simp] theorem State.modSc_pipes (f : Sc → Sc) : (s.modSc f).pipes = s.pipes := rfl
@[simp] theorem State.modSc_camera (f : Sc → Sc) : (s.modSc f).camera = s.camera := rfl
@[simp] theorem State.modSc_funs (f : Sc → Sc) : (s.modSc f).funs = s.funs := rfl
@[simp] theorem State.modSc_ctxs (f : Sc → Sc) : (s.modSc f).ctxs = s.ctxs := rfl
@[simp] theorem State.modSc_queues (f : Sc → Sc) : (s.modSc f).queues = s.queues := rfl
@[simp] theorem State.modSc_jobs (f : Sc → Sc) : (s.modSc f).jobs = s.jobs := rfl
@[simp] theorem State.modSc_nextJob (f : Sc → Sc) : (s.modSc f).nextJob = s.nextJob := rfl
@[simp] theorem State.modSc_hgPackets (f : Sc → Sc) : (s.modSc f).hgPackets = s.hgPackets := rfl
@[simp] theorem State.modSc_backlog (f : Sc → Sc) : (s.modSc f).backlog = s.backlog := rfl
@[simp] theorem State.modSc_hgCache (f : Sc → Sc) : (s.modSc f).hgCache = s.hgCache := rfl
@[simp] theorem State.modSc_hgEpoch (f : Sc → Sc) : (s.modSc f).hgEpoch = s.hgEpoch := rfl
@[simp] theorem State.modSc_flight (f : Sc → Sc) : (s.modSc f).flight = s.flight := rfl
@[simp] theorem State.modSc_levee (f : Sc → Sc) : (s.modSc f).levee = s.levee := rfl
@[simp] theorem State.modSc_procs (f : Sc → Sc) : (s.modSc f).procs = s.procs := rfl
@[simp] theorem State.modSc_log (f : Sc → Sc) : (s.modSc f).log = s.log := rfl
@[simp] theorem State.modSc_logWait (f : Sc → Sc) : (s.modSc f).logWait = s.logWait := rfl
@[simp] theorem State.modSc_weir (f : Sc → Sc) : (s.modSc f).weir = s.weir := rfl
@[simp] theorem State.modSc_aon (f : Sc → Sc) : (s.modSc f).aon = s.aon := rfl
@[simp] theorem State.modSc_pcie (f : Sc → Sc) : (s.modSc f).pcie = s.pcie := rfl
@[simp] theorem State.modSc_resets (f : Sc → Sc) : (s.modSc f).resets = s.resets := rfl
@[simp] theorem State.modSc_out (f : Sc → Sc) : (s.modSc f).out = s.out := rfl

/-! ## modSluice writes sluice -/

@[simp] theorem State.modSluice_pending (f : Sluice → Sluice) : (s.modSluice f).pending = s.pending := rfl
@[simp] theorem State.modSluice_now (f : Sluice → Sluice) : (s.modSluice f).now = s.now := rfl
@[simp] theorem State.modSluice_fv (f : Sluice → Sluice) : (s.modSluice f).fv = s.fv := rfl
@[simp] theorem State.modSluice_part (f : Sluice → Sluice) : (s.modSluice f).part = s.part := rfl
@[simp] theorem State.modSluice_mem (f : Sluice → Sluice) : (s.modSluice f).mem = s.mem := rfl
@[simp] theorem State.modSluice_rsv (f : Sluice → Sluice) : (s.modSluice f).rsv = s.rsv := rfl
@[simp] theorem State.modSluice_sc (f : Sluice → Sluice) : (s.modSluice f).sc = s.sc := rfl
@[simp] theorem State.modSluice_dram (f : Sluice → Sluice) : (s.modSluice f).dram = s.dram := rfl
@[simp] theorem State.modSluice_islands (f : Sluice → Sluice) : (s.modSluice f).islands = s.islands := rfl
@[simp] theorem State.modSluice_clusters (f : Sluice → Sluice) : (s.modSluice f).clusters = s.clusters := rfl
@[simp] theorem State.modSluice_fronts (f : Sluice → Sluice) : (s.modSluice f).fronts = s.fronts := rfl
@[simp] theorem State.modSluice_arrays (f : Sluice → Sluice) : (s.modSluice f).arrays = s.arrays := rfl
@[simp] theorem State.modSluice_copies (f : Sluice → Sluice) : (s.modSluice f).copies = s.copies := rfl
@[simp] theorem State.modSluice_nsRestarts (f : Sluice → Sluice) : (s.modSluice f).nsRestarts = s.nsRestarts := rfl
@[simp] theorem State.modSluice_nsMissed (f : Sluice → Sluice) : (s.modSluice f).nsMissed = s.nsMissed := rfl
@[simp] theorem State.modSluice_sluice (f : Sluice → Sluice) : (s.modSluice f).sluice = f s.sluice := rfl
@[simp] theorem State.modSluice_pipes (f : Sluice → Sluice) : (s.modSluice f).pipes = s.pipes := rfl
@[simp] theorem State.modSluice_camera (f : Sluice → Sluice) : (s.modSluice f).camera = s.camera := rfl
@[simp] theorem State.modSluice_funs (f : Sluice → Sluice) : (s.modSluice f).funs = s.funs := rfl
@[simp] theorem State.modSluice_ctxs (f : Sluice → Sluice) : (s.modSluice f).ctxs = s.ctxs := rfl
@[simp] theorem State.modSluice_queues (f : Sluice → Sluice) : (s.modSluice f).queues = s.queues := rfl
@[simp] theorem State.modSluice_jobs (f : Sluice → Sluice) : (s.modSluice f).jobs = s.jobs := rfl
@[simp] theorem State.modSluice_nextJob (f : Sluice → Sluice) : (s.modSluice f).nextJob = s.nextJob := rfl
@[simp] theorem State.modSluice_hgPackets (f : Sluice → Sluice) : (s.modSluice f).hgPackets = s.hgPackets := rfl
@[simp] theorem State.modSluice_backlog (f : Sluice → Sluice) : (s.modSluice f).backlog = s.backlog := rfl
@[simp] theorem State.modSluice_hgCache (f : Sluice → Sluice) : (s.modSluice f).hgCache = s.hgCache := rfl
@[simp] theorem State.modSluice_hgEpoch (f : Sluice → Sluice) : (s.modSluice f).hgEpoch = s.hgEpoch := rfl
@[simp] theorem State.modSluice_flight (f : Sluice → Sluice) : (s.modSluice f).flight = s.flight := rfl
@[simp] theorem State.modSluice_levee (f : Sluice → Sluice) : (s.modSluice f).levee = s.levee := rfl
@[simp] theorem State.modSluice_procs (f : Sluice → Sluice) : (s.modSluice f).procs = s.procs := rfl
@[simp] theorem State.modSluice_log (f : Sluice → Sluice) : (s.modSluice f).log = s.log := rfl
@[simp] theorem State.modSluice_logWait (f : Sluice → Sluice) : (s.modSluice f).logWait = s.logWait := rfl
@[simp] theorem State.modSluice_weir (f : Sluice → Sluice) : (s.modSluice f).weir = s.weir := rfl
@[simp] theorem State.modSluice_aon (f : Sluice → Sluice) : (s.modSluice f).aon = s.aon := rfl
@[simp] theorem State.modSluice_pcie (f : Sluice → Sluice) : (s.modSluice f).pcie = s.pcie := rfl
@[simp] theorem State.modSluice_resets (f : Sluice → Sluice) : (s.modSluice f).resets = s.resets := rfl
@[simp] theorem State.modSluice_out (f : Sluice → Sluice) : (s.modSluice f).out = s.out := rfl

/-! ## modLevee writes levee -/

@[simp] theorem State.modLevee_pending (f : Levee → Levee) : (s.modLevee f).pending = s.pending := rfl
@[simp] theorem State.modLevee_now (f : Levee → Levee) : (s.modLevee f).now = s.now := rfl
@[simp] theorem State.modLevee_fv (f : Levee → Levee) : (s.modLevee f).fv = s.fv := rfl
@[simp] theorem State.modLevee_part (f : Levee → Levee) : (s.modLevee f).part = s.part := rfl
@[simp] theorem State.modLevee_mem (f : Levee → Levee) : (s.modLevee f).mem = s.mem := rfl
@[simp] theorem State.modLevee_rsv (f : Levee → Levee) : (s.modLevee f).rsv = s.rsv := rfl
@[simp] theorem State.modLevee_sc (f : Levee → Levee) : (s.modLevee f).sc = s.sc := rfl
@[simp] theorem State.modLevee_dram (f : Levee → Levee) : (s.modLevee f).dram = s.dram := rfl
@[simp] theorem State.modLevee_islands (f : Levee → Levee) : (s.modLevee f).islands = s.islands := rfl
@[simp] theorem State.modLevee_clusters (f : Levee → Levee) : (s.modLevee f).clusters = s.clusters := rfl
@[simp] theorem State.modLevee_fronts (f : Levee → Levee) : (s.modLevee f).fronts = s.fronts := rfl
@[simp] theorem State.modLevee_arrays (f : Levee → Levee) : (s.modLevee f).arrays = s.arrays := rfl
@[simp] theorem State.modLevee_copies (f : Levee → Levee) : (s.modLevee f).copies = s.copies := rfl
@[simp] theorem State.modLevee_nsRestarts (f : Levee → Levee) : (s.modLevee f).nsRestarts = s.nsRestarts := rfl
@[simp] theorem State.modLevee_nsMissed (f : Levee → Levee) : (s.modLevee f).nsMissed = s.nsMissed := rfl
@[simp] theorem State.modLevee_sluice (f : Levee → Levee) : (s.modLevee f).sluice = s.sluice := rfl
@[simp] theorem State.modLevee_pipes (f : Levee → Levee) : (s.modLevee f).pipes = s.pipes := rfl
@[simp] theorem State.modLevee_camera (f : Levee → Levee) : (s.modLevee f).camera = s.camera := rfl
@[simp] theorem State.modLevee_funs (f : Levee → Levee) : (s.modLevee f).funs = s.funs := rfl
@[simp] theorem State.modLevee_ctxs (f : Levee → Levee) : (s.modLevee f).ctxs = s.ctxs := rfl
@[simp] theorem State.modLevee_queues (f : Levee → Levee) : (s.modLevee f).queues = s.queues := rfl
@[simp] theorem State.modLevee_jobs (f : Levee → Levee) : (s.modLevee f).jobs = s.jobs := rfl
@[simp] theorem State.modLevee_nextJob (f : Levee → Levee) : (s.modLevee f).nextJob = s.nextJob := rfl
@[simp] theorem State.modLevee_hgPackets (f : Levee → Levee) : (s.modLevee f).hgPackets = s.hgPackets := rfl
@[simp] theorem State.modLevee_backlog (f : Levee → Levee) : (s.modLevee f).backlog = s.backlog := rfl
@[simp] theorem State.modLevee_hgCache (f : Levee → Levee) : (s.modLevee f).hgCache = s.hgCache := rfl
@[simp] theorem State.modLevee_hgEpoch (f : Levee → Levee) : (s.modLevee f).hgEpoch = s.hgEpoch := rfl
@[simp] theorem State.modLevee_flight (f : Levee → Levee) : (s.modLevee f).flight = s.flight := rfl
@[simp] theorem State.modLevee_levee (f : Levee → Levee) : (s.modLevee f).levee = f s.levee := rfl
@[simp] theorem State.modLevee_procs (f : Levee → Levee) : (s.modLevee f).procs = s.procs := rfl
@[simp] theorem State.modLevee_log (f : Levee → Levee) : (s.modLevee f).log = s.log := rfl
@[simp] theorem State.modLevee_logWait (f : Levee → Levee) : (s.modLevee f).logWait = s.logWait := rfl
@[simp] theorem State.modLevee_weir (f : Levee → Levee) : (s.modLevee f).weir = s.weir := rfl
@[simp] theorem State.modLevee_aon (f : Levee → Levee) : (s.modLevee f).aon = s.aon := rfl
@[simp] theorem State.modLevee_pcie (f : Levee → Levee) : (s.modLevee f).pcie = s.pcie := rfl
@[simp] theorem State.modLevee_resets (f : Levee → Levee) : (s.modLevee f).resets = s.resets := rfl
@[simp] theorem State.modLevee_out (f : Levee → Levee) : (s.modLevee f).out = s.out := rfl

/-! ## modPcie writes pcie -/

@[simp] theorem State.modPcie_pending (f : Pcie → Pcie) : (s.modPcie f).pending = s.pending := rfl
@[simp] theorem State.modPcie_now (f : Pcie → Pcie) : (s.modPcie f).now = s.now := rfl
@[simp] theorem State.modPcie_fv (f : Pcie → Pcie) : (s.modPcie f).fv = s.fv := rfl
@[simp] theorem State.modPcie_part (f : Pcie → Pcie) : (s.modPcie f).part = s.part := rfl
@[simp] theorem State.modPcie_mem (f : Pcie → Pcie) : (s.modPcie f).mem = s.mem := rfl
@[simp] theorem State.modPcie_rsv (f : Pcie → Pcie) : (s.modPcie f).rsv = s.rsv := rfl
@[simp] theorem State.modPcie_sc (f : Pcie → Pcie) : (s.modPcie f).sc = s.sc := rfl
@[simp] theorem State.modPcie_dram (f : Pcie → Pcie) : (s.modPcie f).dram = s.dram := rfl
@[simp] theorem State.modPcie_islands (f : Pcie → Pcie) : (s.modPcie f).islands = s.islands := rfl
@[simp] theorem State.modPcie_clusters (f : Pcie → Pcie) : (s.modPcie f).clusters = s.clusters := rfl
@[simp] theorem State.modPcie_fronts (f : Pcie → Pcie) : (s.modPcie f).fronts = s.fronts := rfl
@[simp] theorem State.modPcie_arrays (f : Pcie → Pcie) : (s.modPcie f).arrays = s.arrays := rfl
@[simp] theorem State.modPcie_copies (f : Pcie → Pcie) : (s.modPcie f).copies = s.copies := rfl
@[simp] theorem State.modPcie_nsRestarts (f : Pcie → Pcie) : (s.modPcie f).nsRestarts = s.nsRestarts := rfl
@[simp] theorem State.modPcie_nsMissed (f : Pcie → Pcie) : (s.modPcie f).nsMissed = s.nsMissed := rfl
@[simp] theorem State.modPcie_sluice (f : Pcie → Pcie) : (s.modPcie f).sluice = s.sluice := rfl
@[simp] theorem State.modPcie_pipes (f : Pcie → Pcie) : (s.modPcie f).pipes = s.pipes := rfl
@[simp] theorem State.modPcie_camera (f : Pcie → Pcie) : (s.modPcie f).camera = s.camera := rfl
@[simp] theorem State.modPcie_funs (f : Pcie → Pcie) : (s.modPcie f).funs = s.funs := rfl
@[simp] theorem State.modPcie_ctxs (f : Pcie → Pcie) : (s.modPcie f).ctxs = s.ctxs := rfl
@[simp] theorem State.modPcie_queues (f : Pcie → Pcie) : (s.modPcie f).queues = s.queues := rfl
@[simp] theorem State.modPcie_jobs (f : Pcie → Pcie) : (s.modPcie f).jobs = s.jobs := rfl
@[simp] theorem State.modPcie_nextJob (f : Pcie → Pcie) : (s.modPcie f).nextJob = s.nextJob := rfl
@[simp] theorem State.modPcie_hgPackets (f : Pcie → Pcie) : (s.modPcie f).hgPackets = s.hgPackets := rfl
@[simp] theorem State.modPcie_backlog (f : Pcie → Pcie) : (s.modPcie f).backlog = s.backlog := rfl
@[simp] theorem State.modPcie_hgCache (f : Pcie → Pcie) : (s.modPcie f).hgCache = s.hgCache := rfl
@[simp] theorem State.modPcie_hgEpoch (f : Pcie → Pcie) : (s.modPcie f).hgEpoch = s.hgEpoch := rfl
@[simp] theorem State.modPcie_flight (f : Pcie → Pcie) : (s.modPcie f).flight = s.flight := rfl
@[simp] theorem State.modPcie_levee (f : Pcie → Pcie) : (s.modPcie f).levee = s.levee := rfl
@[simp] theorem State.modPcie_procs (f : Pcie → Pcie) : (s.modPcie f).procs = s.procs := rfl
@[simp] theorem State.modPcie_log (f : Pcie → Pcie) : (s.modPcie f).log = s.log := rfl
@[simp] theorem State.modPcie_logWait (f : Pcie → Pcie) : (s.modPcie f).logWait = s.logWait := rfl
@[simp] theorem State.modPcie_weir (f : Pcie → Pcie) : (s.modPcie f).weir = s.weir := rfl
@[simp] theorem State.modPcie_aon (f : Pcie → Pcie) : (s.modPcie f).aon = s.aon := rfl
@[simp] theorem State.modPcie_pcie (f : Pcie → Pcie) : (s.modPcie f).pcie = f s.pcie := rfl
@[simp] theorem State.modPcie_resets (f : Pcie → Pcie) : (s.modPcie f).resets = s.resets := rfl
@[simp] theorem State.modPcie_out (f : Pcie → Pcie) : (s.modPcie f).out = s.out := rfl

/-! ## modMem writes mem -/

@[simp] theorem State.modMem_pending (f : Mem → Mem) : (s.modMem f).pending = s.pending := rfl
@[simp] theorem State.modMem_now (f : Mem → Mem) : (s.modMem f).now = s.now := rfl
@[simp] theorem State.modMem_fv (f : Mem → Mem) : (s.modMem f).fv = s.fv := rfl
@[simp] theorem State.modMem_part (f : Mem → Mem) : (s.modMem f).part = s.part := rfl
@[simp] theorem State.modMem_mem (f : Mem → Mem) : (s.modMem f).mem = f s.mem := rfl
@[simp] theorem State.modMem_rsv (f : Mem → Mem) : (s.modMem f).rsv = s.rsv := rfl
@[simp] theorem State.modMem_sc (f : Mem → Mem) : (s.modMem f).sc = s.sc := rfl
@[simp] theorem State.modMem_dram (f : Mem → Mem) : (s.modMem f).dram = s.dram := rfl
@[simp] theorem State.modMem_islands (f : Mem → Mem) : (s.modMem f).islands = s.islands := rfl
@[simp] theorem State.modMem_clusters (f : Mem → Mem) : (s.modMem f).clusters = s.clusters := rfl
@[simp] theorem State.modMem_fronts (f : Mem → Mem) : (s.modMem f).fronts = s.fronts := rfl
@[simp] theorem State.modMem_arrays (f : Mem → Mem) : (s.modMem f).arrays = s.arrays := rfl
@[simp] theorem State.modMem_copies (f : Mem → Mem) : (s.modMem f).copies = s.copies := rfl
@[simp] theorem State.modMem_nsRestarts (f : Mem → Mem) : (s.modMem f).nsRestarts = s.nsRestarts := rfl
@[simp] theorem State.modMem_nsMissed (f : Mem → Mem) : (s.modMem f).nsMissed = s.nsMissed := rfl
@[simp] theorem State.modMem_sluice (f : Mem → Mem) : (s.modMem f).sluice = s.sluice := rfl
@[simp] theorem State.modMem_pipes (f : Mem → Mem) : (s.modMem f).pipes = s.pipes := rfl
@[simp] theorem State.modMem_camera (f : Mem → Mem) : (s.modMem f).camera = s.camera := rfl
@[simp] theorem State.modMem_funs (f : Mem → Mem) : (s.modMem f).funs = s.funs := rfl
@[simp] theorem State.modMem_ctxs (f : Mem → Mem) : (s.modMem f).ctxs = s.ctxs := rfl
@[simp] theorem State.modMem_queues (f : Mem → Mem) : (s.modMem f).queues = s.queues := rfl
@[simp] theorem State.modMem_jobs (f : Mem → Mem) : (s.modMem f).jobs = s.jobs := rfl
@[simp] theorem State.modMem_nextJob (f : Mem → Mem) : (s.modMem f).nextJob = s.nextJob := rfl
@[simp] theorem State.modMem_hgPackets (f : Mem → Mem) : (s.modMem f).hgPackets = s.hgPackets := rfl
@[simp] theorem State.modMem_backlog (f : Mem → Mem) : (s.modMem f).backlog = s.backlog := rfl
@[simp] theorem State.modMem_hgCache (f : Mem → Mem) : (s.modMem f).hgCache = s.hgCache := rfl
@[simp] theorem State.modMem_hgEpoch (f : Mem → Mem) : (s.modMem f).hgEpoch = s.hgEpoch := rfl
@[simp] theorem State.modMem_flight (f : Mem → Mem) : (s.modMem f).flight = s.flight := rfl
@[simp] theorem State.modMem_levee (f : Mem → Mem) : (s.modMem f).levee = s.levee := rfl
@[simp] theorem State.modMem_procs (f : Mem → Mem) : (s.modMem f).procs = s.procs := rfl
@[simp] theorem State.modMem_log (f : Mem → Mem) : (s.modMem f).log = s.log := rfl
@[simp] theorem State.modMem_logWait (f : Mem → Mem) : (s.modMem f).logWait = s.logWait := rfl
@[simp] theorem State.modMem_weir (f : Mem → Mem) : (s.modMem f).weir = s.weir := rfl
@[simp] theorem State.modMem_aon (f : Mem → Mem) : (s.modMem f).aon = s.aon := rfl
@[simp] theorem State.modMem_pcie (f : Mem → Mem) : (s.modMem f).pcie = s.pcie := rfl
@[simp] theorem State.modMem_resets (f : Mem → Mem) : (s.modMem f).resets = s.resets := rfl
@[simp] theorem State.modMem_out (f : Mem → Mem) : (s.modMem f).out = s.out := rfl

/-! ## say writes out -/

@[simp] theorem State.say_pending (m : Msg) : (s.say m).pending = s.pending := rfl
@[simp] theorem State.say_now (m : Msg) : (s.say m).now = s.now := rfl
@[simp] theorem State.say_fv (m : Msg) : (s.say m).fv = s.fv := rfl
@[simp] theorem State.say_part (m : Msg) : (s.say m).part = s.part := rfl
@[simp] theorem State.say_mem (m : Msg) : (s.say m).mem = s.mem := rfl
@[simp] theorem State.say_rsv (m : Msg) : (s.say m).rsv = s.rsv := rfl
@[simp] theorem State.say_sc (m : Msg) : (s.say m).sc = s.sc := rfl
@[simp] theorem State.say_dram (m : Msg) : (s.say m).dram = s.dram := rfl
@[simp] theorem State.say_islands (m : Msg) : (s.say m).islands = s.islands := rfl
@[simp] theorem State.say_clusters (m : Msg) : (s.say m).clusters = s.clusters := rfl
@[simp] theorem State.say_fronts (m : Msg) : (s.say m).fronts = s.fronts := rfl
@[simp] theorem State.say_arrays (m : Msg) : (s.say m).arrays = s.arrays := rfl
@[simp] theorem State.say_copies (m : Msg) : (s.say m).copies = s.copies := rfl
@[simp] theorem State.say_nsRestarts (m : Msg) : (s.say m).nsRestarts = s.nsRestarts := rfl
@[simp] theorem State.say_nsMissed (m : Msg) : (s.say m).nsMissed = s.nsMissed := rfl
@[simp] theorem State.say_sluice (m : Msg) : (s.say m).sluice = s.sluice := rfl
@[simp] theorem State.say_pipes (m : Msg) : (s.say m).pipes = s.pipes := rfl
@[simp] theorem State.say_camera (m : Msg) : (s.say m).camera = s.camera := rfl
@[simp] theorem State.say_funs (m : Msg) : (s.say m).funs = s.funs := rfl
@[simp] theorem State.say_ctxs (m : Msg) : (s.say m).ctxs = s.ctxs := rfl
@[simp] theorem State.say_queues (m : Msg) : (s.say m).queues = s.queues := rfl
@[simp] theorem State.say_jobs (m : Msg) : (s.say m).jobs = s.jobs := rfl
@[simp] theorem State.say_nextJob (m : Msg) : (s.say m).nextJob = s.nextJob := rfl
@[simp] theorem State.say_hgPackets (m : Msg) : (s.say m).hgPackets = s.hgPackets := rfl
@[simp] theorem State.say_backlog (m : Msg) : (s.say m).backlog = s.backlog := rfl
@[simp] theorem State.say_hgCache (m : Msg) : (s.say m).hgCache = s.hgCache := rfl
@[simp] theorem State.say_hgEpoch (m : Msg) : (s.say m).hgEpoch = s.hgEpoch := rfl
@[simp] theorem State.say_flight (m : Msg) : (s.say m).flight = s.flight := rfl
@[simp] theorem State.say_levee (m : Msg) : (s.say m).levee = s.levee := rfl
@[simp] theorem State.say_procs (m : Msg) : (s.say m).procs = s.procs := rfl
@[simp] theorem State.say_log (m : Msg) : (s.say m).log = s.log := rfl
@[simp] theorem State.say_logWait (m : Msg) : (s.say m).logWait = s.logWait := rfl
@[simp] theorem State.say_weir (m : Msg) : (s.say m).weir = s.weir := rfl
@[simp] theorem State.say_aon (m : Msg) : (s.say m).aon = s.aon := rfl
@[simp] theorem State.say_pcie (m : Msg) : (s.say m).pcie = s.pcie := rfl
@[simp] theorem State.say_resets (m : Msg) : (s.say m).resets = s.resets := rfl
@[simp] theorem State.say_out (m : Msg) : (s.say m).out = m :: s.out := rfl

end Sys2Proof.Machine
end

