-- ==== Sys2Proof/Laws/Heith.lean ====
section
/-! SUPPORT. The laws of issue: what the shared operations of the Heith instructions answer for an instruction that issues. -/

namespace Sys2Proof.Machine

variable {sh : Shape} {c g : Nat} {w : HWord} {s s1 : State} {cl : Cluster} {run : KernelRun} {gr : Group}

/-- An instruction that issues does what its body answers; a fault with no active lane is passed over. -/
theorem issue_eq (h : Issues sh c g w s cl run gr s1) (body : Issuer → Group → State → GStep) :
    s.issue sh body c g w =
      match body { c := c, run := run, wide := wordLen w } gr s1 with
      | .go g' s2 => s2.retired c g'
      | .done s2 => s2.modCluster c fun cl => { cl with core := { cl.core with work := cl.core.work + 1 } }
      | .stall s2 => s2
      | .fault f s2 => if gr.active w = 0 then s2.retired c (gr.advance w) else s2.groupFault c run gr f := by
  unfold State.issue
  rw [h.cluster]
  simp only [h.group, h.kernel, h.ready, h.fetched, h.lawful, h.exist, h.aligned]
  simp only [Bool.not_true, Bool.false_eq_true, if_false]
  cases hb : body { c := c, run := run, wide := wordLen w } gr s1 <;> rfl

/-- An instruction of lanes. -/
theorem alu_eq (h : Issues sh c g w s cl run gr s1) (f : Srcs → Nat) :
    s.alu sh f c g w = s1.retired c ((gr.putResult sh w fun l => f (gr.srcs sh w l)).advance w) := by
  unfold State.alu; rw [issue_eq h]

/-- An instruction of lanes with free values: each lane has its own index. -/
theorem aluFree_eq (h : Issues sh c g w s cl run gr s1) (f : Nat → Srcs → Nat) :
    s.aluFree sh f c g w =
      ({ s1 with fv := s1.fv + 1 } : State).retired c
        ((gr.putResult sh w fun l => f (64 * s1.fv + 2 * l) (gr.srcs sh w l)).advance w) := by
  unfold State.aluFree; rw [issue_eq h]; rfl

/-- A compare. -/
theorem compare_eq (h : Issues sh c g w s cl run gr s1) (test : Srcs → Bool) :
    s.compare sh test c g w =
      s1.retired c ((gr.putPred w.dst.toNat (gr.active w)
        (gr.compared w w.dst.toNat (maskBy fun l => test (gr.srcs sh w l)))).advance w) := by
  unfold State.compare; rw [issue_eq h]

/-! ## Results cut to the destination -/

theorem putVec_congr (g : Group) (r : Nat) (m : Word) {f f' : Nat → Nat} (h : ∀ l, f l % 2 ^ 32 = f' l % 2 ^ 32) :
    g.putVec r m f = g.putVec r m f' := by
  have e : ∀ l, BitVec.ofNat 32 (f l) = BitVec.ofNat 32 (f' l) := fun l => by
    apply BitVec.eq_of_toNat_eq; simpa using h l
  unfold Group.putVec
  simp only [e]

theorem putVecs_congr (m : Word) (n : Nat) : ∀ (g : Group) (r : Nat) {f f' : Nat → Nat},
    (∀ l, f l % 2 ^ (32 * n) = f' l % 2 ^ (32 * n)) → g.putVecs m f r n = g.putVecs m f' r n := by
  induction n with
  | zero => intros; rfl
  | succ n ih =>
    intro g r f f' h
    have h1 : ∀ l, f l % 2 ^ 32 = f' l % 2 ^ 32 := fun l => by
      have := congrArg (· % 2 ^ 32) (h l)
      have d : (2 : Nat) ^ 32 ∣ 2 ^ (32 * (n + 1)) := Nat.pow_dvd_pow 2 (by omega)
      simpa only [Nat.mod_mod_of_dvd _ d] using this
    have h2 : ∀ l, f l >>> 32 % 2 ^ (32 * n) = f' l >>> 32 % 2 ^ (32 * n) := fun l => by
      have e : ∀ x : Nat, x >>> 32 % 2 ^ (32 * n) = x % 2 ^ (32 * (n + 1)) / 2 ^ 32 := fun x => by
        rw [Nat.shiftRight_eq_div_pow, show 32 * (n + 1) = 32 + 32 * n by omega, Nat.pow_add, Nat.mod_mul_right_div_self]
      rw [e, e, h l]
    simp only [Group.putVecs]
    rw [putVec_congr g r m h1]
    exact ih _ _ h2

theorem putScas_congr (n : Nat) : ∀ (g : Group) (r : Nat) {v v' : Nat}, v % 2 ^ (32 * n) = v' % 2 ^ (32 * n) →
    g.putScas v r n = g.putScas v' r n := by
  induction n with
  | zero => intros; rfl
  | succ n ih =>
    intro g r v v' h
    have h1 : v % 2 ^ 32 = v' % 2 ^ 32 := by
      have := congrArg (· % 2 ^ 32) h
      have d : (2 : Nat) ^ 32 ∣ 2 ^ (32 * (n + 1)) := Nat.pow_dvd_pow 2 (by omega)
      simpa only [Nat.mod_mod_of_dvd _ d] using this
    have h2 : v >>> 32 % 2 ^ (32 * n) = v' >>> 32 % 2 ^ (32 * n) := by
      have e : ∀ x : Nat, x >>> 32 % 2 ^ (32 * n) = x % 2 ^ (32 * (n + 1)) / 2 ^ 32 := fun x => by
        rw [Nat.shiftRight_eq_div_pow, show 32 * (n + 1) = 32 + 32 * n by omega, Nat.pow_add, Nat.mod_mul_right_div_self]
      rw [e, e, h]
    have e : g.putSca r v = g.putSca r v' := by
      unfold Group.putSca
      congr 2
      apply BitVec.eq_of_toNat_eq; simpa using h1
    simp only [Group.putScas]
    rw [e]
    exact ih _ _ h2

/-- A result matters only up to the destination's width. -/
theorem putResult_congr (gr : Group) (sh : Shape) (w : HWord) {f f' : Nat → Nat}
    (h : ∀ l, f l % 2 ^ (32 * sh.dregs) = f' l % 2 ^ (32 * sh.dregs)) : gr.putResult sh w f = gr.putResult sh w f' := by
  unfold Group.putResult
  split
  · exact putScas_congr _ _ _ (h 0)
  · exact putVecs_congr _ _ _ _ h

end Sys2Proof.Machine
end

