-- ==== Sys2Proof/Laws/Mem.lean ====
section
/-! SUPPORT. The laws of memory: every operation keeps the canonical form, a read after a write gives what was written,
and a write leaves every other byte alone. -/

namespace Sys2Proof.Machine

/-! ## The canonical form -/

theorem Memory.wfFrom_mono {lo lo' : Nat} {m : List Host.Cell} (h : Memory.wfFrom lo m = true) (hle : lo' ≤ lo) :
    Memory.wfFrom lo' m = true := by
  cases m with
  | nil => rfl
  | cons c cs =>
    simp only [Memory.wfFrom, Bool.and_eq_true, decide_eq_true_eq] at *
    exact ⟨⟨by omega, h.1.2⟩, h.2⟩

theorem Memory.wfFrom_cellsFrom {lo : Nat} {m : List Host.Cell} (a : Nat) (h : Memory.wfFrom lo m = true) :
    Memory.wfFrom a (cellsFrom a m) = true := by
  induction m generalizing lo with
  | nil => rfl
  | cons c cs ih =>
    simp only [cellsFrom]
    simp only [Memory.wfFrom, Bool.and_eq_true, decide_eq_true_eq] at h
    split
    · exact ih h.2
    · simp only [Memory.wfFrom, Bool.and_eq_true, decide_eq_true_eq]
      exact ⟨⟨by omega, h.1.2⟩, h.2⟩

theorem Memory.wfFrom_append {lo a : Nat} {m n : List Host.Cell} (h : Memory.wfFrom lo m = true)
    (below : ∀ c ∈ m, c.1 < a) (hn : Memory.wfFrom a n = true) (hlo : lo ≤ a) : Memory.wfFrom lo (m ++ n) = true := by
  induction m generalizing lo with
  | nil => exact Memory.wfFrom_mono hn hlo
  | cons c cs ih =>
    simp only [Memory.wfFrom, Bool.and_eq_true, decide_eq_true_eq, List.cons_append] at *
    exact ⟨h.1, ih h.2 (fun x hx => below x (List.mem_cons_of_mem _ hx)) (below c List.mem_cons_self)⟩

theorem Memory.wfFrom_cellsBelow {lo : Nat} {m : List Host.Cell} (a : Nat) (h : Memory.wfFrom lo m = true) :
    Memory.wfFrom lo (cellsBelow a m) = true := by
  induction m generalizing lo with
  | nil => rfl
  | cons c cs ih =>
    simp only [cellsBelow]
    simp only [Memory.wfFrom, Bool.and_eq_true, decide_eq_true_eq] at h
    split
    · simp only [Memory.wfFrom, Bool.and_eq_true, decide_eq_true_eq]; exact ⟨h.1, ih h.2⟩
    · rfl

theorem cellsBelow_lt {a : Nat} {m : List Host.Cell} : ∀ c ∈ cellsBelow a m, c.1 < a := by
  induction m with
  | nil => simp [cellsBelow]
  | cons c cs ih =>
    simp only [cellsBelow]
    split
    · intro x hx
      rcases List.mem_cons.mp hx with h | h
      · subst h; assumption
      · exact ih x h
    · simp

theorem Memory.wfFrom_spanCells (bs : List Byte) : ∀ a, Memory.wfFrom a (spanCells a bs) = true := by
  induction bs with
  | nil => intro a; rfl
  | cons b bs ih =>
    intro a
    simp only [spanCells]
    split
    · exact Memory.wfFrom_mono (ih (a + 1)) (by omega)
    · rename_i hb
      simp only [Memory.wfFrom, Bool.and_eq_true, decide_eq_true_eq]
      exact ⟨⟨by omega, by simpa using hb⟩, ih (a + 1)⟩

theorem spanCells_lt (bs : List Byte) : ∀ a, ∀ c ∈ spanCells a bs, c.1 < a + bs.length := by
  induction bs with
  | nil => simp [spanCells]
  | cons b bs ih =>
    intro a c hc
    simp only [spanCells] at hc
    split at hc
    · have := ih (a + 1) c hc; simp only [List.length_cons]; omega
    · rcases List.mem_cons.mp hc with h | h
      · subst h; simp
      · have := ih (a + 1) c h; simp only [List.length_cons]; omega

/-- A span of bytes written keeps the canonical form. -/
theorem Memory.wf_writeBytes {m : Memory} (a : Nat) (bs : List Byte) (h : m.wf = true) :
    Memory.wf (writeBytes a bs m) = true := by
  unfold Memory.wf at *
  unfold writeBytes
  refine Memory.wfFrom_append (Memory.wfFrom_cellsBelow a h) cellsBelow_lt ?_ (Nat.zero_le _)
  exact Memory.wfFrom_append (Memory.wfFrom_spanCells bs a) (spanCells_lt bs a) (Memory.wfFrom_cellsFrom _ h) (by omega)

theorem Memory.wfFrom_writeByte {lo : Nat} {m : List Host.Cell} (a : Nat) (b : Byte) (h : Memory.wfFrom lo m = true)
    (hlo : lo ≤ a) : Memory.wfFrom lo (writeByte a b m) = true := by
  induction m generalizing lo with
  | nil =>
    simp only [writeByte]
    split
    · rfl
    · rename_i hb; simp [Memory.wfFrom, hlo, hb]
  | cons c cs ih =>
    have h' := h
    simp only [Memory.wfFrom, Bool.and_eq_true, decide_eq_true_eq] at h
    simp only [writeByte]
    split
    · rename_i hac
      split
      · exact h'
      · rename_i hb
        simp only [Memory.wfFrom, Bool.and_eq_true, decide_eq_true_eq]
        exact ⟨⟨hlo, by simpa using hb⟩, ⟨by omega, h.1.2⟩, h.2⟩
    · split
      · rename_i hac heq
        split
        · exact Memory.wfFrom_mono h.2 (by omega)
        · rename_i hb
          simp only [Memory.wfFrom, Bool.and_eq_true, decide_eq_true_eq]
          exact ⟨⟨by omega, by simpa using hb⟩, by rw [heq]; exact h.2⟩
      · simp only [Memory.wfFrom, Bool.and_eq_true, decide_eq_true_eq]
        exact ⟨h.1, ih h.2 (by omega)⟩

/-- A byte written keeps the canonical form. -/
theorem Memory.wf_writeByte {m : Memory} (a : Nat) (b : Byte) (h : m.wf = true) : Memory.wf (writeByte a b m) = true :=
  Memory.wfFrom_writeByte a b h (Nat.zero_le _)

/-- Bytes written under enables keep the canonical form. -/
theorem Memory.wf_writeMasked (bs : List (Byte × Bool)) : ∀ (a : Nat) {m : Memory}, m.wf = true →
    Memory.wf (writeMasked a bs m) = true := by
  induction bs with
  | nil => intro a m h; exact h
  | cons x bs ih =>
    intro a m h
    simp only [writeMasked]
    split
    · exact ih (a + 1) (Memory.wf_writeByte a _ h)
    · exact ih (a + 1) h

theorem Memory.wfFrom_filter {lo : Nat} {m : List Host.Cell} (p : Host.Cell → Bool) (h : Memory.wfFrom lo m = true) :
    Memory.wfFrom lo (m.filter p) = true := by
  induction m generalizing lo with
  | nil => rfl
  | cons c cs ih =>
    simp only [Memory.wfFrom, Bool.and_eq_true, decide_eq_true_eq] at h
    simp only [List.filter]
    split
    · simp only [Memory.wfFrom, Bool.and_eq_true, decide_eq_true_eq]; exact ⟨h.1, ih h.2⟩
    · exact Memory.wfFrom_mono (ih h.2) (by omega)

/-- A span emptied keeps the canonical form. -/
theorem Memory.wf_clearSpan {m : Memory} (a n : Nat) (h : m.wf = true) : Memory.wf (clearSpan a n m) = true :=
  Memory.wfFrom_filter _ h

/-! ## Reads -/

theorem readByte_eq_empty {lo : Nat} {m : List Host.Cell} (h : Memory.wfFrom lo m = true) {x : Nat} (hx : x < lo) :
    readByte m x = emptyByte := by
  cases m with
  | nil => rfl
  | cons c cs =>
    simp only [Memory.wfFrom, Bool.and_eq_true, decide_eq_true_eq] at h
    simp only [readByte, if_pos (show x < c.1 by omega)]

theorem readByte_cellsFrom {m : List Host.Cell} (a x : Nat) (hx : a ≤ x) : readByte (cellsFrom a m) x = readByte m x := by
  induction m with
  | nil => rfl
  | cons c cs ih =>
    simp only [cellsFrom]
    split
    · rename_i h
      rw [ih]
      simp only [readByte, if_neg (show ¬x < c.1 by omega), if_neg (show ¬x = c.1 by omega)]
    · rfl

theorem readByte_append_ge {m n : List Host.Cell} {a x : Nat} (below : ∀ c ∈ m, c.1 < a) (hx : a ≤ x) :
    readByte (m ++ n) x = readByte n x := by
  induction m with
  | nil => rfl
  | cons c cs ih =>
    have := below c List.mem_cons_self
    simp only [List.cons_append, readByte, if_neg (show ¬x < c.1 by omega), if_neg (show ¬x = c.1 by omega)]
    exact ih fun y hy => below y (List.mem_cons_of_mem _ hy)

theorem readByte_append_lt {lo a x : Nat} {m n : List Host.Cell} (hm : Memory.wfFrom lo m = true)
    (hn : Memory.wfFrom a n = true) (hx : x < a) : readByte (m ++ n) x = readByte m x := by
  induction m generalizing lo with
  | nil => simp only [List.nil_append]; rw [readByte_eq_empty hn hx]; rfl
  | cons c cs ih =>
    simp only [Memory.wfFrom, Bool.and_eq_true, decide_eq_true_eq] at hm
    simp only [List.cons_append, readByte]
    split
    · rfl
    · split
      · rfl
      · exact ih hm.2

theorem readByte_cellsBelow {m : List Host.Cell} (a x : Nat) (hx : x < a) : readByte (cellsBelow a m) x = readByte m x := by
  induction m with
  | nil => rfl
  | cons c cs ih =>
    simp only [cellsBelow]
    split
    · simp only [readByte]
      split
      · rfl
      · split
        · rfl
        · exact ih
    · rename_i h
      simp only [readByte, if_pos (show x < c.1 by omega)]

theorem readByte_spanCells (bs : List Byte) : ∀ (a x : Nat), a ≤ x → readByte (spanCells a bs) x = bs.getD (x - a) emptyByte := by
  induction bs with
  | nil => intro a x _; simp [spanCells, readByte]
  | cons b bs ih =>
    intro a x hx
    simp only [spanCells]
    rcases Nat.eq_or_lt_of_le hx with rfl | hlt
    · split
      · rename_i hb
        rw [readByte_eq_empty (Memory.wfFrom_spanCells bs (a + 1)) (by omega)]; simp [hb]
      · simp [readByte]
    · have e : x - a = (x - (a + 1)) + 1 := by omega
      split
      · rw [ih (a + 1) x (by omega), e]; rfl
      · simp only [readByte, if_neg (show ¬x < a by omega), if_neg (show ¬x = a by omega)]
        rw [ih (a + 1) x (by omega), e]; rfl

/-- A byte read after a span was written. -/
theorem readByte_writeBytes {m : Memory} (a : Nat) (bs : List Byte) (x : Nat) (h : m.wf = true) :
    readByte (writeBytes a bs m) x = if a ≤ x ∧ x < a + bs.length then bs.getD (x - a) emptyByte else readByte m x := by
  unfold Memory.wf at h
  have hspan := Memory.wfFrom_append (Memory.wfFrom_spanCells bs a) (spanCells_lt bs a)
    (Memory.wfFrom_cellsFrom (a + bs.length) h) (by omega)
  unfold writeBytes
  by_cases h1 : x < a
  · rw [readByte_append_lt (Memory.wfFrom_cellsBelow a h) hspan h1, readByte_cellsBelow a x h1, if_neg (by omega)]
  · rw [readByte_append_ge cellsBelow_lt (by omega : a ≤ x)]
    by_cases h2 : x < a + bs.length
    · rw [readByte_append_lt (Memory.wfFrom_spanCells bs a) (Memory.wfFrom_cellsFrom _ h) h2,
        readByte_spanCells bs a x (by omega), if_pos ⟨by omega, h2⟩]
    · rw [readByte_append_ge (spanCells_lt bs a) (by omega : a + bs.length ≤ x),
        readByte_cellsFrom _ _ (by omega), if_neg (by omega)]

theorem readFrom_eq (m : List Host.Cell) (n : Nat) : ∀ a, readFrom m a n = (List.range n).map fun i => readByte m (a + i) := by
  induction n with
  | zero => intro a; rfl
  | succ n ih =>
    intro a
    rw [readFrom, ih, List.range_succ_eq_map, List.map_cons, List.map_map]
    simp only [Nat.add_zero, List.cons.injEq, true_and]
    apply List.map_congr_left
    intro i _
    simp only [Function.comp, Nat.succ_eq_add_one]
    congr 1; omega

/-- A read of bytes is a read of each. -/
theorem readBytes_eq (m : Memory) (a n : Nat) : readBytes m a n = (List.range n).map fun i => readByte m (a + i) := by
  unfold readBytes
  rw [readFrom_eq]
  apply List.map_congr_left
  intro i _
  exact readByte_cellsFrom a (a + i) (by omega)

@[simp] theorem readBytes_length (m : Memory) (a n : Nat) : (readBytes m a n).length = n := by
  rw [readBytes_eq]; simp

/-- A read of what was written. -/
theorem readBytes_writeBytes_same {m : Memory} (a : Nat) (bs : List Byte) (h : m.wf = true) :
    readBytes (writeBytes a bs m) a bs.length = bs := by
  rw [readBytes_eq]
  apply List.ext_getElem
  · simp
  · intro i h1 h2
    simp only [List.getElem_map, List.getElem_range]
    rw [readByte_writeBytes a bs (a + i) h, if_pos ⟨by omega, by omega⟩]
    simp [h2]

/-- A read of bytes that a write does not touch. -/
theorem readBytes_writeBytes_other {m : Memory} (a : Nat) (bs : List Byte) (b n : Nat) (h : m.wf = true)
    (hd : b + n ≤ a ∨ a + bs.length ≤ b) : readBytes (writeBytes a bs m) b n = readBytes m b n := by
  rw [readBytes_eq, readBytes_eq]
  apply List.map_congr_left
  intro i hi
  rw [List.mem_range] at hi
  rw [readByte_writeBytes a bs (b + i) h, if_neg (by omega)]

/-! ## The memories of State -/

theorem Mem.wf_of {m : Mem} (t : Target) (h : m.wf = true) : (m.of t).wf = true := by
  simp only [Mem.wf, Bool.and_eq_true] at h
  cases t <;> simp [Mem.of, h]

theorem Mem.wf_set {m : Mem} {t : Target} {v : Memory} (h : m.wf = true) (hv : v.wf = true) : (m.set t v).wf = true := by
  simp only [Mem.wf, Bool.and_eq_true] at h
  cases t <;> simp [Mem.set, Mem.wf, h, hv]

@[simp] theorem Mem.wf_setUe (m : Mem) (t : Target) (v : List Nat) : (m.setUe t v).wf = m.wf := by
  cases t <;> rfl

/-- A write to a target keeps the canonical form. -/
theorem Mem.wf_write {m : Mem} (t : Target) (a : Nat) (bs : List Byte) (h : m.wf = true) : (m.write t a bs).wf = true := by
  unfold Mem.write
  rw [Mem.wf_setUe]
  exact Mem.wf_set h (Memory.wf_writeBytes a bs (Mem.wf_of t h))

/-- A span of a target emptied keeps the canonical form. -/
theorem Mem.wf_zero {m : Mem} (t : Target) (a n : Nat) (h : m.wf = true) : (m.zero t a n).wf = true := by
  unfold Mem.zero
  rw [Mem.wf_setUe]
  exact Mem.wf_set h (Memory.wf_clearSpan a n (Mem.wf_of t h))

@[simp] theorem Mem.of_setUe (m : Mem) (t u : Target) (v : List Nat) : (m.setUe t v).of u = m.of u := by
  cases t <;> cases u <;> rfl

@[simp] theorem Mem.of_set (m : Mem) (t : Target) (v : Memory) : (m.set t v).of t = v := by cases t <;> rfl

/-- A read of the bytes just written to a target. -/
theorem Mem.read_write_same {m : Mem} (t : Target) (a : Nat) (bs : List Byte) (h : m.wf = true) :
    (m.write t a bs).read t a bs.length = bs := by
  unfold Mem.read Mem.write
  rw [Mem.of_setUe, Mem.of_set]
  exact readBytes_writeBytes_same a bs (Mem.wf_of t h)

/-- A read of other bytes of the target. -/
theorem Mem.read_write_other {m : Mem} (t : Target) (a : Nat) (bs : List Byte) (b n : Nat) (h : m.wf = true)
    (hd : b + n ≤ a ∨ a + bs.length ≤ b) : (m.write t a bs).read t b n = m.read t b n := by
  unfold Mem.read Mem.write
  rw [Mem.of_setUe, Mem.of_set]
  exact readBytes_writeBytes_other a bs b n (Mem.wf_of t h) hd

end Sys2Proof.Machine
end

