-- ==== Sys2Proof/Tests/Slice0.lean ====
section
/-! SUPPORT. Tests on small states: the well-formedness checks, words written out from the tables of the spec, and for every statement
with premises a state and operands that meet them. -/

namespace Sys2Proof

open Machine

/-! ## States -/

namespace Tests

/-- A context of PF0. -/
def key : CtxKey := ⟨0, 1⟩

/-- Ranges of DRAM, of the Reservoir and of the host, 16 MiB each, at 0, 0x1000_0000 and 0x2000_0000. -/
def ranges : List RangeEntry :=
  [⟨0, 255, .dram, true, true, true, false, false, 0x1000000, 0⟩,
   ⟨0x10000000, 255, .reservoir, true, true, true, false, false, 0, 0⟩,
   ⟨0x20000000, 255, .host, true, true, true, false, false, 0x40000000, 0⟩]

/-- The ranges as a range cache holds them. -/
def cached : List RangeCacheEntry := ranges.map fun e => ⟨key, e⟩

/-- An active, resident context with the ranges. -/
def ctx : Ctx :=
  { key := key, prio := 0, replayable := false, prot := false, maxClusters := 44, save := 0x100000, rt := 0x4000000000F00000,
    ring := 0x800000, ranges := ranges, st := .active, fseq := 1, lastFseq := 0, episode := none, resident := true, lastRun := none,
    nets := [], nextHandle := 1, saved := [], stored := false, unmaps := [], teardown := none }

/-- A queue of the context: 256 units of ring, 64 status entries, one packet of 16 bytes written. -/
def queue : Queue :=
  { fn := 0, q := 3, ctx := 1, ringLog2 := 8, statusLog2 := 6, vector := 5, irqAll := false, ringAddr := 0x1000,
    statusAddr := 0x4000, write := 4, statusRead := 0, read := 0, sw := 0, phase := true, unread := 0, halted := false,
    destroying := none, held := none, owed := 0, deferred := 0, turn := 0, wait := none }

/-- The device in mode A with its link up, its processors running and its functions READY in NORMAL, PF0 with 1 GiB of DRAM and
64 MiB of the Reservoir, and one context with a queue. -/
def up : State :=
  let r := State.reset
  { r with
    islands := r.islands.map fun i => { i with inReset := false }
    procs := r.procs.map fun p => { p with up := true, image := some (factoryImage 0) }
    funs := r.funs.map fun f =>
      { f with st := .ready, service := .normal, dramWin := [(0, 16), (0, 0), (0, 0), (0, 0)], rsvMask := 0xFFFF }
    aon := { r.aon with mode := .a, corePgood := true, corePwrReq := true, memPwrEn := true, aonRst := false, perst := false,
                        xtalStable := true, sysclk := true }
    pcie := { r.pcie with linkUp := true }
    ctxs := [ctx]
    queues := [queue]
    hgCache := cached }

/-- The state that the outcome of a command holds. -/
def after (o : Host.Outcome State Fault Refusal) : State :=
  match o with
  | .next t => t
  | _ => up

/-! ## Heith -/

/-- A word with every field 0 but those given. -/
def word (mode : BitVec 5) (dk : BitVec 2) (dst : BitVec 8) (k0 : BitVec 2) (src0 : BitVec 8) (k1 : BitVec 2) (src1 : BitVec 8)
    (k2 : BitVec 2) (src2 : BitVec 8) : HWord :=
  ⟨false, 0, mode, dk, dst, k0, src0, k1, src1, k2, src2, 0, none, .ok⟩

/-- A group of 16 vector registers at 0x2000 of the DRAM range; lane l of V1 holds l. -/
def group : Group :=
  { slot := 0, wg := 0, index := 0, part := 0, pc := 0x2000,
    v := (List.range 16).map fun r => (List.range 32).map fun l => if r = 1 then BitVec.ofNat 32 l else 0,
    s := List.replicate 64 0, p := 0xFFFFFFFF :: List.replicate 7 0, st := .running, parked := false, pend := none, rays := [],
    draw := 0, quads := [], sent := [], depths := [], last := false }

/-- The kernel of the group's cluster. -/
def desc : KernelDesc := ⟨0x2000, 0, 16, 1, 32, 1, 1, 1, 1, 1⟩

def run : KernelRun := { work := ⟨0, .kernel⟩, key := key, desc := desc, nextWg := 1, pix := [], todo := [] }

def cluster : Cluster :=
  { resetCluster with
    core := { resetEngine with holder := some key, busy := true, cache := cached, ring := [.work ⟨0, .kernel⟩ key] }
    run := some run
    wgs := [⟨0, 0, 0, 0, [], 1024, 1⟩]
    groups := [group] }

def origin : Origin := ⟨.queue 0 3, 7, 0x41, false⟩

/-- The kernel's job. -/
def job : Job :=
  { id := 0, key := key, origin := origin, fence := 0, value := 0, kind := .kernel desc 1 0 1, outcome := .running, record := none,
    hasFault := false, island := 0x63, endStamp := 0, sinceReset := true }

/-- The device with cluster 0 running the kernel. -/
def running (cl : Cluster) : State :=
  { up with clusters := cl :: (List.replicate 47 resetCluster), jobs := [job], nextJob := 1 }

/-- A group of cluster 0 issues a word: the premise of the statements about Heith. -/
def issues (sh : Shape) (w : HWord) (g : Group) : Bool :=
  let cl := { cluster with groups := [g] }
  let s := running cl
  s.canIssue 0 cl g && ((s.fetch 0 run.key g.pc.toNat (wordLen w) w.fetch).1.isNone && legal sh w && regsExist g.v.length sh w &&
    regsAligned sh w && decide (cl.group? 0 = some g))

theorem issues_holds {sh : Shape} {w : HWord} {g : Group} (h : issues sh w g = true) :
    ∃ s cl s1, Issues sh 0 0 w s cl run g s1 ∧ s = running cl ∧ s1 = (s.fetch 0 run.key g.pc.toNat (wordLen w) w.fetch).2 := by
  simp only [issues, Bool.and_eq_true, Option.isNone_iff_eq_none, decide_eq_true_eq] at h
  obtain ⟨hr, ⟨⟨⟨hf, hl⟩, he⟩, ha⟩, hg⟩ := h
  exact ⟨_, _, _, ⟨rfl, hg, rfl, hr, Prod.ext hf rfl, hl, he, ha⟩, rfl, rfl⟩

/-- Words of the integer instructions whose premises hold: V2 (or S2) := V1, V1, V1 (or a scalar, a predicate, an immediate). -/
def w1 : HWord := word 0 0 2 0 1 0 0 0 0
def w2 : HWord := word 0 0 2 0 1 0 1 0 0
def w3 : HWord := word 0 0 2 0 1 0 1 0 1

theorem witness_integerResults :
    issues int2 w2 group = true ∧ issues int2Signed (word 1 0 2 0 1 0 1 0 0) group = true ∧ issues int3 w3 group = true ∧
    issues int1 (word 0 1 63 1 5 0 0 0 0) group = true ∧ issues iadd64Shape (word 0 0 2 0 4 0 6 0 0) group = true ∧
    issues imuladdwShape (word 0 0 14 0 1 0 1 0 4) group = true ∧ issues pickShape (word 0 0 15 0 1 0 1 3 7) group = true ∧
    issues int2 { word 0 1 0 1 0 2 0 0 0 with ext := some 0xFFFFFFFF } group = true ∧
    issues int2 { w2 with pg := 7, pn := true } group = true := by
  refine ⟨?_, ?_, ?_, ?_, ?_, ?_, ?_, ?_, ?_⟩ <;> decide +kernel

theorem witness_floatResults :
    issues fp1 (word 2 0 2 0 1 0 0 0 0) group = true ∧ issues fp2 (word 31 0 2 0 1 0 1 0 0) group = false ∧
    issues fp2 (word 30 0 2 0 1 0 1 0 0) group = true ∧ issues fp3 w3 group = true ∧ issues fd2 (word 8 0 14 0 4 0 6 0 0) group = true ∧
    issues fd3 (word 0 0 2 0 4 0 6 1 62) group = true := by
  refine ⟨?_, ?_, ?_, ?_, ?_, ?_⟩ <;> decide +kernel

theorem witness_roundsToNearest : f32 ∈ [f16, bf16, f32, f64] ∧ f32.roundMag .nearest false 3 (-1) false < f32.infBits ∧
    f64.roundMag .nearest false 1 (-1080) false < f64.infBits ∧ f16.roundMag .nearest false 65519 0 false < f16.infBits := by
  decide +kernel

theorem witness_compareResults :
    issues icmpShape (word 13 2 7 0 1 0 1 0 0) group = true ∧ issues fcmpShape (word 7 2 1 0 1 0 1 0 0) group = true ∧
    issues dcmpShape (word 0 2 1 0 4 0 6 0 0) group = true ∧ issues hpcmpShape (word 16 2 6 0 1 0 1 0 0) group = true ∧
    (List.range 6).all (fun m => issues (convFFShape (word m 0 2 0 4 0 0 0 0)) (word m 0 2 0 4 0 0 0 0) group) = true ∧
    issues convShape (word 24 0 2 0 1 0 0 0 0) group = true ∧ f32.value 0x40200000 = .fin false 10485760 (-22) false := by
  refine ⟨?_, ?_, ?_, ?_, ?_, ?_, ?_⟩ <;> decide +kernel

theorem witness_laneAndPredicateResults :
    issues svalShape { word 0 0 2 2 0 0 0 0 0 with ext := some 0 } group = true ∧
    issues svalShape { word 0 1 2 2 0 0 0 0 0 with ext := some 4 } group = true ∧
    (List.range 4).all (fun m => issues xlaneShape (word m 0 2 0 1 0 1 0 0) group) = true ∧
    issues (preduceShape (word 0 2 1 3 7 0 0 0 0)) (word 0 2 1 3 7 0 0 0 0) group = true ∧
    issues (preduceShape (word 2 1 63 3 7 0 0 0 0)) (word 2 1 63 3 7 0 0 0 0) group = true ∧
    issues (pxferShape (word 0 1 2 3 7 0 0 0 0)) (word 0 1 2 3 7 0 0 0 0) group = true ∧
    issues (pxferShape (word 0 2 7 1 63 0 0 0 0)) (word 0 2 7 1 63 0 0 0 0) group = true ∧
    issues plogicShape (word 3 2 7 3 1 3 7 0 0) group = true ∧ issues lreduceShape (word 2 1 63 0 1 0 0 0 0) group = true := by
  refine ⟨?_, ?_, ?_, ?_, ?_, ?_, ?_, ?_, ?_⟩ <;> decide +kernel

theorem witness_resultWrites : (∀ r ∈ group.v, r.length = 32) ∧ group.s.length = 64 ∧ group.p.length = 8 ∧
    dstLegal iadd64Shape (word 0 0 14 0 4 0 6 0 0) = true ∧ regsExist group.v.length iadd64Shape (word 0 0 14 0 4 0 6 0 0) = true ∧
    iadd64Shape.dks ⊆ [0, 1] := by
  decide +kernel

/-- A group whose predicate 1 holds in lanes 0 to 15 only. -/
def mixed : Group := { group with p := 0xFFFFFFFF :: 0xFFFF :: List.replicate 6 0 }

theorem witness_controlInstructions :
    issues shape0 (word 0 3 0 0 0 0 0 0 0) group = true ∧
    issues jumpShape { word 0 3 0 0 0 0 0 0 0 with ext := some 0xFFFFFFF8 } group = true ∧
    issues jumpShape { word 0 3 0 0 0 0 0 0 0 with ext := some 0x7FFFFFF8, pg := 1 } mixed = true ∧
    mixed.active { w1 with pg := 1 } = 0xFFFF ∧ group.active { w1 with pg := 1 } = 0 ∧ group.active w1 = 0xFFFFFFFF ∧
    issues retShape (word 0 3 0 1 40 0 0 0 0) group = true ∧ issues syncShape (word 7 3 0 0 0 0 0 0 0) group = true ∧
    issues orderShape (word 3 3 0 0 0 0 0 0 0) group = true ∧
    ((running cluster).fetch 0 run.key 0x2000 8 .ok).2.clusters[0]?.map (·.groups) = some cluster.groups ∧
    ((running cluster).emptyL1 0).pcie.linkUp = true ∧ (running cluster).job? 0 = some job := by
  refine ⟨?_, ?_, ?_, ?_, ?_, ?_, ?_, ?_, ?_, ?_, ?_, ?_⟩ <;> decide +kernel

theorem witness_stopsAndIllegalOpcodes : issues shape0 { word 0 3 0 0 0 0 0 0 0 with pg := 1 } mixed = true ∧
    ((running cluster).fetch 0 run.key 0x2000 8 .ok).2.job? run.work.job = some job := by
  refine ⟨?_, ?_⟩ <;> decide +kernel

/-- A group whose V4:V5 hold the addresses 0x100 + 4l of a DRAM range, V6 the word l + 1, V8 the local address 4l, and S8:S9 the
address 0x1000_0040 of a Reservoir range. -/
def loader : Group :=
  { group with
    v := (List.range 16).map fun r => (List.range 32).map fun l =>
      if r = 4 then BitVec.ofNat 32 (0x100 + 4 * l) else if r = 6 then BitVec.ofNat 32 (l + 1) else if r = 8 then BitVec.ofNat 32 (4 * l) else 0
    s := (List.range 64).map fun r => if r = 8 then 0x10000040 else 0 }

def wLd : HWord := word 2 0 2 0 4 0 0 0 0
def wSt : HWord := word 2 3 0 0 4 0 6 0 0
def wLdsc : HWord := word 4 1 4 1 8 0 0 0 0
def wRmw : HWord := word 0 0 2 1 8 0 6 0 0
def wRmwn : HWord := word 25 3 0 1 8 0 6 0 6
def wLdw : HWord := word 6 0 2 0 8 0 0 0 0
def wStw : HWord := word 2 3 0 0 8 0 6 0 0
def wRmww : HWord := word 1 0 2 0 9 0 6 0 0

/-- The lane accesses of a memory instruction after its fetch. -/
def lanes (sh : Shape) (op : MemOp) (n : Nat) (w : HWord) (g : Group) (ls : List Nat) : List LaneAcc × List LaneFault × State :=
  laneAccesses 0 run.key op n (g.addresses sh w ls)
    ((running { cluster with groups := [g] }).fetch 0 run.key g.pc.toNat (wordLen w) w.fetch).2

theorem witness_loadsAndStores :
    (issues (ldShape wLd) wLd loader && issues (ldscShape wLdsc) wLdsc loader && issues (stShape wSt) wSt loader) = true ∧
    (let r := lanes (ldShape wLd) .load 4 wLd loader (actives loader wLd)
     r.2.1 = [] ∧ r.1.length = 32 ∧ ∀ a ∈ r.1, a.cached = false ∧ (a.tgt = .dram ∨ a.tgt = .reservoir) ∧ r.2.2.poisoned a.tgt a.pa 4 = false) ∧
    (let r := lanes (ldscShape wLdsc) .scalarLoad 16 wLdsc loader [0]
     r.2.1 = [] ∧ r.1.length = 1 ∧ ∀ a ∈ r.1, a.cached = false ∧ a.tgt = .reservoir ∧ a.pa = 0x40 ∧ r.2.2.poisoned a.tgt a.pa 16 = false) ∧
    let r := lanes (stShape wSt) .store 4 wSt loader (actives loader wSt)
    r.2.1 = [] ∧ r.1.length = 32 ∧ (∀ a ∈ r.1, a.cached = false ∧ a.tgt = .dram) ∧ ∀ u ∈ r.2.2.queues, u.wait = none := by
  refine ⟨?_, ?_, ?_, ?_⟩ <;> decide +kernel

theorem witness_atomicsAndLocalMemory :
    (issues (rmwShape wRmw) wRmw loader && issues (rmwnShape wRmwn) wRmwn loader && issues (ldwShape wLdw) wLdw loader &&
      issues (stwShape wStw) wStw loader && issues (rmwwShape wRmww) wRmww loader) = true ∧
    (let r := lanes (rmwShape wRmw) (.atomic true) 4 wRmw loader (actives loader wRmw)
     r.2.1 = [] ∧ r.1.length = 32 ∧ (∀ a ∈ r.1, a.tgt = .reservoir ∧ a.pa = 0x40) ∧ r.2.2.line? 0 .reservoir 0x40 = none ∧
       r.2.2.poisoned .reservoir 0x40 4 = false) ∧
    (let r := lanes (rmwShape wRmwn) (.atomic false) 8 wRmwn loader (actives loader wRmwn)
     r.2.1 = [] ∧ r.1.length = 32 ∧ ∀ a ∈ r.1, a.tgt = .reservoir ∧ a.pa = 0x40) ∧
    (running cluster).ldsOf 0 0 = ([], 1024) ∧ (∀ x ∈ loader.ldsAddresses (ldwShape wLdw) wLdw, x.2 % 2 = 0 ∧ x.2 + 2 ≤ 1024) ∧
    (∀ x ∈ loader.ldsAddresses (stwShape wStw) wStw, x.2 % 4 = 0 ∧ x.2 + 4 ≤ 1024) ∧
    ∀ x ∈ loader.ldsAddresses (rmwwShape wRmww) wRmww, x.2 = 0 := by
  refine ⟨?_, ?_, ?_, ?_, ?_, ?_, ?_⟩ <;> decide +kernel

/-- A group with the texture descriptor of a 4 × 4 surface at 0x8000 in S8 to S15, coordinates of lane l at (l mod 4, l / 4) in V8 to
V12, a quad at (0, 0), and a ray from each lane's V8 to V15. -/
def texGroup : Group :=
  { group with
    v := (List.range 16).map fun r => (List.range 32).map fun l =>
      if r = 8 then BitVec.ofNat 32 (l % 4) else if r = 9 then BitVec.ofNat 32 (l / 4) else if r = 14 then 1 else 0
    s := (List.range 64).map fun r => if r = 8 then 0x8000 else if r = 10 then 0x30003 else if r = 12 then 0x04 else 0
    quads := [⟨0, 0, 7, 0xFFFFFFFF, true, 0, []⟩] }

def wFetch : HWord := word 0 0 4 1 8 0 8 0 0
def wSample : HWord := word 0 0 4 1 16 0 8 1 4

/-- The lanes of a texture instruction after its fetch. -/
def texels (f : Issuer → Group → Nat → State → LaneTexel) (w : HWord) : List (Nat × Nat) × List LaneFault × State :=
  texLanes (f { c := 0, run := run, wide := wordLen w } texGroup) (actives texGroup w)
    ((running { cluster with groups := [texGroup] }).fetch 0 run.key 0x2000 (wordLen w) w.fetch).2

def attachment : Attachment := ⟨0x20000, 0, 0, 0x04, 0, 1, 0⟩

/-- A pass over 32 × 32 pixels of one colour attachment. -/
def passDesc : PassDesc :=
  { mode := 0, tileMax := 4, halo := 0, samples := 1, rtCount := 1, depthEn := false, stencilEn := false, signature := 9, width := 32,
    height := 32, areaX := 0, areaY := 0, areaW := 32, areaH := 32, pptMax := 64, batchTiles := 16, pbBudget := 256, pbSize := 256,
    pbAddr := 0, drawList := 0, drawCount := 0, vertexCount := 0, tileNet := 0, clears := [], colours := [attachment], depth := attachment,
    draws := [] }

def passRun : PassRun :=
  { desc := passDesc, kernels := [], direct := false, tileW := 16, tileH := 16, phase := .tile, batches := [], geom := [], live := [],
    pix := [], heads := [], heap := 0x220000, prims := 0, refs := 0, high := 0x220000, flushes := 0, flushed := [], overflow := [],
    binning := false, expect := [], flying := [], slices := [0], saved := none }

def slot : TileSlot := ⟨0, 0, 0, 1024, .shading, false, false, [false], none⟩

/-- The device with a pass whose tile 0 cluster 0 shades. -/
def shading (r : PassRun) (g : Group) (t : TileSlot) : State :=
  let s := running { cluster with
    run := some { run with work := ⟨0, .tileBatch [0]⟩ }
    groups := [g]
    tiles := [t] }
  { s with jobs := [{ job with kind := .pass 0 (some r) }] }

def wTilerd : HWord := word 0 0 4 0 0 0 9 0 0
def wTilewr : HWord := word 0 3 0 0 8 0 14 0 0
def wEmit : HWord := word 16 3 0 0 8 0 14 0 0

theorem witness_textureAndTileInstructions :
    (issues fetchShape wFetch texGroup && issues sampleShape wSample texGroup) = true ∧
    (texels (fetchLane wFetch) wFetch).2.1 = [] ∧ (parseTexture (texGroup.srcs fetchShape wFetch 0).a).known = true ∧
    (({ up with clusters := cluster :: up.clusters } : State).unitRead 0 key 0x8000 4).1.toOption = some [0, 0, 0, 0] ∧
    (issues (tilerdShape wTilerd) wTilerd texGroup && issues (tilewrShape wTilewr) wTilewr texGroup &&
      issues (emitShape wEmit) wEmit texGroup) = true ∧
    (shading passRun texGroup slot).passRun? 0 = some passRun ∧
    ((shading passRun texGroup slot).clusters[0]?.bind Cluster.shading) = some slot ∧ cluster.blocked texGroup = false ∧
    texGroup.pixel passRun 0 0 = some (0, 0) ∧ passDesc.selected 0 = some (0, attachment) ∧ texGroup.quads ≠ [] := by
  refine ⟨?_, ?_, ?_, ?_, ?_, ?_, ?_, ?_, ?_, ?_, ?_⟩ <;> decide +kernel

/-- R126: an individual-mode ETC2 block with red 8 (of 15) and everything else 0, whose pixel (0, 0) takes the small modifier 2 of table
0: (136 + 2, 2, 2), by hand. -/
theorem test_etc2 : etcColour false (blockBE 0x80 0) 0 0 = some [138, 2, 2] ∧ etcColour false (blockBE 0x80 0) 2 0 = some [2, 2, 2] := by
  constructor <;> decide +kernel

/-- R126: an ASTC void-extent block with red 0xFFFF and blue 0x8000 fills its texels with them. -/
theorem test_astc_void :
    (List.range 3).map (astcChannel false false 4 4 (0xDFC + (2 ^ 52 - 1) * 2 ^ 12 + 0xFFFF * 2 ^ 64 + 0x8000 * 2 ^ 96) 3 1) =
      [some (.unorm 0xFFFF), some (.unorm 0), some (.unorm 0x8000)] := by decide +kernel

/-- R127, R128: halfway between two texels of four, wrapped at the end, each counts one half; on the border there is none. -/
theorem test_taps : axisTaps true 0 4 1 = [(some 3, 1 / 2), (some 0, 1 / 2)] ∧ axisTaps false 3 4 1 = [(none, 1)] ∧
    axisTaps true 2 4 (1 / 8) = [(some 0, 1)] := by
  refine ⟨?_, ?_, ?_⟩ <;> decide +kernel

/-- A lane's ray from the origin along z with tmax 1, with a candidate of a procedural leaf pending. -/
def rayLane : RayLane :=
  { noRay with world := [0, 0, 0, 0, 0, 0, 0x3F800000, 0x3F800000], mask := 0xFF, status := 3, cand := some { kind := .procs, va := 64, more := 0 },
               candHit := [0, 0, 0, 1, 2, 3, 4] }

/-- An instance that every ray mask sees, and a leaf with the triangle (-1, -1, 1), (3, -1, 1), (-1, 3, 1), opaque. -/
def instRec : InstRec := { root := 0x1000, mask := 0xFF, bits := 0, id := 5, group := 6 }
def triLeaf : List Byte :=
  let one := toLE 4 0x3F800000; let minus := toLE 4 0xBF800000; let three := toLE 4 0x40400000
  minus ++ minus ++ one ++ three ++ minus ++ one ++ minus ++ three ++ one ++ List.replicate 12 0 ++
    toLE 4 7 ++ toLE 4 0 ++ toLE 4 0x01000000 ++ toLE 4 0

/-- A ray from the origin along z with tmax 2 in that instance. -/
def zRay : RayLane :=
  let w : List Word := [0, 0, 0, 0, 0, 0, 0x3F800000, 0x40000000]
  { noRay with world := w, object := w, mask := 0xFF, inst := some instRec }

/-- R134: the ray meets the triangle at t = 1 with weights 1/4 and 1/4 (computed by hand), from behind; the hit is committed. -/
theorem test_ray_triangle : (zRay.visit 0 { kind := .tris, va := 0x40, more := 0 } triLeaf).2.hit = [0x3F800000, 0x3E800000, 0x3E800000, 7, 0, 5, 6] ∧
    (zRay.visit 0 { kind := .tris, va := 0x40, more := 0 } triLeaf).2.hitFront = false := by
  constructor <;> decide +kernel

/-- R132: child 2 of a node, a triangle leaf of two blocks at CHILD_BASE + 64 × 3, with the box from (-1, -1, 1) to (3, 3, 1): the ray
enters it. -/
def rayNode : List Byte :=
  toLE 4 0xBF800000 ++ toLE 4 0xBF800000 ++ toLE 4 0 ++ [0, 0, 0, 0b0100] ++ toLE 8 0x2000 ++ [0, 0, 0x83, 0, 0, 0, 1, 0] ++
    List.replicate 12 0 ++ [0, 0, 1, 4, 4, 1] ++ List.replicate 14 0

theorem test_ray_node : (zRay.visit 0 { kind := .node, va := 0x1000, more := 0 } rayNode).2.todo = [{ kind := .tris, va := 0x20C0, more := 1 }] := by
  decide +kernel

def wRay : HWord := word 0 0 8 1 8 0 0 1 6
def wResume : HWord := word 0 0 8 0 0 0 0 1 6
def wAccept : HWord := word 0 3 0 0 0 0 9 1 6

theorem witness_rayInstructions :
    (issues rayShape wRay texGroup && issues rayresumeShape wResume { texGroup with rays := List.replicate 32 { rayLane with status := 1 } } &&
      issues rayacceptShape wAccept { texGroup with rays := List.replicate 32 rayLane }) = true ∧
    ((raySteps 0 key 2 [0, 31] (List.replicate 32 { rayLane with todo := [{ kind := .node, va := (texGroup.srcs rayShape wRay 0).a, more := 0 }] })
      (running { cluster with groups := [texGroup] })).map fun x => x.2.1) = some [] ∧
    (texGroup.srcs rayShape wRay 0).c % 16 = 0 ∧ texGroup.active wRay ≠ 0 ∧
    rayLane.inReach 0 = true ∧ rayLane.inReach 0x3F800000 = false ∧ rayLane.reaches 0 0 = true ∧ rayLane.reaches 0 0x3F800000 = false ∧
    (leafWords (List.replicate 64 0) false).2.2 = false ∧ (leafWords triLeaf false).2.2 = true ∧
    (zRay.exact.map fun x => x.meetsBox { x := -1, y := -1, z := 1 } { x := 1, y := 1, z := 1 }) = some true := by
  refine ⟨?_, ?_, ?_, ?_, ?_, ?_, ?_, ?_, ?_, ?_, ?_⟩ <;> decide +kernel

/-- The device with front end 0 at the head of a pass. -/
def front (kind : JobKind) (job : Option Nat) : State :=
  { up with
    fronts := { resetFront with job := job, core := { resetEngine with holder := some key, cache := cached, ring := [.work ⟨0, .pass⟩ key] } } ::
      List.replicate 3 resetFront
    jobs := [{ Tests.job with kind := kind }] }

theorem witness_passStarts :
    (let s := front (.pass 0x3000 none) none
     s.headWork (.front 0) = some (⟨0, .pass⟩, key) ∧ (s.job? 0).map Job.kind = some (.pass 0x3000 none) ∧
      ∃ fe, s.fronts[0]? = some fe ∧ ((s.modFront 0 fun _ => { fe.commit with core := { fe.commit.core with busy := true } }).beginPass 0 key
        (if fe.core.armed then fe.shadow else fe.cfg) 0x3000).1.toBool = true) ∧
    (((front (.pass 0 (some passRun)) none).headWork (.front 0)) = some (⟨0, .pass⟩, key) ∧ passRun.saved = none ∧
      ((front (.pass 0 (some passRun)) none).readVa (.engine (.front 0)) key (passDesc.pbAddr + 0) 64).1.toBool = true) ∧
    (passDesc.tiles 16 16 ≠ 0 ∧ passDesc.tileNet = 0 ∧ (0 : Word).toNat / 4 % 4 ≠ 1) := by
  refine ⟨⟨?_, ?_, _, rfl, ?_⟩, ⟨?_, ?_, ?_⟩, ?_⟩ <;> decide +kernel

/-- A draw of geometry and pixel kernels at 0x6000 and 0x6040. -/
def draw : Draw := ⟨0x6000, 0x6040, 0, 3, 1, 0, 0, false, 0, false, false, 4, 0, 0, 0, 0, 0, []⟩

/-- A pass with a geometry batch of its draw that the clusters have completed. -/
def binRun : PassRun :=
  { passRun with desc := { passDesc with draws := [draw] }, phase := .geometry, geom := [(.geomBatch 0 0 0 3 0, true)] }

theorem witness_passCommands :
    (let s := front (.pass 0 (some binRun)) (some 0)
     s.headWork (.front 0) = some (⟨0, .pass⟩, key) ∧ s.passRun? 0 = some binRun ∧ s.fronts[0]?.map (·.job) = some (some 0) ∧
       (s.zeroHeads 0 key binRun.desc 16 16).1 = none ∧ (s.put (.engine (.front 0)) key 0x220000 (List.replicate 128 1)).1 = none) ∧
    (passRun.finished = true ∧ passRun.direct = false ∧ job.outcome = .running) ∧
    (let b : BatchAt := { draw := 0, inst := 0, first := 0, count := 2, half := 0 }
     let x := (front (.pass 0 (some binRun)) (some 0)).assembleBatch 0 key binRun draw b
     x.1.toOption = some [] ∧ (x.2.binPrims 0 key binRun.desc draw b [] binRun.bins).1.isNone = true) ∧
    ({ slot with phase := .retired } : TileSlot).storable passRun = true ∧
    (let s := shading passRun texGroup { slot with phase := .retired }
     s.runsCtx key = true ∧ s.jobRuns key 0 = true ∧ s.passRun? 0 = some passRun) ∧
    attachment.storeOp = 1 ∧ resetCluster.free ≠ 0 ∧ passRun.header.length = 36 := by
  refine ⟨⟨?_, ?_, ?_, ?_, ?_⟩, ?_, ⟨?_, ?_⟩, ?_, ⟨?_, ?_, ?_⟩, ?_, ?_, ?_⟩ <;> decide +kernel

/-- R108, R117: of (0, 0), (4, 0), (0, 4) the turn is clockwise where y points down, twice the area is 16 (by hand), and CULL back
drops it unless FRONT_CW is 1. -/
def cornerBlocks : List (List Word) := [[0, 0], [0x40800000, 0], [0, 0x40800000]]

theorem test_facing : triArea cornerBlocks = some 16 ∧ ({ draw with cull := 1 } : Draw).facing 0 0 cornerBlocks = (false, true) ∧
    ({ draw with cull := 1, frontCw := true } : Draw).facing 0 0 cornerBlocks = (true, false) := by
  refine ⟨?_, ?_, ?_⟩ <;> decide +kernel

/-- R121, R165: with 16 × 16 tiles and no halo the box from (0, 0) to (4, 4) enters tile 0 alone. -/
theorem test_tiles : binRun.tilesOf 0 0 cornerBlocks = [0] := by decide +kernel

/-- A convolution of one element in the integer format 1. -/
def layerDesc : LayerDesc :=
  { op := 1, aFmt := 1, wFmt := 1, oFmt := 1, group := 0, biasEn := false, scaleEn := false, actEn := false, residualEn := false,
    sparse := false, broadcastC := false, aRef := 0, wRef := 0, oRef := 0, rRef := 0, tRef := 0, inH := 1, inW := 1, inC := 1,
    outC := 1, outH := 1, outW := 1, n := 1, groups := 1, aRow := 16, oRow := 16, aN := 16, oN := 16, kh := 1, kw := 1, sh := 1,
    sw := 1, dh := 1, dw := 1, padT := 0, padL := 0, inZero := 0, outZero := 0, p0 := 0, p1 := 0, p2 := 0, p3 := 0, workset := 0,
    weightBytes := 0, timeNs := 0, timeLayerNs := 0 }

def net : Net :=
  { handle := 5, layerMode := false, retry := 1, image := 0x300000, arena := 0x310000, granules := 1, need := 1, tableB := 0, kernelB := 0,
    weightB := 0, weightOff := 0, peakAct := 0, scratch := 0, tileNet := false, haloReq := 0, tileW := 16, tileH := 16, binds := [],
    layers := [layerDesc] }

def netRun : NetRun :=
  { handle := 5, trigger := false, port := 0, vc := 0, bindFrame := false, result := 0, binds := [], armed := false, running := true,
    buffer := none, attempt := 0, group := 0, left := [0], executed := 0, sat := 0, startStamp := 1, endStamp := 0, faulted := false, dealt := [] }

/-- The device with a network's run whose layer array 0 has at the head of its ring. -/
def layers (r : NetRun) (a : Machine.Array) : State :=
  { up with
    ctxs := [{ ctx with nets := [net] }]
    jobs := [{ job with kind := .net r }]
    arrays := { a with core := { a.core with holder := some key, cache := cached, ring := [.work ⟨0, .layer 0⟩ key] } } ::
      List.replicate 8 resetArray }

/-- The flume's grant of tile 0 in cluster 0. -/
def grant : Grant := ⟨0, 0, 0, 1024, 0, key⟩

/-- The device with a pass with a tile network, whose tile 0 an array holds through the flume. -/
def flume (slot : TileSlot) (x : Machine.Array) (fe : FrontEnd) : State :=
  { shading { passRun with desc := { passDesc with tileNet := 5 } } texGroup slot with
    ctxs := [{ ctx with nets := [net] }]
    fronts := fe :: List.replicate 3 resetFront
    arrays := x :: List.replicate 8 resetArray }

def granted : State :=
  flume { slot with phase := .granted, grant := some 0 } { resetArray with grant := some grant, step := 1 } { resetFront with job := some 0 }

def grantable : State :=
  flume { slot with phase := .retired }
    { resetArray with core := { resetEngine with holder := some key, ring := [.work ⟨0, .tileNet 0⟩ key] } } { resetFront with job := some 0 }

theorem witness_layerCommands :
    ((layers netRun resetArray).headWork (.array 0) = some (⟨0, .layer 0⟩, key) ∧ (layers netRun resetArray).net? key 5 = some net ∧
      ((({ a := 0, k := key, net := net, tile := false, keep := false, binds := [] } : Runner).layer layerDesc (layers netRun resetArray)).1.toBool = true)) ∧
    (let s := layers { netRun with faulted := true } resetArray
     s.jobIdle 0 = true ∧ s.layersInFlight key = false ∧ netRun.attempt < net.retry ∧ s.sluice.reports = [] ∧ s.procUp 1 = true) ∧
    (grantable.headWork (.array 0) = some (⟨0, .tileNet 0⟩, key) ∧ cluster.core.holder = some key ∧ cluster.core.sw = none) ∧
    ((granted.granted grant).isSome = true ∧ granted.islandUp 0 = true ∧ net.layers.length = 1) := by
  refine ⟨⟨?_, ?_, ?_⟩, ⟨?_, ?_, ?_, ?_, ?_⟩, ⟨?_, ?_, ?_⟩, ?_, ?_, ?_⟩ <;> decide +kernel

theorem witness_integerSums : ∀ x ∈ ([2147483647, 1] : List Int), 0 ≤ x := by decide

/-- The device with the kernel's share at the head of cluster 0's ring. -/
def dealt : State :=
  { up with
    clusters := { resetCluster with core := { resetEngine with holder := some key, cache := cached, ring := [.work ⟨0, .kernel⟩ key] } } ::
      List.replicate 47 resetCluster
    jobs := [{ job with kind := .kernel desc 0 0 1 }]
    nextJob := 1 }

theorem witness_kernelCommands :
    (3 ≤ desc.vregs ∧ 0 < desc.wgX ∧ 0 < desc.wgY) ∧ dealt.headWork (.cluster 0) = some (⟨0, .kernel⟩, key) ∧
    (let cl := { cluster with groups := [], wgs := [] }
     (running cl).shareOver cl run = true ∧ (running cl).islandUp 0 = true ∧ (running cl).flight = []) ∧
    ({ cluster with stopJob := some 0 } : Cluster).run = some run := by
  refine ⟨?_, ?_, ⟨?_, ?_, ?_⟩, ?_⟩ <;> decide +kernel

/-- A fault of the kernel's group. -/
def report : FaultReport := ⟨.noRange, 0, false, false, 0, 0x1234, 0x2000, 1, some 0, origin, key, false, 9⟩

def episode : Episode := ⟨3, 64, 0, true, true⟩

theorem witness_faultCommands :
    (let s := { running cluster with sluice := { up.sluice with reports := [report] } }
     s.sluice.reports[0]? = some report ∧ s.procUp 1 = true ∧ s.fatal = false ∧ report.source ≠ 1) ∧
    ({ up with ctxs := [{ ctx with st := .faulted, episode := some episode }] } : State).allParked key = true ∧ episode.waiting = true ∧
    ((up.ctx? report.key = some ctx ∧ ctx.st = .active ∧ ctx.episode = none) ∧ parkingSource report.source = true ∧ parkingSource 7 = false ∧
      64 ≤ episode.written ∧ ∀ u ∈ up.queues, u.wait = none) := by
  refine ⟨⟨?_, ?_, ?_, ?_⟩, ?_, ?_, ⟨?_, ?_, ?_, ?_, ?_⟩⟩ <;> decide +kernel

/-- A copy of 64 bytes from 0 to 0x1_0000. -/
def copyDesc : CopyDesc := ⟨0, 0x10000, 0, 0, 64, 1, 1, 64, 64, 64, 64, 0⟩

/-- The device with copy engine 0 at a copy. -/
def copying (c : CopyEngine) : State :=
  { up with
    copies := { c with core := { c.core with holder := some key, cache := cached, ring := [.work ⟨0, .copyJob⟩ key] } } :: List.replicate 3 resetCopy
    jobs := [{ job with kind := .copy copyDesc 0 1 }] }

/-- An access of cluster 0 in flight. -/
def access : Access := ⟨.engine (.cluster 0), 0, .dram, 0x1000, key, true, none⟩

theorem witness_accessAndCopy :
    (({ up with flight := [access] } : State).flight.find? fun a => decide (a.who = .engine (.cluster 0)) && decide (a.epoch = 0)) = some access ∧
    (let s := copying resetCopy
     let r := translateSegments (.copy 0) key (copyDesc.kind == 4) (copyDesc.segments 0)
       (s.modCopy 0 fun c => { c with job := some 0, core := { c.core with busy := true, armed := false } })
     s.headWork (.copy 0) = some (⟨0, .copyJob⟩, key) ∧ copyDesc.overlaps = false ∧ r.1.toBool = true ∧
       (r.1.toOption.map fun xs => (moveSegments copyDesc key xs r.2).1) = some none) ∧
    (let c := { resetCopy with job := some 0, chunk := some 0 }
     c.job.bind (copying c).job? = some { job with kind := .copy copyDesc 0 1 }) := by
  refine ⟨?_, ⟨?_, ?_, ?_, ?_⟩, ?_⟩ <;> decide +kernel

/-- A stream of cluster 0 of the context. -/
def stream : Stream := ⟨.engine (.cluster 0), 0, 1⟩

/-- The device with a Reservoir line of 0xAB bytes at 0 and a poisoned word at 0x48 and at 0x1000 of DRAM. -/
def marked : State :=
  { up with mem := { up.mem with rsv := writeBytes 0 (List.replicate 128 0xAB) [], dram := writeBytes 0x1000 (List.replicate 16 0x5A) [], rsvUe := [0x48], dramUe := [0x1000] } }

theorem witness_reservoirCommands :
    (marked.islandThere (0x40 + (marked.placement 0x40).1) = true ∧ 0x40 + 8 ≤ marked.rsvBytes) ∧
    marked.mem.poisoned .reservoir 0x40 8 = false ∧ marked.mem.poisoned .reservoir 0x40 16 = true ∧
    marked.mem.writable .reservoir 0x40 8 = true ∧ marked.mem.writable .reservoir 0x44 8 = false ∧ (∀ u ∈ marked.queues, u.wait = none) ∧
    (0x7FFFF80 + 128 ≤ 128 * (0x7FFFF80 / 128 + 1)) ∧ up.aon.mode = .a ∧ up.islandThere (0x40 + (up.placement 0).1) = true ∧
    wordsIn up.mem.rsvUe 0 128 = [] ∧ up.rsv.ce ≤ up.rsv.threshold ∧ wordsIn marked.mem.rsvUe 0 128 ≠ [] := by
  refine ⟨⟨?_, ?_⟩, ?_, ?_, ?_, ?_, ?_, ?_, ?_, ?_, ?_, ?_, ?_⟩ <;> decide +kernel

/-- The device with a DRAM channel in a state of its own, and inline ECC. -/
def channel (c : DramChannel) : State := { marked with dram := c :: List.replicate 7 resetDram, part := { resetPart with inlineEcc := true } }

theorem witness_dramCommands :
    channelOf 0x1080 = 0 ∧ 0x1080 + 64 ≤ (channel resetDram).dramBytes ∧ (channel resetDram).mem.poisoned .dram 0x1080 64 = false ∧
    (channel { resetDram with retraining := true }).dram[0]? = some { resetDram with retraining := true } ∧
    (∀ x ∈ (channel { resetDram with hardPending := true }).dram, x.retraining = false) ∧ (channel resetDram).part.softLimit ≤ 99 ∧
    99 < (channel resetDram).part.hardLimit ∧ (channel resetDram).channelRuns 0 = true ∧ (∀ f ∈ (channel resetDram).funs, f.bar2Wait = []) ∧
    (channelOf (channel resetDram).sc.patrolAt = 0 ∧ (channel resetDram).sc.patrolCfg.toNat % 2 ^ 16 ≠ 0 ∧ (channel resetDram).aon.mode = .a ∧
      wordsIn (channel resetDram).mem.dramUe 0 128 = []) := by
  refine ⟨?_, ?_, ?_, ?_, ?_, ?_, ?_, ?_, ?_, ?_, ?_, ?_, ?_⟩ <;> decide +kernel

/-- A full line of DRAM at 0x40 · 128. -/
def line : ScLine := ⟨.dram, 0x40, 3, false, BitVec.allOnes 128, false, 0, false⟩

/-- The device with one slice in a state of its own: the slice of line 0x40. -/
def sliced (x : Slice) : State := { up with sc := { up.sc with slices := modNth (fun _ => x) (sliceOf 0x2000) up.sc.slices } }

/-- A miss of that line with the read of 8 bytes that waits for it. -/
def miss : Miss := ⟨stream, .dram, 0x40, true, false, some (.systemCacheAccess stream .dram ⟨0x2000, 8⟩ true false 0 .none)⟩

theorem witness_cacheReadsAndStores :
    (sliced resetSlice).sc.slices[sliceOf 0x2000]? = some resetSlice ∧ (sliced resetSlice).islandThere (0x48 + sliceOf 0x2000 / 4) = true ∧
    clearPath { resetSlice with lines := [line] } stream .dram 0x40 ∧ ({ resetSlice with lines := [line] } : Slice).find .dram 0x40 = some line ∧
    (line.holds 0x2000 8 = true ∧ resetSlice.find .dram 0x40 = none ∧ resetSlice.missOf .dram 0x40 = none ∧ resetSlice.missing stream = false) ∧
    (({ resetSlice with evicting := [line] } : Slice).leaving .dram 0x40 = true ∧ clearPath resetSlice stream .dram 0x40 ∧
      resetSlice.blocks stream .peer 0x40 = false ∧ up.pcie.linkUp = true) ∧
    ({ resetSlice with waiting := [.systemCacheAccess stream .dram ⟨0x2000, 8⟩ true false 0 .none] } : Slice).queued stream = true ∧
    ({ up with sc := { up.sc with mode := 0 } } : State).scDetects = false ∧ resetSlice.freeWay 0x40 = some 0 ∧
    (({ resetSlice with trackers := [⟨stream, 16, 0x1000⟩] } : Slice).trackers.find? fun k => decide (k.stream = stream)) = some ⟨stream, 16, 0x1000⟩ := by
  refine ⟨?_, ?_, ⟨?_, ?_, ?_⟩, ?_, ⟨?_, ?_, ?_, ?_⟩, ⟨?_, ⟨?_, ?_, ?_⟩, ?_, ?_⟩, ?_, ?_, ?_, ?_⟩ <;> decide +kernel

theorem witness_cacheCompletionsAndModes :
    (({ resetSlice with misses := [miss] } : Slice).misses.find? fun m => decide (m.stream = stream) && m.request.isSome) = some miss ∧
    (up.poisoned .dram 0x2000 128 = false ∧ 0x2000 % 8 = 0 ∧ line.valid = BitVec.allOnes 128) ∧
    (up.procUp 2 = true ∧ resetSlice.ways.getLsbD 3 = true ∧ up.weir.scIdle = false ∧ ∀ l ∈ [line], l.way / 4 = 0 → l.dirty = false) ∧
    (let s : State := { up with islands := up.islands.map fun (i : Island) => { i with a2 := true } }
     s.engines.all fun e => (s.island? (engineIsland e)).all fun i => i.a2) = true ∧
    (up.linkSide = true ∧ up.aon.mode.asleep = false ∧ up.fatal = false) ∧
    (∀ c ∈ ({ up with ctxs := [{ ctx with resident := false }] } : State).ctxs, c.resident = false) ∧ (∀ x ∈ up.sc.slices, x.busy = false) ∧
    ∃ c ∈ up.ctxs, c.resident = true := by
  refine ⟨?_, ⟨?_, ?_, ?_⟩, ⟨?_, ?_, ?_, ?_⟩, ?_, ⟨?_, ?_, ?_⟩, ?_, ?_, ?_⟩ <;> decide +kernel

/-- A table locked to the vblank of pipe 2 with a slot at time 100 and one that waits for that vblank. -/
def table : Table :=
  { defaultTable 0xFFF 3 with
    lock := 1
    pipe := 2
    slots := [{ start := 100, length := 50, cls := 2, trigger := 0, clMask := 0xFFF, nsMask := 3, ceMask := 15, rsvShare := 0, ctx := 0,
                tenant := 0, pipe := 0, port := 0, vc := 0, limit := 0 },
              { start := 200, length := 50, cls := 2, trigger := 1, clMask := 0xFFF, nsMask := 3, ceMask := 15, rsvShare := 0, ctx := 0,
                tenant := 0, pipe := 2, port := 0, vc := 0, limit := 30 }] }

/-- The device at 1,000 µs, 500 µs after its last boundary. -/
def timed (t : Table) (runs : List SlotRun) (events : List (EventSrc × Nat)) : State :=
  { up with now := 1000, sluice := { up.sluice with active := t, runs := runs, boundary := 500, events := events } }

/-- An open slot. -/
def openRun : SlotRun := { resetSlotRun with opened := true, isOpen := true, openedAt := 600 }

theorem witness_roundsAndSlots :
    (up.tableRuns = true ∧ up.sluice.active.lock = 0 ∧ table.lockSrc = some (.vblank 2)) ∧
    (let l := (timed table [] [(.vblank 2, 999), (.vblank 2, 1000)]).sluice
     (l.events.find? fun e => decide (e.1 = .vblank 2) && (decide (l.boundary < e.2) || l.lockLost) &&
       (l.lockLost || decide (l.active.period ≤ 2 * (e.2 - l.boundary)))) = some (.vblank 2, 1000)) ∧
    (∀ e ∈ (timed table [] [(.vblank 2, 500)]).sluice.events, e.1 = .vblank 2 → e.2 ≤ 500) ∧
    (up.sluice.armed = none ∧ up.sluice.contended = [] ∧ up.sluice.deferred = []) ∧
    (let l := (timed table [resetSlotRun, resetSlotRun] [(.vblank 2, 730)]).sluice
     l.active.slots[0]?.bind l.opensAt = some 600 ∧ l.active.slots[1]?.bind l.opensAt = some 730) ∧
    (openRun.openedAt + 50 ≤ (up.advance 650).now) ∧
    (let l := (timed table [resetSlotRun, resetSlotRun] [(.vblank 2, 731)]).sluice
     l.active.slots[1]?.bind l.opensAt = none ∧ l.boundary + 200 + 30 < 731) := by
  refine ⟨⟨?_, ?_, ?_⟩, ?_, ?_, ⟨?_, ?_, ?_⟩, ⟨?_, ?_⟩, ?_, ?_, ?_⟩ <;> decide +kernel

/-- The device with a kernel ready for a free cluster. -/
def readyKernel : State :=
  { up with jobs := [{ job with kind := .kernel desc 0 0 1 }], nextJob := 1, sluice := { up.sluice with ready := [⟨0, .kernel⟩] } }

/-- A queue that waits for a fence at 0x500 of a range. -/
def waiter (q : Nat) (remote : Bool) : Queue := { queue with q := q, wait := some ⟨origin, if remote then 0x20000500 else 0x500, 9, remote, none, 0, 0⟩ }

/-- The device with this cluster 0. -/
def withHead (cl : Cluster) : State :=
  { up with clusters := cl :: (List.replicate 47 resetCluster) }

theorem witness_schedulingAndPolls :
    (let s := readyKernel
     s.procUp 1 = true ∧ s.enabled (.cluster 5) = true ∧ s.islandThere 5 = true ∧ s.aon.mode = .a ∧ s.sluice.openSlots = [] ∧
       s.pick (.cluster 5) = .claim key false none ∧ s.coolerFree (.cluster 5) none = false) ∧
    (let s := withHead { resetCluster with core := { resetEngine with sw := some { out := some key, into := none } } }
     s.unitDrained (.cluster 0) key = true ∧ (s.engine? (.cluster 0)).map (·.sw) = some (some { out := some key, into := none })) ∧
    (let s := { up with ctxs := [{ ctx with resident := false }] }
     s.wakes { ctx with resident := false } = true ∧ (s.ctxs.filter (·.resident)).length < 128) ∧
    (∀ t ∈ up.weir.temps, -1000 ≤ t) ∧
    (up.fenceAt key 0x500 needR).1.toOption = some (.dram, 0x1000500) ∧ up.inReset key = false ∧
    (let cl := { resetCluster with core := { resetEngine with ring := [.wait 0 3 key] } }
     let s := { withHead cl with queues := [waiter 3 true], ctxs := [{ ctx with resident := false }] }
     (s.engine? (.cluster 0)).map (·.ring) = some [.wait 0 3 key] ∧ s.queuesOf key = [waiter 3 true] ∧ s.islandUp 0 = true) := by
  refine ⟨⟨?_, ?_, ?_, ?_, ?_, ?_, ?_⟩, ⟨?_, ?_⟩, ⟨?_, ?_⟩, ?_, ?_, ?_, ?_, ?_, ?_⟩ <;> decide +kernel

/-! ## Display and cameras -/

/-- A protected rectangle of one pixel, with the checksum of the picture as the statement computes it. -/
def prot : ProtDesc :=
  { enable := true, format := 4, x := 0, y := 0, w := 0, h := 0, crc := 0x2144DF1C, content := 0x1000, fallback := 0x2000, fbCrc := 0,
    colour := 0, origin := none }

/-- An enabled configuration of 640 by 480 with a flat region of ten granules from granule 4. -/
def shown : PipeCfg := { resetPipeCfg with enable := true, prot := prot, flatCfg := 0x0A04 }

/-- The device with pipe 1 in a state of its own. -/
def withPipe (u : Pipe) : State := { up with pipes := modNth (fun _ => u) 1 up.pipes }

/-- An 8 by 4 RGBA8 surface at 0x1000 whose left half is shown mirrored at (2, 1). -/
def shownLayer : Layer :=
  { resetLayer with addr := 0x1000, format := 4, enable := true, flipX := true, surfW := 7, surfH := 3, cropW := 3, dstX := 2, dstY := 1, dstW := 3,
                    alpha := 255, key := some key }

/-- A pixel of a layer over DSP_BG: the mirrored crop's first column is the fourth of the surface; straight alpha of 0x33 blends
over the background (R207). -/
theorem test_composed :
    (let u : Pipe := { resetPipe with applied := { shown with bg := 0x3FF00005, layers := [shownLayer, { shownLayer with dstX := 20, blend := 2 }] },
                                      cache := cached, protState := .off }
     let t := { withPipe u with mem := up.mem.write .dram 0x100100C [0xFF, 0, 0x80, 0x33] }
     (t.framePixel 1 u 2 1 = [1023, 0, 514] ∧ t.framePixel 1 u 1 1 = [1023, 0, 5]) ∧ t.framePixel 1 u 20 1 = [1023, 0, 107] ∧
       t.outPixel 1 u 2 1 = [255, 0, 128]) := by
  decide +kernel

theorem witness_vblankCommits :
    (withPipe { resetPipe with armed := true, shadow := shown }).islandUp 0x69 = true ∧
    (withPipe { resetPipe with armed := true, shadow := shown }).pipes[1]? = some { resetPipe with armed := true, shadow := shown } ∧
    shown.owner = resetPipeCfg.owner ∧ resetPipe.cfgOk shown = true ∧ resetPipe.cfgOk { shown with sync := 0xFFFFFFFF } = false := by
  refine ⟨?_, ?_, ?_, ?_, ?_⟩ <;> decide +kernel

theorem witness_displayEvents :
    (withPipe resetPipe).pipes[1]? = some resetPipe ∧ (withPipe resetPipe).islandUp 0x69 = true ∧ (withPipe resetPipe).islandUp 0x6C = true ∧
    hostReaches (withPipe resetPipe) ∧
    (0x01F00000 : Word).toNat.testBit 24 = true ∧ (0x01F00000 : Word).toNat / 2 ^ 20 % 16 = 15 ∧
    (withPipe { resetPipe with applied := shown, flatWrite := some 2 }).flatNoRoom shown = false ∧
    (withPipe resetPipe).protBad prot .showing = [] ∧ (withPipe resetPipe).protBad prot .fallback = [] := by
  refine ⟨?_, ?_, ?_, ⟨?_, ?_, ?_⟩, ?_, ?_, ?_, ?_, ?_⟩ <;> decide +kernel

/-- 8 pixels of RAW8 in rows of 128 bytes. -/
def camDesc : CamDesc := { resetCamDesc with dt := 0x2A, enable := true, cropW := 7, cropH := 3, stride := 128 }

def binding : CamBinding := { key := key, count := 2, bytes := 512, record := 0, fence := 0, bufs := [0x1000, 0x2000, 0, 0, 0, 0, 0, 0] }

def frame : Frame := ⟨some 1, false, false, false, false, false, 0, 0, false, some binding, false⟩

def chan : Channel := { resetChannel with applied := camDesc, appliedBind := some binding }

/-- The device with receiver 0 running and its channel 2 in a state of its own. -/
def withChan (c : Channel) : State :=
  let upd := fun (p : Port) => { p with running := true, chans := modNth (fun _ => c) 2 p.chans }
  { up with camera := { up.camera with ports := modNth upd 0 up.camera.ports, cache := cached } }

def csiLine : CsiLine := ⟨0x2A, .good, false, 1, [1, 2, 3, 4, 5, 6, 7, 8]⟩

theorem witness_cameraEvents :
    (withChan chan).chan? 0 2 = some chan ∧ (withChan chan).islandUp 0x70 = true ∧ hostReaches (withChan chan) ∧
    (dtOk csiLine.dt.toNat = true ∧ csiLine.dt.toNat = camDesc.dt ∧ camDesc.outRow 1 = some 1 ∧ 1 * camDesc.stride + camDesc.rowBytes ≤ binding.bytes) ∧
    ((withChan { chan with cur := some frame }).camWrite chan key (binding.bufs.getD 1 0 + 1 * camDesc.stride) (camDesc.lineBytes csiLine.pixels)).1 = none ∧
    ((withChan chan).ctx? key).map (·.st) = some .active ∧ chan.pickBuffer binding = some 0 ∧ (0x3F : Nat) ≠ camDesc.dt := by
  refine ⟨?_, ?_, ⟨?_, ?_, ?_⟩, ⟨?_, ?_, ?_, ?_⟩, ?_, ?_, ?_, ?_⟩ <;> decide +kernel

/-! ## The host link -/

theorem witness_hostRegisters :
    (∃ f, up.funs[1]? = some f ∧ f.d3hot = false ∧ f.mboxBusy = false ∧ f.st = .ready) ∧ hostReaches up ∧
    ∃ f, ({ up with funs := up.funs.map fun (f : Fun) => { f with service := .test } } : State).funs[1]? = some f ∧ f.service = .test := by
  refine ⟨⟨_, rfl, ?_, ?_, ?_⟩, ⟨?_, ?_, ?_⟩, _, rfl, ?_⟩ <;> decide +kernel

/-- The queue as a doorbell finds it: halted, or being destroyed. -/
def bell (u : Queue) : State := { up with queues := [u] }

theorem witness_doorbells :
    hostReaches up ∧ up.queue? 0 3 = some queue ∧ up.queue? 0 5 = none ∧ up.ctx? ⟨0, queue.ctx⟩ = some ctx ∧
    (bell { queue with halted := true }).queue? 0 3 = some { queue with halted := true } ∧ queue.destroying = none ∧ ctx.st ≠ .destroying ∧
    ((0x0000003F000000FF : BitVec 64).toNat % 2 ^ 32 < 2 ^ queue.ringLog2 ∧ (0x0000003F000000FF : BitVec 64).toNat / 2 ^ 32 < 2 ^ queue.statusLog2) ∧
    2 ^ queue.ringLog2 ≤ (0x00000000_00000100 : BitVec 64).toNat % 2 ^ 32 ∧ 2 ^ queue.statusLog2 ≤ (0x00000040_00000000 : BitVec 64).toNat / 2 ^ 32 := by
  refine ⟨⟨?_, ?_, ?_⟩, ?_, ?_, ?_, ?_, ?_, ?_, ⟨?_, ?_⟩, ?_, ?_⟩ <;> decide +kernel

/-- The device with BAR2 of 256 MiB and granule 1 of the Reservoir protected. -/
def apertured : State :=
  let wide := fun (f : Fun) => { f with bar2Log2 := 28 }
  { up with levee := { up.levee with protMask := 2 }, funs := up.funs.map wide }

theorem witness_apertures :
    hostReaches apertured ∧ apertured.apertureShut 0 = false ∧
    (∃ f, apertured.funs[0]? = some f ∧ f.d3hot = false ∧ 0x1080 + 8 ≤ 2 ^ f.bar2Log2 ∧
      windowAddr f.dramWin (f.aperture2.toNat % 1024 * 67108864 + 0x1080) = some 0x1080) ∧
    (apertured.ownsRsv 0 0x40 8 = true ∧ apertured.touchesProtected 0x40 8 = false ∧ apertured.touchesRt 0 .reservoir 0x40 8 = false ∧
      apertured.mem.writable .reservoir 0x40 8 = true ∧ apertured.poisoned .reservoir 0x40 8 = false) ∧
    apertured.touchesProtected (granuleBytes + 16) 8 = true ∧ apertured.ownsRsv 0 0x4000000 8 = false ∧
    apertured.poisoned .dram 0x1080 8 = false ∧ apertured.touchesRt 0 .dram 0x1080 8 = false ∧
    apertured.retrainingIn [(0x1080, 8)] = false ∧ (apertured.funs.all fun f => f.bar2Wait.isEmpty) = true := by
  refine ⟨⟨?_, ?_, ?_⟩, ?_, ⟨_, rfl, ?_, ?_, ?_⟩, ⟨?_, ?_, ?_, ?_, ?_⟩, ?_, ?_, ?_, ?_, ?_, ?_⟩ <;> decide +kernel

/-! ## Packets -/

/-- A packet of queue 3 of PF0: LEN and the dwords that follow its header. -/
def packet (len : Nat) (params : List Word) : Packet :=
  { barrier := false, irq := false, rsv0 := 0, len := BitVec.ofNat 16 len, seq := 7, ctx := 1, queue := 3, rsv3 := 0, params := params, ring := .ok,
    named := .ok }

/-- The queue listed with 100 units of ring written. -/
def sent (s : State) : State :=
  let list := fun (f : Fun) => { f with fifo := [3] }
  { s with funs := modNth list 0 s.funs, queues := s.queues.map fun u => { u with write := 100 } }

/-- The packet at its opcode's checks, and the state after the reads of the ring. -/
def pkOf (spec : OpSpec) (p : Packet) : Pk :=
  { src := .queue 0 3, fn := 0, key := some key, origin := packetOrigin p (.queue 0 3) spec.opcode, bytes := packetBytes p, named := p.named }

def theQueue (s : State) : Queue := (s.queue? 0 3).getD queue
def headerOf (p : Packet) (s : State) : State := (s.ringRead (theQueue s) (theQueue s).read 16 p.ring).2
def bodyOf (p : Packet) (s : State) : State := ((headerOf p s).ringRead (theQueue s) (theQueue s).read (4 * p.len.toNat) p.ring).2
def head (p : Packet) (s : State) : State := offHead (.queue 0 3) p (bodyOf p s)

/-- Nothing holds the packet at the head of the queue. -/
def atHead (spec : OpSpec) (p : Packet) (s : State) : Bool :=
  let u := theQueue s
  let a := headerOf p s
  let L := p.len.toNat
  (decide (s.queue? 0 3 = some u) && decide (u.ctx = 1) && (s.ctx? key).isSome && ((s.ctx? key).all fun c => decide (c.st ≠ .destroying)) && s.serves 0) &&
  (!u.halted && decide (u.destroying = none) && decide (u.wait = none) && decide (u.held = none) && !s.awaitsReply 0 3) &&
  (s.mayServe 0 3 && decide (u.read ≠ u.write) && decide (u.owed + u.deferred < u.free)) &&
  (decide ((s.ringRead u u.read 16 p.ring).1 = none) && decide ((a.ringRead u u.read (4 * L) p.ring).1 = none)) &&
  (lenValid L && decide (u.read + L / 4 ≤ 2 ^ u.ringLog2) && decide (L / 4 ≤ (u.write + 2 ^ u.ringLog2 - u.read) % 2 ^ u.ringLog2)) &&
  (!p.barrier && (!spec.job || decide ((a.startedJobs (.queue 0 3)).length < 64)) && decide (p.queue = 3) && decide (p.ctx = 1) && decide (p.rsv0 = 0) &&
    decide (p.rsv3 = 0) && !(s.neverEnds 0 p.ring) && !(s.neverEnds 0 p.named))

/-- Headgate comes to the opcode's own checks. -/
def takes (spec : OpSpec) (p : Packet) (s : State) : Bool :=
  let pk := pkOf spec p
  let t := head p s
  atHead spec p s && (spec.assigned && t.mayIssue spec pk && decide (p.len.toNat = spec.len pk) &&
    ((t.ctx? key).all fun c => (decide (c.st ≠ .lost) || spec.lostOk) && (decide (c.st ≠ .faulted) || !spec.job)) &&
    decide (firstReserved pk (spec.reserved pk) = none))

theorem atHead_holds {spec : OpSpec} {p : Packet} {s : State} (h : atHead spec p s = true) :
    Reaches spec (.queue 0 3) p (pkOf spec p) s (bodyOf p s) := by
  simp only [atHead, Bool.and_eq_true, decide_eq_true_eq, Bool.or_eq_true, Bool.not_eq_true', Option.isSome_iff_exists] at h
  obtain ⟨⟨⟨⟨⟨⟨⟨⟨⟨hq, hc⟩, c, hx⟩, hd⟩, hs⟩, ⟨⟨⟨h1, h2⟩, h3⟩, h4⟩, haw⟩, ⟨h5, h6⟩, h7⟩, hr, hb⟩, ⟨h8, h9⟩, h10⟩, ⟨⟨⟨⟨⟨⟨h11, h12⟩, h13⟩, h14⟩, h15⟩, h16⟩, h17⟩, h18⟩ := h
  have hk : s.ctx? ⟨0, (theQueue s).ctx⟩ = some c := by rw [hc]; exact hx
  rw [hx] at hd
  have hn : p.queue.toNat = 3 ∧ p.ctx.toNat = (theQueue s).ctx := by rw [h13, h14, hc]; exact ⟨rfl, rfl⟩
  refine ⟨theQueue s, c, headerOf p s, ⟨hq, hk, by simpa using hd, hs, ⟨h1, h2, h3⟩, ?_, haw, h5, h6, h7, Prod.ext hr rfl, Prod.ext hb rfl,
    ⟨h8, h9⟩, h10, ?_, ?_, hn, ⟨h15, h16⟩, h17, h18⟩, ?_⟩
  · intro x hh; rw [h4] at hh; cases hh
  · intro hh; rw [h11] at hh; cases hh
  · intro hh; cases h12 with
    | inl h => rw [h] at hh; cases hh
    | inr h => exact h
  · rw [hc]; rfl

theorem takes_holds {spec : OpSpec} {p : Packet} {s : State} (h : takes spec p s = true) :
    Taken spec (.queue 0 3) p (pkOf spec p) s (bodyOf p s) := by
  simp only [takes, Bool.and_eq_true, decide_eq_true_eq] at h
  obtain ⟨ha, ⟨⟨⟨h1, h2⟩, h3⟩, h4⟩, h5⟩ := h
  refine ⟨atHead_holds ha, h1, h2, h3, ?_, ?_, h5⟩
  · intro k c hk hc hl
    obtain rfl : key = k := by simpa [pkOf] using hk
    change (head p s).ctx? key = some c at hc
    rw [hc] at h4
    simpa [hl] using h4
  · intro k c hk hc hl
    obtain rfl : key = k := by simpa [pkOf] using hk
    change (head p s).ctx? key = some c at hc
    rw [hc] at h4
    simpa [hl] using h4

/-- The context in a state of its own. -/
def inState (st : CtxState) : State := sent { up with ctxs := [{ ctx with st := st }] }

theorem witness_packetChecks :
    (Taken nopSpec (.queue 0 3) (packet 4 []) (pkOf nopSpec (packet 4 [])) (sent up) (bodyOf (packet 4 []) (sent up))) ∧
    (Reaches (unassignedSpec 0xEE) (.queue 0 3) (packet 4 []) (pkOf (unassignedSpec 0xEE) (packet 4 [])) (sent up) (bodyOf (packet 4 []) (sent up))) ∧
    (0xEE : BitVec 8).toNat ∉ assignedOpcodes ∧
    (Reaches ctxReplaySpec (.queue 0 3) (packet 8 [1, 0, 0, 0]) (pkOf ctxReplaySpec (packet 8 [1, 0, 0, 0])) (inState .lost)
      (bodyOf (packet 8 [1, 0, 0, 0]) (inState .lost))) ∧
    ((head (packet 8 [1, 0, 0, 0]) (inState .lost)).ctx? key).map (·.st) = some .lost ∧
    (Reaches ctxReplaySpec (.queue 0 3) (packet 12 [1, 0, 0, 0]) (pkOf ctxReplaySpec (packet 12 [1, 0, 0, 0])) (sent up)
      (bodyOf (packet 12 [1, 0, 0, 0]) (sent up))) ∧
    (Reaches ctxReplaySpec (.queue 0 3) (packet 8 [0x401, 0, 0, 0]) (pkOf ctxReplaySpec (packet 8 [0x401, 0, 0, 0])) (sent up)
      (bodyOf (packet 8 [0x401, 0, 0, 0]) (sent up))) ∧ (pkOf ctxReplaySpec (packet 8 [0x401, 0, 0, 0])).f 0 31 10 ≠ 0 :=
  ⟨takes_holds (by decide +kernel), atHead_holds (by decide +kernel), by decide +kernel, atHead_holds (by decide +kernel), by decide +kernel,
    atHead_holds (by decide +kernel), atHead_holds (by decide +kernel), by decide +kernel⟩

theorem witness_packetHolds :
    (let s := sent up
     s.ctx? ⟨0, (theQueue s).ctx⟩ = some ctx ∧ s.serves 0 = true ∧ s.awaitsReply 0 3 = false ∧ s.mayServe 0 3 = true ∧ s.queue? 0 3 = some (theQueue s) ∧
     (theQueue s).read ≠ (theQueue s).write ∧ (theQueue s).owed + (theQueue s).deferred < (theQueue s).free ∧
     (s.ringRead (theQueue s) 0 16 .ok).1 = none ∧ lenValid 6 = false ∧ lenValid 4 = true) ∧
    ({ queue with owed := 60, deferred := 4 } : Queue).free ≤ 60 + 4 ∧
    ((sent { up with queues := [{ queue with ringAddr := 0x90000000 }] }).ringRead { theQueue (sent up) with ringAddr := 0x90000000 } 0 16 .ok).1 =
      some (.noRange, 0x90000000) ∧
    ({ theQueue (sent up) with owed := 1 } : Queue).owed ≠ countIf Job.armed ((headerOf (packet 4 []) (sent up)).startedJobs (.queue 0 3)) := by
  refine ⟨⟨?_, ?_, ?_, ?_, ?_, ?_, ?_, ?_, ?_, ?_⟩, ?_, ?_, ?_⟩ <;> decide +kernel

/-! ## Contexts, queues and ranges -/

/-- A second context of the function, and a second queue of the first. -/
def other : Ctx := { ctx with key := ⟨0, 2⟩, rt := 0x4000000002000000, ring := 0x2900000, resident := false, ranges := [] }
def two : State := sent { up with ctxs := [ctx, other], queues := [queue, { queue with q := 9, ringAddr := 0x20000, statusAddr := 0x40000 }] }

def createCtx : Packet := packet 12 [0x10005, 4, 0x200000, 0, 0x01800000, 0x40000000, 0x2800000, 0]
def destroyCtx : Packet := packet 8 [2, 0, 0, 0]
def createQueue : Packet := packet 12 [0x10008, 0x0000A608, 0x20000, 0, 0x40000, 0, 0, 0]
def destroyQueue : Packet := packet 8 [9, 0, 0, 0]

def teardown : Teardown := ⟨origin, [(0x500, 1)], [], true, false, none, none⟩

theorem witness_ctxCreate :
    takes ctxCreateSpec createCtx (sent up) = true ∧
    (let s1 := head createCtx (sent up)
     let pk := pkOf ctxCreateSpec createCtx
     let c := newCtx ⟨0, 5⟩ pk
     pk.f 0 9 0 = 5 ∧ s1.ctx? ⟨0, 5⟩ = none ∧ c.prot = false ∧ 1 ≤ c.maxClusters ∧ c.maxClusters ≤ 44 ∧ c.save % 65536 = 0 ∧
       fnAddrOk (pk.f 0x10 63 0) 65536 = true ∧ fnAddrOk (pk.f 0x18 63 0) 4096 = true ∧ s1.fnAreaOk 0 c.rt 131072 = true ∧
       s1.fnAreaOk 0 c.ring 4096 = true ∧ s1.rtFree 0 c.rt = true ∧ s1.ctxs.length < 1024) := by
  refine ⟨?_, ?_, ?_, ?_, ?_, ?_, ?_, ?_, ?_, ?_, ?_, ?_, ?_⟩ <;> decide +kernel

theorem witness_ctxDestroy :
    takes ctxDestroySpec destroyCtx two = true ∧
    ((head destroyCtx two).named (pkOf ctxDestroySpec destroyCtx) 2 0 true).toOption = some other ∧ some key ≠ some other.key := by
  refine ⟨?_, ?_, ?_⟩ <;> decide +kernel

theorem witness_queueCreate :
    takes queueCreateSpec createQueue (sent up) = true ∧
    (let s1 := head createQueue (sent up)
     let pk := pkOf queueCreateSpec createQueue
     let u := newQueue 0 pk
     u.q = 8 ∧ (s1.named pk u.ctx 2 false).toOption = some ctx ∧ s1.queue? 0 u.q = none ∧ u.ringLog2 = 8 ∧ u.statusLog2 = 6 ∧
       (s1.ringOk key u.ringAddr (16 * 2 ^ u.ringLog2) false).1 = true ∧ (s1.ringOk key u.statusAddr (32 * 2 ^ u.statusLog2) true).1 = true ∧
       (s1.queuesOf key).length < 16) := by
  refine ⟨?_, ?_, ?_, ?_, ?_, ?_, ?_, ?_, ?_⟩ <;> decide +kernel

theorem witness_queueDestroy :
    takes queueDestroySpec destroyQueue two = true ∧
    (let s1 := head destroyQueue two
     let pk := pkOf queueDestroySpec destroyQueue
     pk.f 0 13 0 = 9 ∧ (s1.queue? 0 9).map (·.destroying) = some none ∧ pk.fromQueue 9 = false ∧ (s1.ctx? key).map (·.st) = some .active) := by
  refine ⟨?_, ?_, ?_, ?_, ?_⟩ <;> decide +kernel

theorem witness_teardown :
    let c : Ctx := { ctx with st := .destroying, teardown := some teardown }
    let s : State := { up with ctxs := [c] }
    s.ctx? key = some c ∧ s.procUp 0 = true ∧ s.ctxQuiet key = true ∧
      s.stillShown (fun l => decide (l.key = some key)) (fun b => decide (b.key = key)) = false ∧
      (runAll (fun (f : Nat × Nat) (s : State) => s.setError key f.1 f.2 none teardown.origin) teardown.fences s).pcie.linkUp = true ∧
      (runAll (fun (f : Nat × Nat) (s : State) => s.setError key f.1 f.2 none teardown.origin) teardown.fences
        ({ s with pcie := { s.pcie with linkUp := false } } : State)).pcie.linkUp = false := by
  refine ⟨?_, ?_, ?_, ?_, ?_, ?_⟩ <;> decide +kernel

def mapOne : Packet := packet 16 [0x10001, 0, 0, 0, 0x40000000, 0, 0, 0xC, 0x2000000, 0, 0x77, 0]
def unmapTwo : Packet := packet 12 [0x20001, 0, 0, 0, 0x20000000, 0, 0x10000000, 0]
def checkTable : Packet := packet 8 [1, 0, 0x600, 0]

theorem witness_rangeMap :
    takes rangeMapSpec mapOne (sent up) = true ∧
    (let s1 := head mapOne (sent up)
     let pk := pkOf rangeMapSpec mapOne
     let es := mapEntries pk
     (s1.named pk 1 0 false).toOption = some ctx ∧ es = [⟨0x40000000, 0, .dram, true, true, false, false, false, 0x2000000, 0x77⟩] ∧
       badEntry pk 0 = none ∧ firstOverlap 0 ctx.ranges es = none ∧ (∀ e ∈ es, s1.entryInLevee ctx e = true)) := by
  refine ⟨?_, ?_, ?_, ?_, ?_, ?_⟩ <;> decide +kernel

theorem witness_rangeUnmap :
    takes rangeUnmapSpec unmapTwo (sent up) = true ∧
    (let pk := pkOf rangeUnmapSpec unmapTwo
     ((head unmapTwo (sent up)).named pk 1 0 true).toOption = some ctx ∧ pk.f 0 24 16 = 2 ∧
       firstBadStart ctx.ranges 0 [] [0x20000000, 0x10000000] = none) := by
  refine ⟨?_, ?_, ?_, ?_⟩ <;> decide +kernel

theorem witness_rangeCheck :
    takes rangeCheckSpec checkTable (sent up) = true ∧
    (let s1 := head checkTable (sent up)
     let pk := pkOf rangeCheckSpec checkTable
     (s1.named pk 1 0 true).toOption = some ctx ∧ (s1.translate .headgate key (pk.f 8 47 0) 32 needW).1.toBool = true ∧
       (s1.rtUe ctx).1 = none) := by
  refine ⟨?_, ?_, ?_, ?_⟩ <;> decide +kernel

/-- An unmapping of the DRAM range that waits for its drain. -/
def unmap : Unmap := { origin := origin, ranges := ranges.take 1, waiting := [], epochs := [(.engine (.cluster 0), 1)], needsFlush := true, drained := false, flushTag := none }

theorem witness_unmapDrained :
    let c : Ctx := { ctx with unmaps := [{ unmap with drained := true }, unmap] }
    let s : State := { up with ctxs := [c] }
    (c.unmaps.find? fun u => !u.drained) = some unmap ∧ s.drained unmap.epochs = true ∧
      s.stillShown (Layer.names key unmap.ranges) (CamBinding.names key unmap.ranges) = false := by
  refine ⟨?_, ?_, ?_⟩ <;> decide +kernel

/-- R275: a queue whose unmapping has not replied takes no packet, and another queue of the context does. -/
theorem test_unmapHoldsItsQueue :
    let s : State := { up with ctxs := [{ ctx with unmaps := [unmap] }] }
    s.awaitsReply 0 3 = true ∧ s.awaitsReply 0 9 = false := by
  decide +kernel

/-! ## Fences and jobs -/

/-- A fence packet on the fence at 0x500, with a value. -/
def fencePacket (v : Word) : Packet := packet 8 [0x500, 0, v, 0]

/-- The device with the fence's VALUE and ERROR as given, and the queue listed. -/
def fenced (value error : Nat) : State :=
  sent { up with mem := { up.mem with dram := writeBytes 0x1000500 (toLE 8 value ++ toLE 4 error) [] } }

/-- R267: the reply to FENCE_SIGNAL names the value of the packet, the reply to FENCE_INIT names none. -/
theorem test_packetValue : packetValue 0x31 (fencePacket 8) = 8 ∧ packetValue 0x30 (fencePacket 8) = 0 := by
  decide +kernel

theorem witness_fenceCommands :
    (takes (fenceSpec 0x30) (fencePacket 5) (fenced 7 9) && takes (fenceSpec 0x31) (fencePacket 8) (fenced 7 9) &&
      takes (fenceSpec 0x32) (fencePacket 8) (fenced 7 9)) = true ∧
    (let s1 := head (fencePacket 8) (fenced 7 9)
     let a := s1.fenceOk key 0x500 needWA
     a.1 = some .dram ∧ (a.2.fenceAt key 0x500 needWA).1.toOption = some (.dram, 0x1000500) ∧
       (a.2.fenceAt key 0x500 needWA).2.fenceValue .dram 0x1000500 = 7 ∧ (a.2.fenceAt key 0x500 needWA).2.fenceError .dram 0x1000500 = 9) ∧
    (let s1 := head (fencePacket 8) (fenced 7 0)
     let a := s1.fenceOk key 0x500 needR
     a.1 = some .dram ∧ a.2.procUp 1 = true ∧ (a.2.fenceAt key 0x500 needR).1.toOption = some (.dram, 0x1000500) ∧
       (a.2.fenceAt key 0x500 needR).2.fenceError .dram 0x1000500 = 0) ∧
    (let p := packet 8 [0x20000500, 0, 8, 0]
     takes (fenceSpec 0x32) p (sent up) = true ∧ ((head p (sent up)).fenceOk key 0x20000500 needR).1 = some .host) ∧
    (let c : Ctx := { ctx with st := .faulted, episode := some ⟨0, 1, 0, true, false⟩ }
     let s := sent { up with ctxs := [c] }
     let p := packet 8 [1, 0, 0, 0]
     takes ctxReplaySpec p s = true ∧ ((head p s).named (pkOf ctxReplaySpec p) 1 0 false).toOption = some c ∧ ∀ e, c.episode = some e → e.waiting = false) := by
  refine ⟨?_, ⟨?_, ?_, ?_, ?_⟩, ⟨?_, ?_, ?_, ?_⟩, ⟨?_, ?_⟩, ?_, ?_, ?_⟩ <;> decide +kernel

/-- A job that is over, with the fence at 0x500. -/
def ended (o : JobOutcome) : Job := { job with outcome := o, fence := 0x500, value := 8 }

theorem witness_jobEnds :
    (let s : State := { fenced 7 0 with jobs := [ended .complete], nextJob := 1 }
     s.job? 0 = some (ended .complete) ∧ s.jobIdle 0 = true ∧ s.procUp 0 = true ∧ s.fatal = false ∧ s.inReset key = false ∧
       (s.fenceAt key 0x500 needWA).1.toOption = some (.dram, 0x1000500) ∧ (s.fenceAt key 0x500 needWA).2.fenceValue .dram 0x1000500 < 8) ∧
    ((fenced 8 0).fenceAt key 0x500 needWA).2.fenceValue .dram 0x1000500 = 8 ∧
    ({ fenced 7 0 with jobs := [ended (.reset 5)] } : State).job? 0 = some (ended (.reset 5)) ∧
    ({ fenced 7 0 with jobs := [ended .contextLost] } : State).job? 0 = some (ended .contextLost) := by
  refine ⟨⟨?_, ?_, ?_, ?_, ?_, ?_, ?_⟩, ?_, ?_, ?_⟩ <;> decide +kernel

/-- A job packet with the fence at 0x500 and value 8, whose descriptor is at 0x2000. -/
def jobPacket : Packet := packet 12 [0x500, 0, 8, 0, 0x2000, 0, 0, 0]

/-- The device with bytes at 0x2000 and 0x3000 of the context's DRAM range. -/
def holding (a b : List Byte) : State :=
  sent { up with mem := { up.mem with dram := writeBytes 0x1003000 b (writeBytes 0x1002000 a []) } }

def dw (xs : List Nat) : List Byte := xs.flatMap (toLE 4)

/-- 256 bytes from 0x10000 to 0x20000. -/
def copyBytes : List Byte := dw [0x10000, 0, 0x20000, 0, 0, 256, 1, 1, 0, 0, 0, 0, 0, 0, 0, 0]

/-- A pass of one draw, with no attachment, whose draw list is at 0x3000. -/
def passBytes : List Byte := dw [0, 0, 0, 0, 0, 0, 0x400000, 0, 0x10000000, 0, 0x3000, 0, 1, 0, 0, 0] ++ List.replicate 448 0
def drawBytes : List Byte := dw [0x3040, 0, 0x3040, 0, 0, 0, 3, 1, 0x1000, 0, 0, 0, 0, 0, 0, 0]
def drawKernel : List Byte := dw [0x2000, 0, 0, 0, 0x10010, 0, 1, 1, 1, 0, 0, 0, 0, 0, 0, 0]

def kernelPacket : Packet := packet 24 [0x500, 0, 8, 0, 0x2000, 0, 0, 0, 16, 0, 1, 1, 1, 0, 0, 0, 0, 0, 0, 0]

theorem witness_copyAndKernel :
    (let s := holding copyBytes []
     let s1 := head jobPacket s
     let pk := pkOf (jobSpec 0x45) jobPacket
     takes (jobSpec 0x45) jobPacket s = true ∧ (s1.jobFenceOk key pk).1 = true ∧
       ((s1.jobFenceOk key pk).2.readNamed pk (pk.f 0x10 47 0) 64 64).1 = some copyBytes ∧ copyBad copyBytes (parseCopy copyBytes) = none) ∧
    (let s := sent up
     let pk := pkOf kernelSpec kernelPacket
     let d := parseKernel ((pk.bytes.drop 0x10).take 64)
     takes kernelSpec kernelPacket s = true ∧ ((head kernelPacket s).jobFenceOk key pk).1 = true ∧ d.vregs ≠ 0 ∧ d.threads ≤ 1024 ∧ d.gridX ≠ 0 ∧
       d.gridY ≠ 0 ∧ d.gridZ ≠ 0 ∧ d.tooLarge = false) := by
  refine ⟨⟨?_, ?_, ?_, ?_⟩, ?_, ?_, ?_, ?_, ?_, ?_, ?_, ?_⟩ <;> decide +kernel

theorem witness_passSubmit :
    let s := holding passBytes (drawBytes ++ drawKernel)
    let pk := pkOf (jobSpec 0x40) jobPacket
    let d := parsePass passBytes
    let s2 := ((head jobPacket s).jobFenceOk key pk).2
    let s3 := (s2.readNamed pk (pk.f 0x10 47 0) 512 256).2
    takes (jobSpec 0x40) jobPacket s = true ∧ (s2.readNamed pk (pk.f 0x10 47 0) 512 256).1 = some passBytes ∧ passOk passBytes = true ∧
      (s3.readVa .headgate key d.drawList (64 * d.drawCount)).1.toOption = some drawBytes ∧ drawOk drawBytes = true ∧
      ((s3.readVa .headgate key d.drawList (64 * d.drawCount)).2.bufferOk key d).1 = true ∧
      (((s3.readVa .headgate key d.drawList (64 * d.drawCount)).2.bufferOk key d).2.kernelsBad key [parseDraw drawBytes]).1 = none ∧
      vertexSum [parseDraw drawBytes] < 2 ^ 32 ∧ d.tileNet = 0 ∧ d.tooLarge = none := by
  refine ⟨?_, ?_, ?_, ?_, ?_, ?_, ?_, ?_, ?_, ?_⟩ <;> decide +kernel

/-- A network of one layer, and an image of it with its binding table. -/
def layerBytes : List Byte := dw [0x01000106] ++ List.replicate 124 0
def imageTail : List Byte := layerBytes ++ dw [1, 0, 0, 0, 0, 0, 0, 0]
def imageBytes : List Byte :=
  dw [0x4956534E, 0x100, 416, 1, 0, 0x10000, 0x100, 0x180, 0, 0, 0, 0, 0, 0, 0, 0] ++ sha256 imageTail ++ List.replicate 160 0 ++ imageTail
def loadBytes : List Byte := dw [0x3000, 0, 416, 0, 0x10000000, 0, 4, 0, 0x7000, 0, 0, 0, 0, 0, 0, 0]
def loadPacket : Packet := packet 8 [0x2000, 0, 0, 0]

def imageNet : Net := parseNet loadBytes imageBytes 1
def runBytes : List Byte := dw [1, 0, 0, 0, 1, 0, 0x8000, 0] ++ List.replicate 128 0
def unloadPacket : Packet := packet 8 [1, 0, 0, 0]

theorem witness_netLoad :
    let s := holding loadBytes imageBytes
    let pk := pkOf netLoadSpec loadPacket
    let s1 := head loadPacket s
    let s2 := (s1.readNamed pk (pk.f 0 47 0) 64 64).2
    let s3 := (s2.readNamed pk 0x3000 416 4096).2
    takes netLoadSpec loadPacket s = true ∧ (s1.readNamed pk (pk.f 0 47 0) 64 64).1 = some loadBytes ∧
      (s2.readNamed pk 0x3000 416 4096).1 = some imageBytes ∧ headerValid imageBytes 416 = true ∧
      sha256 (imageBytes.drop 0x100) = (imageBytes.drop 0x40).take 32 ∧ firstBadLayer 1 0 0 0 (imgParts imageBytes 0x100 128 1) = none ∧
      (imgParts imageBytes 0x180 32 1).all bindingOk = true ∧ imageNet.tileOk = true ∧ (s3.arenaOk key imageNet).1 = true ∧ imageNet.need ≤ imageNet.granules := by
  refine ⟨?_, ?_, ?_, ?_, ?_, ?_, ?_, ?_, ?_, ?_⟩ <;> decide +kernel

theorem witness_netRunAndUnload :
    let s : State := { holding runBytes [] with ctxs := [{ ctx with nets := [imageNet], nextHandle := 2 }] }
    let pk := pkOf (jobSpec 0x43) jobPacket
    let s2 := ((head jobPacket s).jobFenceOk key pk).2
    takes (jobSpec 0x43) jobPacket s = true ∧ (s2.readNamed pk (pk.f 0x10 47 0) 160 32).1 = some runBytes ∧ s2.net? key 1 = some imageNet ∧
      runOk runBytes (parseRun runBytes) imageNet = true ∧ (parseRun runBytes).trigger = false ∧ takes netUnloadSpec unloadPacket s = true ∧
      ((head unloadPacket s).net? key 1).isSome = true ∧ (head unloadPacket s).handleUsed key 1 = false := by
  refine ⟨?_, ?_, ?_, ?_, ?_, ?_, ?_, ?_⟩ <;> decide +kernel

/-! ## Display, camera and management packets -/

/-- A protected context of PF0, with granule 0 of the Reservoir protected. -/
def guarded : State :=
  let fill := fun (u : Pipe) => { u with cache := cached }
  let s : State := { up with pipes := up.pipes.map fill }
  sent { s with ctxs := [{ ctx with prot := true }], levee := { up.levee with protMask := 1 }, camera := { up.camera with cache := cached } }

def idlePipe : Pipe := { resetPipe with cache := cached }

def layerPacket : Packet := packet 20 ([0x101, 0, 0, 0, 0, 0, 0, 0, 0x104] ++ List.replicate 7 0)
def commitPacket : Packet := packet 8 [1, 0, 0, 0]
def protectPacket : Packet := packet 20 ([0x405, 0, 0, 0x2144DF1C, 0x1000, 0x2000] ++ List.replicate 10 0)
def camPacket : Packet := packet 16 [0x200, 0, 0, 0, 0x6A, 0, 0x00030007, 128, 0, 0, 0, 0]
def bindPacket : Packet := packet 32 ([0x200, 0, 0, 0, 2, 512, 0, 0, 0, 0, 0, 0, 0x1000, 0, 0x2000, 0] ++ List.replicate 12 0)

theorem witness_layerAndCommit :
    takes layerSetSpec layerPacket guarded = true ∧ packetLayers (pkOf layerSetSpec layerPacket) ≠ [] ∧
    (checkLayers 1 key (enumFrom 0 (packetLayers (pkOf layerSetSpec layerPacket))) (head layerPacket guarded)).1 = none ∧
    takes dspCommitSpec commitPacket guarded = true ∧ (head commitPacket guarded).pipes[1]? = some idlePipe ∧
    (let s : State := { guarded with pipes := modNth (fun (u : Pipe) => { u with armed := true }) 1 guarded.pipes }
     takes dspCommitSpec commitPacket s = true ∧ (head commitPacket s).pipes[1]?.map (·.armed) = some true) := by
  refine ⟨?_, ?_, ?_, ?_, ?_, ?_, ?_⟩ <;> decide +kernel

theorem witness_protectSet :
    let d := parseProt ((pkOf protectSetSpec protectPacket).bytes.take 64) (pkOf protectSetSpec protectPacket).origin
    let s1 := head protectPacket guarded
    takes protectSetSpec protectPacket guarded = true ∧ s1.procUp 3 = true ∧ s1.pipes[1]? = some idlePipe ∧ d.bad idlePipe.applied = none ∧
      s1.inProtected d.content d.bytes = true ∧ s1.inProtected d.fallback d.bytes = true := by
  refine ⟨?_, ?_, ?_, ?_, ?_, ?_⟩ <;> decide +kernel

theorem witness_camPackets :
    (let d := parseCam (((pkOf camConfigSpec camPacket).bytes.drop 0x10).take 32)
     takes camConfigSpec camPacket guarded = true ∧ d = camDesc ∧ d.bad = none ∧ (head camPacket guarded).chan? 0 2 = some resetChannel) ∧
    (let x := parseBind (((pkOf camBindSpec bindPacket).bytes.drop 0x10).take 96) key
     takes camBindSpec bindPacket guarded = true ∧ x = binding ∧
       (bindBuffers x (enumFrom 0 (x.bufs.take x.count)) (head bindPacket guarded)).1 = none) := by
  refine ⟨⟨?_, ?_, ?_, ?_⟩, ?_, ?_, ?_⟩ <;> decide +kernel

/-- Function 1 gets DRAM granule 32 and Reservoir granule 20. -/
def leveePacket : Packet := packet 20 [0xD, 0, 0x00010020, 0, 0, 0, 0, 0, 0, 0, 0x100000, 0, 0, 0, 0, 0]

theorem witness_leveeSet :
    let s1 := head leveePacket (sent up)
    let pk := pkOf leveeSetSpec leveePacket
    let a := s1.leveeAsk pk
    takes leveeSetSpec leveePacket (sent up) = true ∧ s1.leveeRefusal a pk = none ∧ a.tenant = 1 ∧ s1.leveeAdds a = ([32], [20]) := by
  refine ⟨?_, ?_, ?_, ?_⟩ <;> decide +kernel

/-- A table of one BEST_EFFORT slot of a whole round. -/
def tableBytes : List Byte := dw [1, 1000, 0, 0, 0, 0, 0, 0, 0, 0, 0, 0, 0, 0, 0, 0]
def slotBytes32 : List Byte := dw [0, 0x020003E8, 0xFFF, 0, 0x1E03, 0, 0, 0]
def tablePacket : Packet := packet 8 [0x2000, 0, 0, 0]
def replanPacket : Packet := packet 8 [0xFF, 0, 0, 0]
def votePacket : Packet := packet 8 [2, 0, 0, 0]
def sleepPacket : Packet := packet 8 [0x0301, 0, 0, 0]
def resetPacket : Packet := packet 8 [0x0001, 0, 0, 0]

theorem witness_sluiceLoad :
    let s := holding (tableBytes ++ slotBytes32) []
    let pk := pkOf sluiceLoadSpec tablePacket
    let s1 := head tablePacket s
    let s2 := (s1.readNamed pk (pk.f 0 47 0) 64 64).2
    let s3 := (s2.readNamed pk (pk.f 0 47 0) 96 64).2
    takes sluiceLoadSpec tablePacket s = true ∧ s1.sluice.armed = none ∧ s1.procUp 1 = true ∧
      (s1.readNamed pk (pk.f 0 47 0) 64 64).1 = some tableBytes ∧ (s2.readNamed pk (pk.f 0 47 0) 96 64).1 = some (tableBytes ++ slotBytes32) ∧
      ofLE (tableBytes.take 2) % 1024 = 1 ∧ s3.tableBad tableBytes [slotBytes32] (parseTable tableBytes [slotBytes32]) = none := by
  refine ⟨?_, ?_, ?_, ?_, ?_, ?_, ?_⟩ <;> decide +kernel

theorem witness_management :
    (takes marginReplanSpec replanPacket (sent up) && takes powerVoteSpec votePacket (sent up) && takes powerVoteSpec (packet 8 [3, 0, 0, 0]) (sent up) &&
      takes resetDomainSpec resetPacket (sent up)) = true ∧
    ((head replanPacket (sent up)).procUp 2 = true ∧ (head replanPacket (sent up)).emergency = false ∧ (head resetPacket (sent up)).unitExists 1 0 = true) ∧
    (let s := sent { up with funs := up.funs.map fun (f : Fun) => { f with vote := 2 } }
     takes powerStateSpec sleepPacket s = true ∧ sleepParamsOk 1 3 false false = true ∧ (head sleepPacket s).sleepBits 1 = 0 ∧
       (head sleepPacket s).aon.wakePending = none) ∧
    (head sleepPacket (sent up)).sleepBits 1 = 1 := by
  refine ⟨?_, ⟨?_, ?_, ?_⟩, ⟨?_, ?_, ?_, ?_⟩, ?_⟩ <;> decide +kernel

def destPacket (size : Word) : Packet := packet 8 [0x600, 0, size, 0]
def attestPacket : Packet := packet 16 ([0x600, 0, 1024, 0] ++ List.replicate 8 0)

theorem witness_reports :
    (let s : State := sent { up with weir := { up.weir with sample := [1, 2] }, funs := up.funs.map fun (f : Fun) => { f with sample := [3] } }
     (takes (destSpec 0x72 true) (destPacket 0) s && takes dumpSpec (destPacket 64) s && takes telemetrySpec (destPacket 0) s &&
       takes telemetrySpec (destPacket 1) s && takes (destSpec 0x62 false) (destPacket 0) s && takes attestSpec attestPacket s) = true) ∧
    (let s1 := head (destPacket 0) (sent up)
     (s1.translate .headgate key 0x600 2896 needW).1.toBool = true ∧ (s1.spanOk .headgate key 0x600 64 needW).1 = true ∧
       (s1.spanOk .headgate key 0x600 4096 needW).1 = true ∧ (s1.translate .headgate key 0x600 (16 + 16 * s1.islandsOn.length) needW).1.toBool = true ∧
       (s1.translate .headgate key 0x600 (16 + 16 * s1.islandsOn.length) needW).2.clocksNominal = true ∧ s1.procUp 3 = true ∧
       (s1.translate .headgate key 0x600 832 needW).1.toBool = true) ∧
    (∃ f, up.funs[0]? = some f ∧ f.st = .ready) ∧ fnAddrOk 0x300000 4096 = true ∧ up.fnAreaOk 0 0x300000 4096 = true := by
  refine ⟨?_, ⟨?_, ?_, ?_, ?_, ?_, ?_, ?_⟩, ⟨_, rfl, ?_⟩, ?_, ?_⟩ <;> decide +kernel

/-! ## Firmware, crashes and resets -/

/-- The queue listed, and Levee's block in a state of its own. -/
def leveed (f : Levee → Levee) : State := sent { up with levee := f up.levee }

def activatePacket (cancel : Word) : Packet := packet 8 [cancel, 0, 0, 0]
def stagePacket : Packet := packet 8 [0x100000, 0, 0x200000, 0]

theorem witness_fwStage :
    takes fwStageSpec stagePacket (sent up) = true ∧
    (let s1 := head stagePacket (sent up)
     let r := s1.stageBytes key 0x100000
     s1.procUp 3 = true ∧ r.1.isSome = true ∧ r.2.levee.staging = none ∧ r.2.levee.still = true ∧
       r.2.firstFail ((List.range 4).map factoryImage) [0, 1, 2, 3] = none ∧ oneSvn ((List.range 4).map factoryImage) = true ∧
       r.2.handoverFail (List.replicate 4 (factoryImage 0)) = none) := by
  refine ⟨?_, ?_, ?_, ?_, ?_, ?_, ?_, ?_⟩ <;> decide +kernel

theorem witness_fwActivate :
    (let s := leveed fun v => { v with staged := true }
     takes fwActivateSpec (activatePacket 0) s = true ∧ (head (activatePacket 0) s).levee.staged = true ∧ (head (activatePacket 0) s).levee.still = true ∧
       (head (activatePacket 0) s).emergency = false) ∧
    ((sent { up with weir := { up.weir with powerEmerg := true }, levee := { up.levee with staged := true } }).emergency = true ∧
      takes fwActivateSpec (activatePacket 0) (sent { up with weir := { up.weir with powerEmerg := true }, levee := { up.levee with staged := true } }) = true) ∧
    (takes fwActivateSpec (activatePacket 0) (sent up) && takes fwActivateSpec (activatePacket 1) (sent up) &&
      takes fwActivateSpec (activatePacket 1) (leveed fun v => { v with activation := .deferred }) &&
      takes fwActivateSpec (activatePacket 1) (leveed fun v => { v with activation := .paused })) = true ∧
    (pkOf fwActivateSpec (activatePacket 1)).f 0 0 0 ≠ 0 := by
  refine ⟨⟨?_, ?_, ?_, ?_⟩, ⟨?_, ?_⟩, ?_, ?_⟩ <;> decide +kernel

/-- An activation whose next handover is processor n. -/
def handing (n : Nat) (a : Activation) (paused : Bool) : State :=
  let hold := fun (r : Proc) => { r with paused := paused }
  { up with levee := { up.levee with activation := a, nextProc := n, staged := true }, procs := up.procs.map hold }

theorem witness_handovers :
    ((handing 1 .running false).procUp 1 = true ∧ (handing 1 .running false).noSwitch = true ∧
      (handing 1 .running false).handoverImage 1 = some (factoryImage 1)) ∧
    (((handing 1 .running true).procs[1]?).map (·.paused) = some true ∧ ((handing 1 .handingBack true).procs[1]?).map (·.paused) = some true) ∧
    (leveed fun v => { v with staging := some (origin, []) }).levee.staging = some (origin, []) ∧ up.procUp 3 = true ∧ up.emergency = false := by
  refine ⟨⟨?_, ?_, ?_⟩, ⟨?_, ?_⟩, ?_, ?_, ?_⟩ <;> decide +kernel

/-- Processor 2 with some crashes behind it. -/
def crashed (times : List Nat) (isUp : Bool) : State :=
  let f := fun (r : Proc) => { r with times := times, up := isUp }
  { up with now := 20000000, procs := modNth f 2 up.procs }

theorem witness_processorCrashes :
    ((crashed [9000000, 15000000] true).procUp 2 = true ∧ (([9000000, 15000000].filter fun t => decide (20000000 < t + 10000000)).length < 3)) ∧
    3 ≤ ([19000000, 15000000, 10000001].filter fun t => decide (20000000 < t + 10000000)).length ∧
    (∃ r, (crashed [] false).procs[2]? = some r ∧ r.up = false ∧ r.image ≠ none) ∧ (∀ x ∈ (crashed [] false).resets, x.kind ≠ 8) ∧
    ({ up with procs := modNth (fun (r : Proc) => { r with up := false }) 0 up.procs } : State).procUp 0 = false := by
  refine ⟨⟨?_, ?_⟩, ?_, ⟨_, rfl, ?_, ?_⟩, ?_, ?_⟩ <;> decide +kernel

/-- A reset of cluster 0's domain that has begun. -/
def resetting (kind : Nat) : State := { up.takeReset (up.named' kind 0 none false) with now := 5000 }

theorem witness_resetDomains :
    (∃ r, (resetting 1).resets[0]? = some r ∧ r.kind = 1 ∧ (resetting 1).fatal = false ∧ (resetting 1).resetHeld r = false ∧
      (resetting 1).domainQuiet ((resetting 1).engines.filter fun e => r.islands.contains (engineIsland e)) = true ∧ r.startedAt + 2000 ≤ (resetting 1).now) ∧
    (∃ r, (resetting 8).resets[0]? = some r ∧ r.kind = 8 ∧ (resetting 8).fatal = false ∧ (resetting 8).resetHeld r = false) ∧
    up.resets = [] ∧ key ∈ (running cluster).ctxsIn 1 [0] ∧ key ∉ (running cluster).ctxsIn 1 [7] ∧ (running cluster).resets = [] ∧
    0 ∈ (running cluster).domainIslands 1 [0] := by
  refine ⟨⟨_, rfl, ?_, ?_, ?_, ?_, ?_⟩, ⟨_, rfl, ?_, ?_, ?_⟩, ?_, ?_, ?_, ?_, ?_⟩ <;> decide +kernel

/-! ## Power, clocks, sleep and boot -/

/-- Weir's block in a state of its own. -/
def weired (f : Weir → Weir) : State := { up with weir := f up.weir, now := 2000000 }

theorem witness_powerCapLoop :
    up.aon.mode = .a ∧ up.procUp 2 = true ∧ up.weir.alertLow = false ∧ up.emergency = false ∧ up.weir.limitMw = 60000 ∧ up.weir.cap = 7 ∧
    (weired fun w => { w with cap := 0, over110 := 2 }).weir.limitMw * 11 < 66001 * 10 ∧
    (weired fun w => { w with cap := 5, below := 3 }).weir.below = 3 := by
  refine ⟨?_, ?_, ?_, ?_, ?_, ?_, ?_, ?_⟩ <;> decide +kernel

theorem witness_powerEmergencies :
    (let s := weired fun w => { w with powerEmerg := true, alertHighAt := 0, okWindows := 10 }
     s.weir.powerEmerg = true ∧ s.weir.alertLow = false ∧ s.weir.alertHighAt + 10000 ≤ s.now ∧ 10 ≤ s.weir.okWindows ∧ s.procUp 2 = true) ∧
    (weired fun w => { w with alertLow := true }).weir.alertLow = true ∧
    (∃ r, (crashed [] false).procs[2]? = some r ∧ (crashed [] false).procUp 2 = false ∧ r.downSince + 10000 ≤ (crashed [] false).now) ∧
    (∃ i : Island, up.islands[0]? = some i ∧ onComputeDie i.id = true ∧ i.a2 = false ∧ i.off = false ∧ i.inReset = false ∧ regulated i.id = true ∧
      ∃ p, i.plan[3]? = some p) := by
  refine ⟨⟨?_, ?_, ?_, ?_, ?_⟩, ?_, ⟨_, rfl, ?_, ?_⟩, ⟨_, rfl, ?_, ?_, ?_, ?_, ?_, _, rfl⟩⟩ <;> decide +kernel

theorem witness_thermalLoop :
    (List.replicate 63 (0 : Int) ++ [up.weir.tripC]).length = 64 ∧ (∃ x ∈ List.replicate 63 (0 : Int) ++ [up.weir.tripC], up.weir.tripC ≤ x) ∧
    (∀ x ∈ List.replicate 64 (up.weir.tripC - 10), x + 10 ≤ up.weir.tripC) ∧ (∀ x ∈ List.replicate 64 (up.weir.tripC - 9), x < up.weir.tripC) ∧
    up.weir.emergC < up.weir.tripC ∧ up.sensorsOf 0 ≠ [] ∧
    (let s := weired fun w => { w with thermEmerg := true, coolSince := some 1900000 }
     s.weir.coolSince = some 1900000 ∧ s.weir.trip = false ∧ 1900000 + 100000 ≤ s.now) := by
  refine ⟨?_, ?_, ?_, ?_, ?_, ?_, ?_, ?_, ?_⟩ <;> decide +kernel

theorem witness_clocksAndAgeing :
    (∃ i, up.island? 0 = some i ∧ regulated 0 = true ∧ up.islandUp 0 = true ∧ ∃ p, i.plan[i.point]? = some p ∧ p.vMin ≤ min p.vMax 850) ∧
    (up.weir.cfg.getLsbD 18 = true ∧ up.enabled (.cluster 0) = true ∧ up.unitBare (.cluster 0) = true) ∧
    (let s : State := { up with islands := up.islands.map fun (i : Island) => { i with a2 := true } }
     (s.island? 0).map (fun i => (i.a2, i.off, i.inReset)) = some (true, false, false) ∧ s.weir.scIdle = false) ∧
    (weired fun w => { w with sinceReplan := 499 }).weir.sinceReplan = 499 ∧
    (weired fun w => { w with replans := [⟨0xFF, some origin⟩] }).weir.replans = [⟨0xFF, some origin⟩] ∧ up.levee.staging = none ∧
    (appendLog 0x02 (List.replicate 8 1) true up.log).isSome = true := by
  refine ⟨⟨_, rfl, ?_, ?_, _, rfl, ?_⟩, ⟨?_, ?_, ?_⟩, ⟨?_, ?_⟩, ?_, ?_, ?_, ?_⟩ <;> decide +kernel

/-- The always-on island in a state of its own. -/
def aon (f : Aon → Aon) : State := { up with aon := f up.aon, now := 2000000 }

theorem witness_sleepS1 :
    (aon fun a => { a with mode := .enteringS1 }).resets = [] ∧
    (let s := aon fun a => { a with mode := .s1, wakePending := some 3 }
     s.aon.wakePending = some 3 ∧ s.pcie.held = [] ∧ (s.segment 3).2 ≠ 0) ∧
    up.aon.i3cCfg.getLsbD 9 = true ∧ up.aon.i3cCfg.getLsbD 8 = true := by
  refine ⟨?_, ⟨?_, ?_, ?_⟩, ?_, ?_⟩ <;> decide +kernel

theorem witness_sleepS3 :
    (let s := aon fun a => { a with mode := .enteringS3 }
     s.aon.xtalStable = true ∧ s.aon.wakePending = none) ∧
    (let s := aon fun a => { a with mode := .wakingS3, wakeSrc := 3, save := some up.saveArea }
     s.aon.corePgood = true ∧ s.aon.sysclk = true ∧ s.aon.save = some up.saveArea ∧
       s.firstFail (s.levee.slot s.levee.activeSlot) bootOrder = none) ∧
    (let s := aon fun a => { a with mode := .wakingS3, corePgood := false }
     s.aon.railSince + s.aon.railWait ≤ s.now) := by
  refine ⟨⟨?_, ?_⟩, ⟨?_, ?_, ?_, ?_⟩, ?_⟩ <;> decide +kernel

theorem witness_wakeBusSuppliesAndBoot :
    (up.busAnswers = true ∧ (aon fun a => { a with mode := .s3 }).aon.i3cCfg.getLsbD 8 = true) ∧
    (up.aon.vaon = true ∧ up.aon.aonRst = false ∧ up.aon.corePwrReq = true) ∧
    (let s := aon fun a => { a with mode := .off, corePgood := false }
     s.aon.railSince + s.aon.railWait ≤ s.now) ∧
    (let s := aon fun a => { a with mode := .off, bootPending := true }
     s.bootReady = true ∧ s.levee.staging = none ∧ s.firstFail (s.levee.slot s.levee.activeSlot) bootOrder = none) := by
  refine ⟨⟨?_, ?_⟩, ⟨?_, ?_, ?_⟩, ?_, ⟨?_, ?_, ?_⟩⟩ <;> decide +kernel

/-! ## The block as a whole -/

theorem witness_blockAndRules :
    up.pending = [] ∧ up.mem.wf = true ∧
    ((fenced 7 9).fenceAt key 0x500 needWA).1.toOption = some (.dram, 0x1000500) ∧ ((fenced 7 9).fenceAt key 0x500 needWA).2.mem.wf = true ∧
    ((sent up).translate .headgate key 0x4000 32 needW).1.toBool = true ∧ up.liveTenant 0 = true ∧ up.liveTenant 1 = false ∧
    (∃ f, up.funs[0]? = some f ∧ f.d3hot = false) ∧ hostReaches up ∧
    (∀ t, exec (.dramAccess false up.dramBytes 8 [] [] [] .ok false) up ≠ .next t) := by
  refine ⟨?_, ?_, ?_, ?_, ?_, ?_, ?_, ⟨_, rfl, ?_⟩, ⟨?_, ?_, ?_⟩, ?_⟩
  · decide +kernel
  · decide +kernel
  · decide +kernel
  · decide +kernel
  · decide +kernel
  · decide +kernel
  · decide +kernel
  · decide +kernel
  · decide +kernel
  · decide +kernel
  · decide +kernel
  · intro t h
    have e : (match exec (.dramAccess false up.dramBytes 8 [] [] [] .ok false) up with
      | .next _ => false
      | _ => true) = true := by decide +kernel
    rw [h] at e
    cases e

/-! ## Well-formedness: an ill-formed term for each check -/

theorem wellFormed_units :
    (Instr.iadd 47 63 (word 0 0 1 0 2 0 3 0 0)).wf = true ∧ (Instr.iadd 48 0 (word 0 0 1 0 2 0 3 0 0)).wf = false ∧
    (Instr.iadd 0 64 (word 0 0 1 0 2 0 3 0 0)).wf = false ∧ (Instr.unassignedInstruction 0 0 0x10 (word 0 0 1 0 2 0 3 0 0)).wf = false ∧
    (Instr.unassignedInstruction 0 0 0xFF (word 0 0 1 0 2 0 3 0 0)).wf = true ∧ (Instr.schedulePick (.cluster 48) 0).wf = false ∧
    (Instr.schedulePick (.front 4) 0).wf = false ∧ (Instr.schedulePick (.array 9) 0).wf = false ∧ (Instr.schedulePick (.copy 4) 0).wf = false ∧
    (Instr.a2Entry (.copy 3)).wf = true := by
  decide +kernel

theorem wellFormed_requesters :
    (Instr.reservoirAccess (.pipe 4) false 0 8 [] []).wf = false ∧ (Instr.reservoirAccess (.host 4) false 0 8 [] []).wf = false ∧
    (Instr.reservoirAccess (.engine (.array 9)) false 0 8 [] []).wf = false ∧ (Instr.reservoirAccess .camera false 0 8 [] []).wf = true ∧
    (Instr.sliceStore ⟨.camera, 4, 0⟩ .dram 0 (List.replicate 8 0) true false 0).wf = false ∧ (Instr.sliceStore ⟨.camera, 0, 1024⟩ .dram 0 (List.replicate 8 0) true false 0).wf = false ∧
    (Instr.writeAroundDrain 16).wf = false ∧ (Instr.wayGroupPowerDown 0 4).wf = false ∧ (Instr.dramRefresh (.perBank 8)).wf = false ∧
    (Instr.dqsOscillatorCheck 16 0).wf = false ∧ (Instr.rangeWalk .headgate 4 0 0).wf = false ∧ (Instr.rangeWalk .headgate 0 1024 0).wf = false := by
  decide +kernel

theorem wellFormed_packetsAndPins :
    (Instr.nop (.queue 4 0) (packet 4 [])).wf = false ∧ (Instr.nop (.queue 0 16384) (packet 4 [])).wf = false ∧ (Instr.nop (.mailbox 4) (packet 4 [])).wf = false ∧
    (Instr.nop (.queue 0 3) (packet 4 (List.replicate 1025 0))).wf = false ∧ (Instr.nop (.queue 0 3) (packet 4 [])).wf = true ∧
    (Instr.unassignedOpcode (.queue 0 3) 0x7F (packet 4 [])).wf = false ∧ (Instr.unassignedOpcode (.queue 0 3) 0xEE (packet 4 [])).wf = true ∧
    (Instr.vblankStart 4 0).wf = false ∧ (Instr.camStart 6).wf = false ∧ (Instr.frameStart 0 16).wf = false ∧ (Instr.slotOpen 512 0).wf = false ∧
    (Instr.layerStart 9).wf = false ∧ (Instr.passStart 4).wf = false ∧ (Instr.tileStore 48 0).wf = false ∧ (Instr.quadDispatch 0 48 0 0 0).wf = false ∧
    (Instr.processorRestartDone 4).wf = false ∧ (Instr.severeDroop 128).wf = false ∧ (Instr.registerWrite 4 0 0).wf = false := by
  decide +kernel

/-! ## Words written out from the fields of R98 and the opcodes of R102: OP X PN PG MOD DK DST K0 SRC0 K1 SRC1 K2 SRC2 reserved -/

/-- The fields of a word with predicate P7 and no extension. -/
def fields (mode : BitVec 5) (dk : BitVec 2) (dst : BitVec 8) (k0 : BitVec 2) (src0 : BitVec 8) (k1 : BitVec 2) (src1 : BitVec 8)
    (k2 : BitVec 2) (src2 : BitVec 8) : HWord :=
  ⟨false, 7, mode, dk, dst, k0, src0, k1, src1, k2, src2, 0, none, .ok⟩

theorem decodes_integer :
    decodeHeith 3 5 0b00010000_0_0_111_00000_00_00000101_00_00000001_00_00000010_00_00000000_000000 0 =
      .iadd 3 5 (fields 0 0 5 0 1 0 2 0 0) ∧
    decodeHeith 3 5 0b00010001_1_1_010_00000_00_00000101_00_00000001_10_00000000_00_00000000_000000 0xFFFFFFFE =
      .isub 3 5 ⟨true, 2, 0, 0, 5, 0, 1, 2, 0, 0, 0, 0, some 0xFFFFFFFE, .ok⟩ ∧
    decodeHeith 3 5 0b00100101_0_0_111_00011_10_00000010_00_00000001_01_00000010_00_00000000_000000 0 =
      .icmp 3 5 (fields 3 2 2 0 1 1 2 0 0) := by
  decide +kernel

theorem decodes_float :
    decodeHeith 0 0 0b00110010_0_0_111_00000_00_00000101_00_00000001_00_00000010_00_00000011_000000 0 = .fmuladd 0 0 (fields 0 0 5 0 1 0 2 0 3) ∧
    decodeHeith 0 0 0b01000000_0_0_111_00000_00_00000101_00_00000001_00_00000010_00_00000000_000000 0 = .hpadd 0 0 (fields 0 0 5 0 1 0 2 0 0) ∧
    decodeHeith 0 0 0b01001000_0_0_111_00000_00_00000100_00_00000110_00_00001000_00_00000000_000000 0 = .dadd 0 0 (fields 0 0 4 0 6 0 8 0 0) ∧
    decodeHeith 0 0 0b01010000_0_0_111_00001_00_00000100_00_00000110_00_00000000_00_00000000_000000 0 = .convFF 0 0 (fields 1 0 4 0 6 0 0 0 0) := by
  decide +kernel

theorem decodes_memory :
    decodeHeith 0 0 0b01100000_0_0_111_00010_00_00000100_00_00000110_00_00000000_00_00000000_000000 0 = .ld 0 0 (fields 2 0 4 0 6 0 0 0 0) ∧
    decodeHeith 0 0 0b01100001_0_0_111_00010_11_00000000_00_00000110_00_00001000_00_00000000_000000 0 = .st 0 0 (fields 2 3 0 0 6 0 8 0 0) ∧
    decodeHeith 0 0 0b01101000_0_0_111_00000_00_00001100_00_00000110_00_00001000_00_00000000_000000 0 = .sample 0 0 (fields 0 0 12 0 6 0 8 0 0) ∧
    decodeHeith 0 0 0b01110110_0_0_111_00000_11_00000000_00_00000110_00_00001000_00_00000000_000000 0 = .rayaccept 0 0 (fields 0 3 0 0 6 0 8 0 0) := by
  decide +kernel

theorem decodes_control :
    decodeHeith 0 0 0b00000010_1_0_000_00000_11_00000000_00_00000000_00_00000000_00_00000000_000000 0xFFFFFFF8 =
      .jump 0 0 ⟨false, 0, 0, 3, 0, 0, 0, 0, 0, 0, 0, 0, some 0xFFFFFFF8, .ok⟩ ∧
    decodeHeith 0 0 0b00000001_0_0_111_00000_11_00000000_00_00000000_00_00000000_00_00000000_000000 0 = .endGroup 0 0 (fields 0 3 0 0 0 0 0 0 0) ∧
    decodeHeith 0 0 0b11111111_0_0_111_00000_11_00000000_00_00000000_00_00000000_00_00000000_000001 0 =
      .unassignedInstruction 0 0 0xFF ⟨false, 7, 0, 3, 0, 0, 0, 0, 0, 0, 0, 1, none, .ok⟩ ∧
    decodeHeith 0 0 0b01111000_0_0_111_00001_00_00000100_00_00000110_00_00001000_00_00000000_000000 0 = .xlane 0 0 (fields 1 0 4 0 6 0 8 0 0) := by
  decide +kernel

theorem witness_heithRoundTrip :
    (Instr.isub 3 5 ⟨true, 2, 0, 0, 5, 0, 1, 2, 0, 0, 0, 0, some 0xFFFFFFFE, .ok⟩).wf = true ∧
    encodeHeith (.isub 3 5 ⟨true, 2, 0, 0, 5, 0, 1, 2, 0, 0, 0, 0, some 0xFFFFFFFE, .ok⟩) =
      some (0b00010001_1_1_010_00000_00_00000101_00_00000001_10_00000000_00_00000000_000000, some 0xFFFFFFFE) := by
  decide +kernel

/-! ## The rest of the premises -/

/-- A mailbox packet of PF0 with BUSY set. -/
def mailPacket : Packet := { packet 8 [0, 0, 0, 0] with ctx := 0xFFFF, queue := 0xFFFF }
def mailed (op : BitVec 8) : State :=
  let f := fun (f : Fun) => { f with mboxBusy := true, mboxCmd := takePad 0 20 (packetHeader mailPacket op ++ mailPacket.params) }
  { up with funs := modNth f 0 up.funs }

theorem witness_mailbox :
    (∃ f, (mailed 6).funs[0]? = some f ∧ f.mboxBusy = true ∧ f.mboxServing = false ∧ f.holds marginReplanSpec.opcode mailPacket = true) ∧
    (mailed 6).serves 0 = true ∧ lenValid mailPacket.len.toNat = true ∧ mailPacket.len.toNat ≤ 20 ∧ mailPacket.ctx = 0xFFFF ∧
    mailPacket.queue = 0xFFFF ∧ mailPacket.rsv0 = 0 ∧ mailPacket.rsv3 = 0 := by
  refine ⟨⟨_, rfl, ?_, ?_, ?_⟩, ?_, ?_, ?_, ?_, ?_, ?_, ?_⟩ <;> decide +kernel

/-- A read to host memory that is outstanding. -/
def request : NpReq := ⟨9, 1, .order 0 0, 0x40000000, 8, true, none⟩

theorem witness_linkAndObjects :
    hostReaches up ∧ (∃ f, up.funs[1]? = some f ∧ f.noTimeout = false ∧ f.doeReq = none) ∧ up.levee.doeOrder = [] ∧ up.procUp 3 = true ∧
    (let s : State := { up with pcie := { up.pcie with reqs := [request] } }
     (s.pcie.reqs.find? fun r => r.tag == 9) = some request ∧ request.issued = true ∧ s.pcie.linkUp = true) ∧ 5 ≤ up.targetRate ∧
    (5 : BitVec 4).toNat ≤ up.pcie.cfg.toNat % 16 ∧ (4 : BitVec 3).toNat ≤ up.pcie.cfg.toNat / 16 % 8 ∧ up.pcie.cfg.toNat.testBit 7 = true := by
  refine ⟨⟨?_, ?_, ?_⟩, ⟨_, rfl, ?_, ?_⟩, ?_, ?_, ⟨?_, ?_, ?_⟩, ?_, ?_, ?_, ?_⟩ <;> decide +kernel

/-- A context whose device copy lies in DRAM. -/
def walked : Ctx := { ctx with rt := 0x0000000003000000 }

/-- No read of the device copy meets an error, but that of one slot. -/
def cleanBut (s : State) (r len : Nat) : Bool := (List.range 4096).all fun n => n == r || (s.fnUe 0 walked.rt (32 * n) len).isNone

theorem cleanBut_holds {s : State} {r len : Nat} (h : cleanBut s r len = true) : ∀ n < 4096, n ≠ r → s.fnUe 0 walked.rt (32 * n) len = none := by
  intro n hn hr
  have := List.all_eq_true.mp h n (List.mem_range.mpr hn)
  simpa [hr] using this

theorem witness_rangeWalk :
    (∀ n < 4096, up.fnUe 0 walked.rt (32 * n) 32 = none) ∧ (∀ n < 4096, up.fnUe 0 walked.rt (32 * n) 8 = none) ∧
    (let s : State := { up with mem := { up.mem with dramUe := [0x3000000 + 32 * 2048] } }
     s.fnUe 0 walked.rt (32 * 2048) 8 = some (.dram, 0x3000000 + 32 * 2048) ∧ ∀ m < 4096, m ≠ 2048 → s.fnUe 0 walked.rt (32 * m) 8 = none) :=
  ⟨fun n hn => cleanBut_holds (r := 4096) (by decide +kernel) n hn (by omega), fun n hn => cleanBut_holds (r := 4096) (by decide +kernel) n hn (by omega),
    by decide +kernel, cleanBut_holds (by decide +kernel)⟩

end Tests

end Sys2Proof
end

section
/-! SUPPORT. The layers of a network on an array and the grants of the tile flume (R23, R24, R163, R166). -/

namespace Sys2Proof.Machine

/-! ## Updates of one element of a list -/

@[simp] theorem getElem?_modNth_self {α : Type} (f : α → α) : ∀ (i : Nat) (l : List α), (modNth f i l)[i]? = l[i]?.map f
  | _, [] => by simp [modNth]
  | 0, a :: as => by simp [modNth]
  | i + 1, a :: as => by simpa [modNth] using getElem?_modNth_self f i as

theorem getElem?_modNth_of_ne {α : Type} (f : α → α) : ∀ {i j : Nat}, i ≠ j → ∀ l : List α, (modNth f i l)[j]? = l[j]?
  | _, _, _, [] => by simp [modNth]
  | 0, 0, h, _ :: _ => absurd rfl h
  | 0, j + 1, _, a :: as => by simp [modNth]
  | i + 1, 0, _, a :: as => by simp [modNth]
  | i + 1, j + 1, h, a :: as => by simpa [modNth] using getElem?_modNth_of_ne f (by omega : i ≠ j) as

/-- An update that leaves a part of every element leaves that part of the list's elements. -/
theorem getElem?_modNth_map {α β : Type} {f : α → α} {g : α → β} (h : ∀ a, g (f a) = g a) (i j : Nat) (l : List α) :
    (modNth f i l)[j]?.map g = l[j]?.map g := by
  by_cases hij : i = j
  · subst hij
    rw [getElem?_modNth_self, Option.map_map]
    exact Option.map_congr (fun a _ => h a)
  · rw [getElem?_modNth_of_ne f hij]

/-! ## What the commands of layers look up -/

/-- No fault of a job waits for its record. -/
theorem no_report_of {s : State} {id : Nat} (h : ∀ r ∈ s.sluice.reports, r.job ≠ some id) :
    (s.sluice.reports.any fun r => decide (r.job = some id)) = false := by
  simpa using h

/-- The run of a job of a network, with the network that it runs. -/
theorem run_bind_net {s : State} {j : Job} {run : NetRun} {n : Net} (hk : j.kind = .net run) (hn : s.net? j.key run.handle = some n) :
    (j.run?.bind fun r => (s.net? j.key r.handle).map fun n => (r, n)) = some (run, n) := by
  simp [Job.run?, hk, hn]

theorem job?_id {s : State} {id : Nat} {j : Job} (h : s.job? id = some j) : j.id = id := by
  simpa using List.find?_some h

/-! ## LAYER_START, LAYER_COMPLETE and NET_RUN_RESTART -/

/-- The configuration that an array runs its next layer with. -/
theorem Array.commit_cfg (x : Array) : x.commit.cfg = if x.core.armed then x.shadow else x.cfg := by
  unfold Array.commit
  cases h : x.core.armed <;> simp [h]

theorem exec_layerStart {a l sat : Nat} {s s2 : State} {w : Work} {k : CtxKey} {x : Machine.Array} {j : Job} {run : NetRun} {n : Net}
    {d : LayerDesc} (hw : s.headWork (.array a) = some (w, k)) (hx : s.arrays[a]? = some x) (hidle : x.layer = none)
    (hl : w.kind = .layer l) (hj : s.job? w.job = some j) (hk : j.kind = .net run) (hn : s.net? j.key run.handle = some n)
    (hd : n.layers[l]? = some d) (hstamp : run.startStamp ≠ 0)
    (hrun : ({ a := a, k := k, net := n, tile := false, keep := false, binds := run.binds } : Runner).layer d
      (s.modArray a fun x => { x.commit with layer := some w }) = (.ok sat, s2)) :
    exec (.layerStart a) s = .next
      (({ a := a, k := k, net := n, tile := false, keep := false, binds := run.binds } : Runner).outFlight d
        (if (if x.core.armed then x.shadow else x.cfg).toNat.testBit 0 then s2.modRun w.job fun r => { r with sat := r.sat + sat } else s2)) := by
  show execLayerStart a s = _
  unfold execLayerStart
  rw [hw, hx]
  simp only [hidle, hl, Option.isSome_none, Bool.false_eq_true, if_false]
  unfold State.startLayer
  rw [hj]
  simp only [run_bind_net hk hn, hd, hstamp, if_false, hrun]
  simp only [State.modArray_arrays, getElem?_modNth_self, hx, Option.map_some, Array.commit_cfg, bitOf]

theorem exec_layerComplete_layer {a l : Nat} {s : State} {w : Work} {x : Machine.Array} {j : Job} {run : NetRun} {n : Net} {d : LayerDesc}
    (hx : s.arrays[a]? = some x) (hw : x.layer = some w) (hrep : ∀ r ∈ s.sluice.reports, r.job ≠ some w.job)
    (hl : w.kind = .layer l) (hj : s.job? w.job = some j) (hk : j.kind = .net run) (hn : s.net? j.key run.handle = some n)
    (hd : n.layers[l]? = some d) :
    exec (.layerComplete a) s = .next (((((({ s with flight := s.flight.filter fun f => decide (f.who ≠ .engine (.array a)) } : State).modArray a
      fun x => { x with layer := none, layers := x.layers + 1, core := { x.core with work := x.core.work + d.tiles } }).retire
        (.array a) j.key).endUnit (.array a) j.key).layerDone w.job l (.array a))) := by
  show execLayerComplete a s = _
  have hj' : ∀ fl, State.job? { s with flight := fl } w.job = some j := fun _ => hj
  have hn' : ∀ fl, State.net? { s with flight := fl } j.key run.handle = some n := fun _ => hn
  unfold execLayerComplete
  simp only [hx, hw, no_report_of hrep, Bool.false_eq_true, if_false, hl, hj', Job.run?, hk, Option.bind_some, hn', hd]

theorem exec_layerComplete_tileNet {a tile : Nat} {s : State} {w : Work} {x : Machine.Array} {j : Job} {g : Grant} {r : PassRun}
    {slot : TileSlot} {n : Net} {d : LayerDesc} (hx : s.arrays[a]? = some x) (hw : x.layer = some w)
    (hrep : ∀ r ∈ s.sluice.reports, r.job ≠ some w.job) (hl : w.kind = .tileNet tile) (hj : s.job? w.job = some j)
    (hg : x.grant = some g) (ht : s.granted g = some (r, slot, n)) (hd : n.layers[x.step]? = some d)
    (hlast : x.step + 1 ≠ n.layers.length) :
    let s1 := (({ s with flight := s.flight.filter fun f => decide (f.who ≠ .engine (.array a)) } : State).modArray a fun x =>
      { x with layer := none, step := x.step + 1, layers := x.layers + 1, core := { x.core with work := x.core.work + d.tiles } })
    exec (.layerComplete a) s = .next ((((if x.core.sw.isSome then s1.releaseGrant a .retired else s1).retire
      (.array a) j.key).endUnit (.array a) j.key).readyAgain w) := by
  intro s1
  show execLayerComplete a s = _
  have hj' : ∀ fl, State.job? { s with flight := fl } w.job = some j := fun _ => hj
  have ht' : ∀ fl, State.granted { s with flight := fl } g = some (r, slot, n) := fun _ => ht
  unfold execLayerComplete
  simp only [hx, hw, no_report_of hrep, Bool.false_eq_true, if_false, hl, hj', hg, Option.bind_some, ht', Option.map_some, hd,
    hlast, decide_false, s1]

theorem exec_netRunRestart {job : Nat} {s : State} {j : Job} {run : NetRun} {n : Net} {cx : Ctx} (hj : s.job? job = some j)
    (hk : j.kind = .net run) (hn : s.net? j.key run.handle = some n) (hc : s.ctx? j.key = some cx) (hact : cx.st = .active)
    (hf : run.faulted = true) (ho : j.outcome = .running) (hidle : s.jobIdle job = true) (hfl : s.layersInFlight j.key = false)
    (hleft : run.attempt < n.retry) (hrep : ∀ r ∈ s.sluice.reports, r.job ≠ some job) (hup : s.procUp 1 = true) :
    exec (.netRunRestart job) s = .next (((({ s with nsRestarts := satInc s.nsRestarts } : State).modRun job fun r =>
      { r with attempt := r.attempt + 1, faulted := false }).startGroup job n 0)) := by
  show execNetRunRestart job s = _
  unfold execNetRunRestart
  rw [hj]
  simp only [run_bind_net hk hn, hc, hact]
  rw [if_neg]
  simp [hf, ho, hidle, hfl, no_report_of hrep, hup, hleft]

/-! ## The flume -/

theorem exec_flumeGrant {f c tile a : Nat} {s : State} {w : Work} {k : CtxKey} {x : Machine.Array} {cl : Cluster} {fe : FrontEnd}
    {slot : TileSlot} (hw : s.headWork (.array a) = some (w, k)) (hx : s.arrays[a]? = some x) (hcl : s.clusters[c]? = some cl)
    (hl : w.kind = .tileNet tile) (hslot : cl.tiles.find? (fun t => t.tile == tile && t.job == w.job) = some slot)
    (hg : x.grant = none) (hidle : x.layer = none) (hph : slot.phase = .retired) (hfl : slot.flush = false) (hsg : slot.grant = none)
    (hh : cl.core.holder = some k) (hsw : cl.core.sw = none) (hfe : s.fronts[f]? = some fe) (hjob : fe.job = some w.job) :
    exec (.flumeGrant f c tile a) s = .next ((s.modArray a fun x =>
      { x with grant := some { cluster := c, tile := tile, off := slot.off, bytes := slot.bytes, job := w.job, key := k }
               step := 0
               buf := [] }).modCluster c fun cl =>
      { cl with tiles := cl.tiles.map fun t => if t.tile = tile ∧ t.job = w.job then { t with grant := some a, phase := .granted } else t }) := by
  show execFlumeGrant f c tile a s = _
  unfold execFlumeGrant
  rw [hw, hx, hcl]
  simp only [hl, hslot]
  rw [if_neg]
  simp [hg, hidle, hph, hfl, hsg, hh, hsw, hfe, hjob]

theorem takePad_of_length {α : Type} (d : α) : ∀ l : List α, takePad d l.length l = l
  | [] => rfl
  | a :: as => by rw [List.length_cons, takePad, takePad_of_length d as]

/-- Inside the granted tile of a cluster that runs an access reaches tile memory (R23). -/
theorem exec_flumeAccess_inside {a c off len : Nat} {write : Bool} {data : List Byte} {s : State} {x : Machine.Array} {g : Grant}
    {t : PassRun × TileSlot × Net} (hx : s.arrays[a]? = some x) (hg : x.grant = some g) (hc : g.cluster = c) (hlo : g.off ≤ off)
    (hhi : off + len ≤ g.off + g.bytes) (hup : s.islandUp c = true) (ht : s.granted g = some t) (hlen : data.length = len) :
    exec (.flumeAccess a c write off len data) s = .next (if write then s.putTile c off data else s) := by
  show execFlumeAccess a c write off len data s = _
  have hin : ¬(g.cluster ≠ c ∨ off < g.off ∨ g.off + g.bytes < off + len) := by omega
  subst hlen
  unfold execFlumeAccess
  simp only [hx, hg, if_neg hin, engineIsland, hup, ht, takePad_of_length]
  cases write <;> rfl

/-- A grant given up leaves the bytes of every tile memory. -/
theorem releaseGrant_tileMem (a : Nat) (ph : TilePhase) (s : State) (i : Nat) :
    (s.releaseGrant a ph).clusters[i]?.map (·.tileMem) = s.clusters[i]?.map (·.tileMem) := by
  unfold State.releaseGrant
  split
  · rfl
  · simp only [State.modArray_clusters, State.modCluster_clusters]
    exact getElem?_modNth_map (fun _ => by rfl) _ _ _

@[simp] theorem releaseGrant_mem (a : Nat) (ph : TilePhase) (s : State) : (s.releaseGrant a ph).mem = s.mem := by
  unfold State.releaseGrant
  split <;> rfl

@[simp] theorem releaseGrant_sluice (a : Nat) (ph : TilePhase) (s : State) : (s.releaseGrant a ph).sluice = s.sluice := by
  unfold State.releaseGrant
  split <;> rfl

/-- A fault of a tile network leaves memory and tile memory, and one record of it waits at Sluice (R289: SOURCE 2). -/
theorem tileNetFault_spec {a id tile layer : Nat} {f : FaultKind × Bool × Nat} {s : State} {j : Job} (hj : s.job? id = some j) :
    (s.tileNetFault a id tile layer f).mem = s.mem ∧
    (∀ i : Nat, (s.tileNetFault a id tile layer f).clusters[i]?.map (·.tileMem) = s.clusters[i]?.map (·.tileMem)) ∧
    ∃ r, (s.tileNetFault a id tile layer f).sluice.reports = s.sluice.reports ++ [r] ∧ r.kind = f.1 ∧ r.source = 2 ∧
      r.job = some id ∧ r.address = f.2.2 := by
  unfold State.tileNetFault
  simp only [hj, State.report, State.readyAgain, State.modEngine]
  refine ⟨by simp, fun i => by simp [releaseGrant_tileMem], _, by simp; rfl, rfl, rfl, congrArg some (job?_id hj), rfl⟩

/-- An access outside the tile of the grant is a fault of the tile's network (R23). -/
theorem exec_flumeAccess_outside {a c off len : Nat} {write : Bool} {data : List Byte} {s : State} {x : Machine.Array} {g : Grant}
    (hx : s.arrays[a]? = some x) (hg : x.grant = some g) (hout : g.cluster ≠ c ∨ off < g.off ∨ g.off + g.bytes < off + len) :
    exec (.flumeAccess a c write off len data) s = .next (s.tileNetFault a g.job g.tile x.step (.flume, write, off)) := by
  show execFlumeAccess a c write off len data s = _
  unfold execFlumeAccess
  simp only [hx, hg, if_pos hout, State.flumeFault]

/-- An access made with no grant faults as FLUME, whatever the array runs or waits for (R23). -/
theorem exec_flumeAccess_noGrant {a c off len : Nat} {write : Bool} {data : List Byte} {s : State} {x : Machine.Array}
    (hx : s.arrays[a]? = some x) (hg : x.grant = none) :
    exec (.flumeAccess a c write off len data) s = .next (s.flumeFault a .flume write off) := by
  show execFlumeAccess a c write off len data s = _
  unfold execFlumeAccess
  simp only [hx, hg]

theorem exec_flumeRelease {a : Nat} {s : State} {x : Machine.Array} {g : Grant} {r : PassRun} {slot : TileSlot} {n : Net}
    (hx : s.arrays[a]? = some x) (hg : x.grant = some g) (ht : s.granted g = some (r, slot, n)) (hidle : x.layer = none)
    (hlast : x.step = n.layers.length) :
    exec (.flumeRelease a) s = .next (((s.releaseGrant a .written).retire (.array a) g.key).endUnit (.array a) g.key) := by
  show execFlumeRelease a s = _
  unfold execFlumeRelease
  simp [hx, hg, ht, hidle, hlast]

/-! ## The statements -/

theorem layerCommandsRules_hold : layerCommandsRules :=
  ⟨fun _ _ _ _ _ _ _ _ _ _ _ _ => exec_layerStart,
    fun _ _ _ _ _ _ _ _ _ => exec_layerComplete_layer,
    fun _ _ _ _ _ _ _ _ _ _ _ => exec_layerComplete_tileNet,
    fun _ _ _ _ _ _ => exec_netRunRestart⟩

theorem flumeRules_hold : flumeRulesRules := by
  refine ⟨fun _ _ _ _ _ _ _ _ _ _ _ => exec_flumeGrant, ?_, ?_, ?_, fun _ _ _ _ _ _ _ => exec_flumeRelease⟩
  · intro a c off len write data s x g t hx hg
    refine ⟨fun hc hlo hhi hup _ ht hlen => exec_flumeAccess_inside hx hg hc hlo hhi hup ht hlen, fun hout j hj => ?_⟩
    exact ⟨_, exec_flumeAccess_outside hx hg hout, tileNetFault_spec hj⟩
  · intro a c off len l write data s x w hx hg hw hl
    rw [exec_flumeAccess_noGrant hx hg]
    simp only [State.flumeFault, hx, hg, hw, hl, engineIsland]
  · intro a c off len tile write data s x w k hx hg hidle hw hl
    rw [exec_flumeAccess_noGrant hx hg]
    simp only [State.flumeFault, hx, hg, hidle, hw, hl]

/-- Settles O16: each command of a layer and of the flume, from the rule of the command. -/
theorem layerCommands : Obligations.LayerCommands := ⟨layerCommandsRules_hold, flumeRules_hold⟩

end Sys2Proof.Machine
end

section
/-! SUPPORT. Supplies, reset pins and clocks (R354, R355, R399 to R407), and the cold boot (R25, R246, R364, R365). -/

namespace Sys2Proof.Machine

/-! ## The device without power or in reset: what stays, and what is gone -/

@[simp] theorem deviceOff_aon (s : State) : s.deviceOff.aon = s.aon := by
  unfold State.deviceOff
  cases s.levee.staging <;> rfl

@[simp] theorem deviceOff_log (s : State) : s.deviceOff.log = s.log := by
  unfold State.deviceOff
  cases s.levee.staging <;> rfl

@[simp] theorem deviceOff_part (s : State) : s.deviceOff.part = s.part := by
  unfold State.deviceOff
  cases s.levee.staging <;> rfl

theorem coldStart_aon (cause : BitVec 4) (s : State) : (s.coldStart cause).aon =
    { s.aon with mode := .off, bootPending := true, wakePending := none, cause := cause, save := none, saveValid := false,
                 ldoLp := false, corePwrReq := true, memPwrEn := true, thermN := true, railSince := s.now } := by
  simp only [State.coldStart, State.bootNext, State.modAon_aon, State.modLevee_aon, deviceOff_aon]

@[simp] theorem coldStart_log (cause : BitVec 4) (s : State) : (s.coldStart cause).log = s.log := deviceOff_log s

theorem aonReset_aon (cause : BitVec 4) (boots : Bool) (s : State) : (s.aonReset cause boots).aon =
    { s.aon.powerOn with cause := cause, bootPending := boots, corePwrReq := boots, memPwrEn := boots, railSince := s.now } := by
  have h : ∀ m p w, Aon.powerOn { s.aon with mode := m, bootPending := p, wakePending := w } = s.aon.powerOn := fun _ _ _ => rfl
  simp only [State.aonReset, State.bootNext, State.modAon_aon, State.modLevee_aon, State.modIsland_aon, deviceOff_aon, h]

@[simp] theorem aonReset_log (cause : BitVec 4) (boots : Bool) (s : State) : (s.aonReset cause boots).log = s.log := deviceOff_log s
@[simp] theorem aonReset_ctxs (cause : BitVec 4) (boots : Bool) (s : State) : (s.aonReset cause boots).ctxs = [] := rfl

/-! ## Supplies, reset pins and clocks -/

theorem exec_brownOut {s : State} (hv : s.aon.vaon = true) (hr : s.aon.aonRst = false) :
    exec .brownOut s = .next (s.aonReset 2 true) := by
  show execBrownOut s = _
  simp [execBrownOut, hv, hr]

theorem exec_perst_asserted {s : State} (hv : s.aon.vaon = true) (hr : s.aon.aonRst = false) :
    exec (.perst true) s = .next ((s.coldStart 3).modAon fun a =>
      { a with perst := true, railTimeout := false, s3Wakes := 0, lpPeakMa := 0, liveWrite := false }) := by
  show execPerst true s = _
  simp [execPerst, hv, hr]

theorem exec_corePgood_fall {s : State} (hv : s.aon.vaon = true) (hr : s.aon.aonRst = false) (hreq : s.aon.corePwrReq = true) :
    exec (.corePgood false) s = .next ((s.modAon fun a => { a with corePgood := false }).coldStart 0) := by
  show execCorePgood false s = _
  simp [execCorePgood, hv, hr, hreq]

theorem exec_corePgood_rise (s : State) : exec (.corePgood true) s = .next (s.modAon fun a => { a with corePgood := true }) := by
  show execCorePgood true s = _
  simp [execCorePgood]

theorem exec_aonReset {s : State} (hv : s.aon.vaon = true) :
    exec .aonReset s = .next ((s.aonReset 1 false).modAon fun a => { a with aonRst := true }) := by
  show execAonReset s = _
  simp [execAonReset, hv]

theorem exec_aonRstRelease {s : State} (hv : s.aon.vaon = true) (hr : s.aon.aonRst = true) :
    exec .aonRstRelease s = .next (s.modAon fun a =>
      { a with aonRst := false, corePwrReq := true, memPwrEn := true, bootPending := true, railSince := s.now }) := by
  show execAonRstRelease s = _
  simp [execAonRstRelease, hv, hr]

@[simp] theorem advance_aon (us : Nat) (s : State) : (s.advance us).aon = s.aon := by
  unfold State.advance
  split <;> rfl

theorem advance_now (us : Nat) (s : State) : (s.advance us).now = max s.now us := by
  unfold State.advance
  split
  · exact (Nat.max_eq_right (Nat.le_of_lt ‹_›)).symm
  · exact (Nat.max_eq_left (Nat.le_of_not_lt ‹_›)).symm

theorem exec_pgoodWaitTimeout {s : State} (hm : s.aon.mode = .off) (hreq : s.aon.corePwrReq = true) (hg : s.aon.corePgood = false)
    (hw : s.aon.railSince + s.aon.railWait ≤ s.now) :
    exec .pgoodWaitTimeout s = .next ((s.advance (s.now + 100000)).modAon fun a =>
      { a with railSince := (s.advance (s.now + 100000)).now }) := by
  show execPgoodWaitTimeout s = _
  unfold execPgoodWaitTimeout
  rw [if_neg (by simp [hm, hreq, hg, hw])]

theorem suppliesAndPinsRules_hold : suppliesAndPinsRules := by
  refine fun s => ⟨fun hv hr => ⟨?brownOut, ?perst, exec_corePgood_fall hv hr⟩, fun hv => ?aonReset, rfl, exec_corePgood_rise s,
    exec_aonRstRelease, fun hm hreq hg hw => ?pgoodWait, ?vaonLoss, rfl, fun hv => ?xtal, rfl⟩
  case brownOut => exact ⟨_, exec_brownOut hv hr, by simp [aonReset_aon, Aon.powerOn, resetAon]⟩
  case perst => exact ⟨_, exec_perst_asserted hv hr, by simp [coldStart_aon]⟩
  case aonReset => exact ⟨_, exec_aonReset hv, by simp [aonReset_aon]⟩
  case pgoodWait => exact ⟨_, exec_pgoodWaitTimeout hm hreq hg hw, by simp [advance_now]⟩
  case vaonLoss => exact ⟨_, rfl, by simp [aonReset_aon]⟩
  case xtal =>
    show execXtal32kStable s = _
    simp [execXtal32kStable, hv]

/-! ## Repair (R25) -/

theorem outBankOf_nil (spare : Nat) : outBankOf spare [] = spare := rfl

theorem outBankOf_singleton (spare x : Nat) : outBankOf spare [x] = x := rfl

/-- A group with two failing banks is retired. -/
theorem outBankOf_of_two (spare : Nat) {failing : List Nat} {x y : Nat} (h : x ≠ y) (hx : x ∈ failing) (hy : y ∈ failing) :
    outBankOf spare failing = 0xF := by
  rw [← List.mem_eraseDups] at hx hy
  unfold outBankOf
  match failing.eraseDups, hx, hy with
  | [b], hx, hy => exact absurd ((List.mem_singleton.mp hx).trans (List.mem_singleton.mp hy).symm) h
  | _ :: _ :: _, _, _ => rfl

/-- The bank that repair takes out of service in a group. -/
theorem repair_outBank {failing : MbistResult} {s : State} {g n : Nat} (hg : g < 8) (h : (s.repair failing).rsv.outBank[g]? = some n) :
    n = outBankOf (s.part.spare.getD g 8) (failing.getD g []) := by
  simp only [State.repair, State.modRsv_rsv, List.getElem?_map, List.getElem?_range hg, Option.map_some, Option.some.injEq] at h
  exact h.symm

theorem exec_mbistComplete (failing : MbistResult) {s : State} (h : s.bootReady = true) :
    exec (.mbistComplete failing) s = .next (s.repair failing) := by
  show execMbistComplete failing s = _
  simp [execMbistComplete, h]

/-! ## The cold boot up to the choice of the images -/

/-- The device as the boot ROM finds it, with its banks repaired and its memories initialised (R364, steps 1, 6 and 7). -/
def State.romReady (failing : MbistResult) (s : State) : State :=
  (((s.deviceOff.repair failing).modAon fun a => { a with bootPending := false }).refreshAllBanks.modRsv fun r =>
    { r with groupAlert := 0 }).modMem fun m => { m with dram := [], rsv := [], rsvUe := [], dramUe := [] }

@[simp] theorem romReady_aon (failing : MbistResult) (s : State) : (s.romReady failing).aon = { s.aon with bootPending := false } := by
  show ({ s.deviceOff.aon with bootPending := false } : Aon) = _
  rw [deviceOff_aon]

@[simp] theorem romReady_outBank (failing : MbistResult) (s : State) :
    (s.romReady failing).rsv.outBank = (s.repair failing).rsv.outBank := by
  show (s.deviceOff.repair failing).rsv.outBank = _
  simp only [State.repair, State.modRsv_rsv, deviceOff_part]

/-- What verification reads of the Levee block: the images of the slots and the one-time-programmable state. -/
theorem romReady_levee (failing : MbistResult) {s : State} (h : s.levee.staging = none) :
    (s.romReady failing).levee = { resetLevee with
      otpKeys := s.levee.otpKeys, otpRevoked := s.levee.otpRevoked, otpSvn := s.levee.otpSvn, slotA := s.levee.slotA,
      slotB := s.levee.slotB, recordSeq := s.levee.recordSeq, activeSlot := s.levee.activeSlot, staged := s.levee.staged,
      wakeFail := s.levee.wakeFail } := by
  show s.deviceOff.levee = _
  unfold State.deviceOff
  rw [h]
  rfl

/-- Verification depends on nothing but the one-time-programmable state. -/
theorem firstFail_congr {s t : State} (hk : t.levee.otpKeys = s.levee.otpKeys) (hr : t.levee.otpRevoked = s.levee.otpRevoked)
    (hs : t.levee.otpSvn = s.levee.otpSvn) (imgs : List FwImage) : ∀ ps, t.firstFail imgs ps = s.firstFail imgs ps
  | [] => rfl
  | p :: ps => by
    have hv : ∀ img q, t.verify img q = s.verify img q := fun img q => by simp only [State.verify, hk, hr, hs]
    simp only [State.firstFail, hv, firstFail_congr hk hr hs imgs ps]

/-- With images of the ACTIVE slot that pass, the boot ROM takes them (R364). -/
theorem romReady_pickSlot (failing : MbistResult) {s : State} (hst : s.levee.staging = none)
    (hok : s.firstFail (s.levee.slot s.levee.activeSlot) bootOrder = none) :
    (s.romReady failing).pickSlot = (some s.levee.activeSlot, (s.romReady failing).levee) := by
  have hl := romReady_levee failing hst
  have hslot : (s.romReady failing).levee.slot (s.romReady failing).levee.activeSlot = s.levee.slot s.levee.activeSlot := by
    rw [hl]; rfl
  have hpass : (s.romReady failing).firstFail (s.levee.slot s.levee.activeSlot) bootOrder = none :=
    (firstFail_congr (s := s) (by rw [hl]) (by rw [hl]) (by rw [hl]) _ _).trans hok
  simp only [State.pickSlot, hslot, hpass]
  rw [hl]

/-! ## The cold boot with images -/

/-- Two states that agree on all but Levee's block, the islands, Weir's block and the log. -/
def State.SameUnits (s t : State) : Prop :=
  ∃ v is w l lw, t = { s with levee := v, islands := is, weir := w, log := l, logWait := lw }

theorem State.SameUnits.trans {s t u : State} (h : s.SameUnits t) (h' : t.SameUnits u) : s.SameUnits u := by
  obtain ⟨_, _, _, _, _, rfl⟩ := h
  obtain ⟨_, _, _, _, _, rfl⟩ := h'
  exact ⟨_, _, _, _, _, rfl⟩

theorem sameUnits_applyOtp (s : State) : s.SameUnits s.applyOtp := ⟨_, _, _, _, _, rfl⟩
theorem sameUnits_loadPlan (s : State) : s.SameUnits s.loadPlan := ⟨_, _, _, _, _, rfl⟩
theorem sameUnits_bootIslands (s : State) : s.SameUnits s.bootIslands := ⟨_, _, _, _, _, rfl⟩
theorem sameUnits_marginFlags (s : State) : s.SameUnits s.marginFlags := ⟨_, _, _, _, _, rfl⟩

theorem sameUnits_loadHours (s : State) : s.SameUnits s.loadHours := by
  unfold State.loadHours
  split <;> exact ⟨_, _, _, _, _, rfl⟩

theorem sameUnits_logWrite (type : BitVec 8) (payload : List Byte) (s : State) : s.SameUnits (s.logWrite type payload) := by
  unfold State.logWrite
  split
  · exact ⟨_, _, _, _, _, rfl⟩
  · split <;> exact ⟨_, _, _, _, _, rfl⟩

/-- The processors loaded with the images of a slot, the plan in force and the islands out of reset (R364, steps 3 to 5). -/
def State.bootUnits (b : Bool) (v : Levee) (s : State) : State :=
  let s := { s with levee := v, procs := loadedProcs (v.slot b) }
  ((if v.otpSvn < maxN ((v.slot b).map (·.svn)) then s.applyOtp else s).loadPlan.loadHours.bootIslands).marginFlags

theorem bootUnits_sameUnits (b : Bool) (v : Levee) (s : State) :
    ({ s with procs := loadedProcs (v.slot b) } : State).SameUnits (s.bootUnits b v) := by
  have hl : ({ s with procs := loadedProcs (v.slot b) } : State).SameUnits { s with levee := v, procs := loadedProcs (v.slot b) } :=
    ⟨_, _, _, _, _, rfl⟩
  unfold State.bootUnits
  refine ((((hl.trans ?_).trans (sameUnits_loadPlan _)).trans (sameUnits_loadHours _)).trans (sameUnits_bootIslands _)).trans
    (sameUnits_marginFlags _)
  split
  · exact sameUnits_applyOtp _
  · exact ⟨_, _, _, _, _, rfl⟩

/-- The state that the functions' start finds: the windows of R246, the link's configuration, mode A and the BOOT entry. -/
def State.bootEnd (s : State) : State :=
  let s := (s.bootWindows.modPcie fun p => { p with cfg := Config.bootLinkCfg &&& 0xFF }).modAon fun a => { a with mode := .a }
  s.logWrite 0x04 (bootPayload s.aon.cause s.levee)

theorem coldBoot_eq_of_pickSlot {failing : MbistResult} {s : State} {b : Bool} {v : Levee}
    (h : (s.romReady failing).pickSlot = (some b, v)) :
    s.coldBoot failing true = (((s.romReady failing).bootUnits b v).bootEnd).functionsReady := by
  show (match (s.romReady failing).pickSlot with
    | (none, v) => ({ s.romReady failing with levee := v } : State).allFatal
    | (some b, v) => (((s.romReady failing).bootUnits b v).bootEnd).functionsReady) = _
  rw [h]

/-! ## The functions become READY (R364, R384) -/

/-- A function READY in STARTUP. -/
def Fun.started (f : Fun) : Fun := { f with service := .startup, st := .ready }

theorem modNth_modNth {α : Type} (f g : α → α) : ∀ (i : Nat) (l : List α), modNth f i (modNth g i l) = modNth (fun a => f (g a)) i l
  | _, [] => by simp [modNth]
  | 0, a :: as => rfl
  | i + 1, a :: as => by simp only [modNth, modNth_modNth f g i as]

/-- A function that is not READY becomes so; with MSI-X off nothing is announced. -/
theorem setFnState_started {s : State} {fn : Nat} {f : Fun} (hf : s.funs[fn]? = some f) (hst : f.st = .booting)
    (hm : f.msixEnable = false) :
    (s.modFun fn fun f => { f with service := .startup }).setFnState fn .ready = s.modFun fn Fun.started := by
  simp only [State.setFnState, State.fnState, State.modFun_funs, getElem?_modNth_self, hf, Option.map_some, hst, State.msix, hm,
    reduceCtorEq, if_false, Bool.not_false, if_true]
  simp only [State.modFun, modNth_modNth]
  rfl

theorem functionsReady_eq {s : State} {a b c d : Fun} (h : s.funs = [a, b, c, d])
    (hb : ∀ f ∈ [a, b, c, d], f.st = .booting ∧ f.msixEnable = false) :
    s.functionsReady = { s with funs := [a.started, b.started, c.started, d.started] } := by
  simp only [List.forall_mem_cons] at hb
  obtain ⟨ha, hb, hc, hd, -⟩ := hb
  simp only [State.functionsReady, runAll]
  rw [setFnState_started (fn := 0) (by rw [h]; rfl) ha.1 ha.2,
    setFnState_started (fn := 1) (by rw [State.modFun_funs, h]; rfl) hb.1 hb.2,
    setFnState_started (fn := 2) (by rw [State.modFun_funs, State.modFun_funs, h]; rfl) hc.1 hc.2,
    setFnState_started (fn := 3) (by rw [State.modFun_funs, State.modFun_funs, State.modFun_funs, h]; rfl) hd.1 hd.2]
  simp only [State.modFun, h, modNth]

/-- The functions of a cold boot before they start: PF0 has all of DRAM and of the Reservoir, the others nothing (R246). -/
def State.windowedFuns (s : State) : List Fun :=
  [{ resetFun with dramWin := [(0, s.dramBytes / 67108864), (0, 0), (0, 0), (0, 0)], rsvMask := BitVec.ofNat 64 (2 ^ s.rsvGranules - 1) },
    resetFun, resetFun, resetFun]

theorem bootWindows_funs {s : State} (h : s.funs = List.replicate 4 resetFun) : s.bootWindows.funs = s.windowedFuns := by
  unfold State.bootWindows
  rw [h]
  rfl

/-- The end of the boot ROM's run: what it leaves of the state that it loaded the processors in. -/
theorem bootEnd_functionsReady {s : State} (h : s.funs = List.replicate 4 resetFun) :
    ∃ v is w l lw, s.bootEnd.functionsReady =
      { s with levee := v, islands := is, weir := w, log := l, logWait := lw,
               pcie := { s.pcie with cfg := Config.bootLinkCfg &&& 0xFF }, aon := { s.aon with mode := .a },
               funs := s.windowedFuns.map Fun.started } := by
  obtain ⟨v, is, w, l, lw, hlog⟩ := sameUnits_logWrite 0x04 (bootPayload s.aon.cause s.levee)
    ((s.bootWindows.modPcie fun p => { p with cfg := Config.bootLinkCfg &&& 0xFF }).modAon fun a => { a with mode := .a })
  have hend : s.bootEnd = _ := hlog
  have hfuns : s.bootEnd.funs = s.windowedFuns := by
    rw [hend]
    exact bootWindows_funs h
  refine ⟨v, is, w, l, lw, ?_⟩
  rw [functionsReady_eq hfuns (by simp [resetFun]), hend]
  rfl

/-! ## COLD_BOOT -/

theorem exec_coldBoot (failing : MbistResult) (ok : Bool) {s : State} (h : s.bootReady = true) :
    exec (.coldBoot failing ok) s = .next (s.coldBoot failing ok) := by
  show execColdBoot failing ok s = _
  simp [execColdBoot, h]

/-- With images that pass: what the cold boot leaves (R364). -/
theorem coldBoot_of_images (failing : MbistResult) {s : State} (hst : s.levee.staging = none)
    (hok : s.firstFail (s.levee.slot s.levee.activeSlot) bootOrder = none) :
    ∃ v is w l lw, s.coldBoot failing true =
      { s.romReady failing with
        procs := loadedProcs (s.levee.slot s.levee.activeSlot), levee := v, islands := is, weir := w, log := l, logWait := lw,
        pcie := { (s.romReady failing).pcie with cfg := Config.bootLinkCfg &&& 0xFF },
        aon := { s.aon with bootPending := false, mode := .a },
        funs := (s.romReady failing).windowedFuns.map Fun.started } := by
  have hslot : (s.romReady failing).levee.slot s.levee.activeSlot = s.levee.slot s.levee.activeSlot := by
    rw [romReady_levee failing hst]
    rfl
  obtain ⟨_, _, _, _, _, hu⟩ := bootUnits_sameUnits s.levee.activeSlot (s.romReady failing).levee (s.romReady failing)
  obtain ⟨v, is, w, l, lw, he⟩ := bootEnd_functionsReady
    (s := (s.romReady failing).bootUnits s.levee.activeSlot (s.romReady failing).levee) (by rw [hu]; rfl)
  refine ⟨v, is, w, l, lw, ?_⟩
  rw [coldBoot_eq_of_pickSlot (romReady_pickSlot failing hst hok), he, hu, hslot]
  simp only [romReady_aon]
  rfl

theorem loadedProcs_getElem? {imgs : List FwImage} {n : Nat} {p : Proc} (h : (loadedProcs imgs)[n]? = some p) :
    p.up = true ∧ p.image = imgs[n]? := by
  have hn : n < 4 := by
    have := (List.getElem?_eq_some_iff.mp h).1
    simpa [loadedProcs] using this
  simp only [loadedProcs, List.getElem?_map, List.getElem?_range hn, Option.map_some, Option.some.injEq] at h
  subst h
  exact ⟨rfl, rfl⟩

/-- The functions after a cold boot (R246, R364, R384). -/
theorem windowedFuns_started {s : State} {fn : Nat} {f : Fun} (h : (s.windowedFuns.map Fun.started)[fn]? = some f) :
    f.st = .ready ∧ f.service = .startup ∧
      (fn = 0 → f.dramWin = [(0, s.dramBytes / 67108864), (0, 0), (0, 0), (0, 0)] ∧ f.rsvMask = BitVec.ofNat 64 (2 ^ s.rsvGranules - 1)) ∧
      (fn ≠ 0 → f.dramWin = [(0, 0), (0, 0), (0, 0), (0, 0)] ∧ f.rsvMask = 0) := by
  match fn, h with
  | 0, h => cases h; simp [Fun.started]
  | 1, h => cases h; simp [Fun.started, resetFun]
  | 2, h => cases h; simp [Fun.started, resetFun]
  | 3, h => cases h; simp [Fun.started, resetFun]

theorem coldBootRules_hold : coldBootRules := by
  intro failing s hready
  refine ⟨exec_mbistComplete failing hready, fun g hg n hn => ?repair, fun hst hok => ?images, ?badConfig⟩
  case repair =>
    obtain rfl := repair_outBank hg hn
    refine ⟨fun h => ?_, fun x h => ?_, fun x y hne hx hy => outBankOf_of_two _ hne hx hy⟩
    · rw [h, outBankOf_nil]
    · rw [h, outBankOf_singleton]
  case images =>
    obtain ⟨v, is, w, l, lw, ht⟩ := coldBoot_of_images failing hst hok
    refine ⟨_, exec_coldBoot failing true hready, ?_⟩
    rw [ht]
    exact ⟨rfl, rfl, rfl, rfl, rfl, romReady_outBank failing s, rfl, fun n p hp => loadedProcs_getElem? hp,
      fun fn f hf => windowedFuns_started hf⟩
  case badConfig =>
    exact ⟨_, exec_coldBoot failing false hready, rfl, by simp [State.coldBoot, State.allFatal]⟩

/-- Settles O48: the resets, pins and clocks by the rule of each command; the cold boot by following the boot ROM's steps. -/
theorem powerOnAndBoot : Obligations.PowerOnAndBoot := ⟨suppliesAndPinsRules_hold, coldBootRules_hold⟩

end Sys2Proof.Machine
end

section
/-! SUPPORT. The compositor's flat write (R212, R213) on a Reservoir whose list of cells is not in the canonical form. -/

namespace Sys2Proof.Machine

/-! ## Writes to the Reservoir under byte enables -/

/-- A masked write passes over the cells before it that lie below its first address. -/
theorem writeMasked_cons_of_lt {c : Host.Cell} : ∀ (bs : List (Byte × Bool)) {a : Nat} (cs : List Host.Cell), c.1 < a →
    writeMasked a bs (c :: cs) = c :: writeMasked a bs cs
  | [], _, _, _ => rfl
  | (b, e) :: bs, a, cs, h => by
    have hb : (if e then writeByte a b (c :: cs) else c :: cs) = c :: if e then writeByte a b cs else cs := by
      cases e
      · rfl
      · simp only [if_true, writeByte, if_neg (show ¬a < c.1 by omega), if_neg (show ¬a = c.1 by omega)]
    simp only [writeMasked, hb]
    exact writeMasked_cons_of_lt bs _ (by omega)

theorem runAll_rsvError_mem : ∀ (ws : List Nat) (s : State), (runAll (fun (x : Nat) (s : State) => s.rsvError x true false) ws s).mem = s.mem
  | [], _ => rfl
  | _ :: ws, _ => runAll_rsvError_mem ws _

/-- A write to the Reservoir that covers part of a word in error is made byte by byte (R44). -/
theorem wr'_reservoir_of_bad {s : State} {a w : Nat} {ws : List Nat} {bs : List Byte}
    (h : wordsIn (clearWhole s.mem.rsvUe a bs.length) a bs.length = w :: ws) :
    (s.wr' .reservoir a bs).mem.rsv = writeMasked a (rsvEnables (w :: ws) a bs) s.mem.rsv := by
  simp only [State.wr', State.wr, h, runAll_rsvError_mem]

/-! ## The flat write -/

theorem exec_flatWriteDone {p run : Nat} {s : State} {u : Pipe} (hu : s.pipes[p]? = some u) (hw : u.flatWrite = some run)
    (hd : u.flatDone = false) (hup : s.islandUp 0x6C = true) (hroom : s.flatNoRoom u.applied = false) :
    exec (.flatWriteDone p) s = .next ((s.fresh.2.writeFlat p run u.applied s.fresh.1).modPipe p fun u =>
      { u with flatDone := true, flatTags := true }) := by
  show execFlatWriteDone p s = _
  unfold execFlatWriteDone
  simp [hu, hw, hd, hup, hroom]

/-- The bytes of a micro-tile of the flat layer. -/
def State.flatTile (s : State) (p run : Nat) (c : PipeCfg) (v x y : Nat) : List Byte :=
  (List.range 4).flatMap fun dy => (List.range 8).flatMap fun dx => toLE 4 (s.flatWord p run c v (x + dx) (y + dy))

/-- A flat layer of one pixel is one micro-tile, at the start of its region. -/
theorem writeFlat_of_one {s : State} {p run v : Nat} {c : PipeCfg} (hx : c.activeW = 1) (hy : c.activeH = 1) :
    s.writeFlat p run c v = s.wr' .reservoir (fld c.flatCfg.toNat 7 0 * granuleBytes) (s.flatTile p run c v 0 0) := by
  have h : blockOffset 4 1 0 0 = 0 := by decide
  unfold State.writeFlat
  simp only [hx, hy, PipeCfg.flatPlace]
  simp [ceilDiv, runAll, h, State.flatTile]

theorem flatTile_eq_cons (s : State) (p run : Nat) (c : PipeCfg) (v x y : Nat) :
    ∃ bs, s.flatTile p run c v x y = BitVec.ofNat 8 (s.flatWord p run c v x y) :: bs := ⟨_, rfl⟩

/-- Layers that are not enabled leave the result below them (R207). -/
theorem blendLayers_of_disabled (s : State) (p x y : Nat) (below : List Nat) : ∀ {ls : List Layer}, (∀ l ∈ ls, l.enable = false) →
    s.blendLayers p ls x y below = below
  | [], _ => rfl
  | l :: ls, h => by
    obtain ⟨hl, hls⟩ := List.forall_mem_cons.mp h
    have step : s.blendLayers p (l :: ls) x y below = s.blendLayers p ls x y below := by simp [State.blendLayers, hl]
    rw [step, blendLayers_of_disabled s p x y below hls]

/-- A black pixel's word holds nothing but the free alpha in its two upper bits. -/
theorem flatWord_black {s : State} {p run v x y : Nat} {c : PipeCfg} (hx : x < c.activeW) (hy : y < c.activeH)
    (hbg : c.background = [0, 0, 0]) (hl : ∀ l ∈ c.layers, l.enable = false) :
    s.flatWord p run c v x y = 2 ^ 30 * (Config.flatWord v x y % 4) := by
  unfold State.flatWord
  rw [if_neg (by omega), blendLayers_of_disabled s p x y _ fun l h => hl l (List.mem_of_mem_take h), hbg]
  simp [at', Nat.shiftLeft_eq, Nat.mul_comm]

/-! ## The counterexample -/

/-- A pipe of one black pixel with its flat layer's region in granule 1. -/
def onePixel : PipeCfg := { resetPipeCfg with timingH := 0, timingV := 0, flatCfg := 0x101 }

/-- The pipe that shows it and owes its flat write. -/
def onePixelPipe : Pipe := { resetPipe with applied := onePixel, flatWrite := some 2 }

/-- The Reservoir's list has the cell of address 0 behind that of granule 1, where no read finds it, and names a word in error
that lies across the start of granule 1. -/
def misordered : State :=
  { State.reset with
    islands := State.reset.islands.map fun i => { i with inReset := false }
    funs := State.reset.funs.map fun f => { f with rsvMask := 2 }
    mem := { State.reset.mem with rsv := [(granuleBytes, 1), (0, 7)], rsvUe := [granuleBytes - 4] }
    pipes := [onePixelPipe] }

/-- The flat write's first byte, a 0, takes the cell of granule 1 off the list, and with it what hid the cell of address 0. -/
theorem readByte_misordered_writeFlat :
    readByte (misordered.fresh.2.writeFlat 0 2 onePixel misordered.fresh.1).mem.rsv 0 = 7 := by
  obtain ⟨bs, hbs⟩ := flatTile_eq_cons misordered.fresh.2 0 2 onePixel misordered.fresh.1 0 0
  rw [flatWord_black (by decide) (by decide) (by decide) (by decide)] at hbs
  have hzero : ∀ q, BitVec.ofNat 8 (2 ^ 30 * q) = 0 := fun q => BitVec.eq_of_toNat_eq (by simp; omega)
  have hplace : fld onePixel.flatCfg.toNat 7 0 * granuleBytes = granuleBytes := by decide
  have hbad : wordsIn (clearWhole misordered.fresh.2.mem.rsvUe granuleBytes (0 :: bs).length) granuleBytes (0 :: bs).length =
      [granuleBytes - 4] := by
    have hlt : 4194300 < 4194304 + (bs.length + 1) := by omega
    simp [misordered, State.fresh, clearWhole, wordsIn, granuleBytes, hlt]
  have hfirst : rsvEnables [granuleBytes - 4] granuleBytes (0 :: bs) =
      (0, true) :: rsvEnables [granuleBytes - 4] (granuleBytes + 1) bs := by
    simp [rsvEnables, wordBase, granuleBytes]
  have hcells : writeByte granuleBytes 0 misordered.fresh.2.mem.rsv = [(0, 7)] := by decide
  rw [writeFlat_of_one (by decide) (by decide), hbs, hzero, hplace, wr'_reservoir_of_bad hbad, hfirst]
  simp only [writeMasked, if_true, hcells]
  rw [writeMasked_cons_of_lt _ _ (by decide)]
  rfl

/-- Refutes O26, by the clause on the compositor's flat write: it says of every state that a byte outside the region reads as
before, and does not ask for the canonical form of memory (`Mem.wf`). On a list of cells that is out of order, and with an error
listed at a place where no 64-bit word begins, a write takes a cell away and uncovers one that no read found: in `misordered` the
byte at address 0 reads as 0 before the flat write and as 7 after it, though the region begins at granule 1. -/
theorem not_displayCommands : ¬ Obligations.DisplayCommands := by
  rintro ⟨-, -, hevents⟩
  have hu : misordered.pipes[0]? = some onePixelPipe := rfl
  have hup : misordered.islandUp 0x6C = true := by decide +kernel
  have hroom : misordered.flatNoRoom onePixelPipe.applied = false := by decide +kernel
  obtain ⟨-, -, -, hflat, -⟩ := hevents 0 misordered onePixelPipe hu
  obtain ⟨t, ht, -, -, -, hout⟩ := hflat 2 rfl rfl hup hroom
  rw [exec_flatWriteDone hu rfl rfl hup hroom] at ht
  obtain rfl := Host.Outcome.next.inj ht
  have hbase : ¬onePixelPipe.applied.flatCfg.toNat % 256 * granuleBytes ≤ 0 := by decide
  have hkept := hout 0 fun h => hbase h.1
  rw [State.modPipe_mem, show onePixelPipe.applied = onePixel from rfl, readByte_misordered_writeFlat] at hkept
  exact absurd hkept (by decide)

end Sys2Proof.Machine
end

section
/-! SUPPORT. The INT32 accumulation of the integer layers (R167): what a saturating sum answers in every order. -/

namespace Sys2Proof.Machine

/-! ## Integers of INT32 -/

/-- An integer of the INT32 range. -/
def InInt32 (v : Int) : Prop := -2147483648 ≤ v ∧ v ≤ 2147483647

theorem inInt32_clampInt (v : Int) : InInt32 (clampInt int32Min int32Max v) := by
  unfold clampInt InInt32 int32Min int32Max
  omega

theorem clampInt_of_inInt32 {v : Int} (h : InInt32 v) : clampInt int32Min int32Max v = v := by
  obtain ⟨hlo, hhi⟩ := h
  rw [clampInt, if_neg (by unfold int32Min; omega), if_neg (by unfold int32Max; omega)]

/-- Values that are not negative leave INT32 at its upper end only. -/
theorem clampInt_of_nonneg {v : Int} (h : 0 ≤ v) : clampInt int32Min int32Max v = min v 2147483647 := by
  unfold clampInt int32Min int32Max
  omega

/-- Values that are not positive leave INT32 at its lower end only. -/
theorem clampInt_of_nonpos {v : Int} (h : v ≤ 0) : clampInt int32Min int32Max v = max v (-2147483648) := by
  unfold clampInt int32Min int32Max
  omega

/-! ## Sums of lists -/

theorem sum_nonneg_of_forall : ∀ {vs : List Int}, (∀ x ∈ vs, 0 ≤ x) → 0 ≤ vs.sum
  | [], _ => Int.le_refl 0
  | v :: vs, h => by
    obtain ⟨hv, hvs⟩ := List.forall_mem_cons.mp h
    have ih := sum_nonneg_of_forall hvs
    rw [List.sum_cons]
    omega

theorem sum_nonpos_of_forall : ∀ {vs : List Int}, (∀ x ∈ vs, x ≤ 0) → vs.sum ≤ 0
  | [], _ => Int.le_refl 0
  | v :: vs, h => by
    obtain ⟨hv, hvs⟩ := List.forall_mem_cons.mp h
    have ih := sum_nonpos_of_forall hvs
    rw [List.sum_cons]
    omega

theorem sum_eq_of_perm {vs ws : List Int} (h : vs.Perm ws) : vs.sum = ws.sum := by
  induction h with
  | nil => rfl
  | cons x _ ih => rw [List.sum_cons, List.sum_cons, ih]
  | swap x y zs =>
    simp only [List.sum_cons]
    omega
  | trans _ _ ih₁ ih₂ => exact ih₁.trans ih₂

/-- The element at a place of a list in front of what is left. -/
theorem perm_getD_eraseIdx : ∀ {vs : List Int} {i : Nat}, i < vs.length → (vs.getD i 0 :: vs.eraseIdx i).Perm vs
  | _ :: _, 0, _ => .refl _
  | v :: vs, i + 1, h => by
    rw [List.getD_cons_succ, List.eraseIdx_cons_succ]
    exact (List.Perm.swap v _ _).trans (.cons v (perm_getD_eraseIdx (Nat.lt_of_succ_lt_succ h)))

/-! ## What a saturating sum answers in every order -/

/-- What an answer (a value, and whether it saturated) says of a list of terms whatever the order of their additions is: terms of
one sign stop at the end that they pass, and a sum outside INT32 saturates. -/
structure SaturatingSum (vs : List Int) (r : Int × Bool) : Prop where
  nonneg : (∀ x ∈ vs, 0 ≤ x) → r.1 = min vs.sum 2147483647 ∧ (r.2 = true ↔ 2147483647 < vs.sum)
  nonpos : (∀ x ∈ vs, x ≤ 0) → r.1 = max vs.sum (-2147483648) ∧ (r.2 = true ↔ vs.sum < -2147483648)
  beyond : ¬InInt32 vs.sum → r.2 = true

/-- An exact answer inside INT32 is a saturating sum. -/
theorem SaturatingSum.exact {vs : List Int} (h : InInt32 vs.sum) : SaturatingSum vs (vs.sum, false) := by
  obtain ⟨hlo, hhi⟩ := h
  refine ⟨fun _ => ⟨?_, ?_⟩, fun _ => ⟨?_, ?_⟩, fun hn => absurd ⟨hlo, hhi⟩ hn⟩
  · show vs.sum = min vs.sum 2147483647
    omega
  · exact iff_of_false Bool.false_ne_true (Int.not_lt.mpr hhi)
  · show vs.sum = max vs.sum (-2147483648)
    omega
  · exact iff_of_false Bool.false_ne_true (Int.not_lt.mpr hlo)

theorem SaturatingSum.perm {vs ws : List Int} {r : Int × Bool} (h : vs.Perm ws) (hr : SaturatingSum vs r) : SaturatingSum ws r where
  nonneg hs := sum_eq_of_perm h ▸ hr.nonneg fun x hx => hs x (h.mem_iff.mp hx)
  nonpos hs := sum_eq_of_perm h ▸ hr.nonpos fun x hx => hs x (h.mem_iff.mp hx)
  beyond hs := hr.beyond (sum_eq_of_perm h ▸ hs)

/-- One saturating addition in front of a saturating sum of the rest. -/
theorem SaturatingSum.add {x y : Int} {zs : List Int} {r : Int × Bool}
    (h : SaturatingSum (clampInt int32Min int32Max (x + y) :: zs) r) :
    SaturatingSum (x :: y :: zs) (r.1, r.2 || decide (x + y < int32Min) || decide (int32Max < x + y)) := by
  refine ⟨fun hs => ?_, fun hs => ?_, fun hs => ?_⟩
  · simp only [List.forall_mem_cons] at hs
    obtain ⟨hx, hy, hzs⟩ := hs
    have hclamp := clampInt_of_nonneg (show 0 ≤ x + y by omega)
    obtain ⟨hval, hsat⟩ := h.nonneg (List.forall_mem_cons.mpr ⟨by omega, hzs⟩)
    have hz := sum_nonneg_of_forall hzs
    simp only [hval, hsat, List.sum_cons, hclamp, Bool.or_eq_true, decide_eq_true_eq]
    unfold int32Min int32Max
    omega
  · simp only [List.forall_mem_cons] at hs
    obtain ⟨hx, hy, hzs⟩ := hs
    have hclamp := clampInt_of_nonpos (show x + y ≤ 0 by omega)
    obtain ⟨hval, hsat⟩ := h.nonpos (List.forall_mem_cons.mpr ⟨by omega, hzs⟩)
    have hz := sum_nonpos_of_forall hzs
    simp only [hval, hsat, List.sum_cons, hclamp, Bool.or_eq_true, decide_eq_true_eq]
    unfold int32Min int32Max
    omega
  · by_cases hin : InInt32 (x + y)
    · have hr : r.2 = true := h.beyond (by rwa [clampInt_of_inInt32 hin, List.sum_cons, Int.add_assoc])
      rw [hr, Bool.true_or, Bool.true_or]
    · simp only [Bool.or_eq_true, decide_eq_true_eq]
      unfold InInt32 at hin
      unfold int32Min int32Max
      omega

/-- At most one value of INT32 is its own sum. -/
theorem SaturatingSum.of_length_le_one {vs : List Int} (h : vs.length ≤ 1) (hvs : ∀ x ∈ vs, InInt32 x) :
    SaturatingSum vs (vs.headD 0, false) := by
  match vs, h with
  | [], _ => exact .exact (vs := []) ⟨by decide, by decide⟩
  | [v], _ =>
    have hsum : [v].sum = v := by rw [List.sum_cons, List.sum_nil, Int.add_zero]
    have hv : InInt32 [v].sum := hsum.symm ▸ hvs v (List.mem_singleton_self v)
    have := SaturatingSum.exact hv
    rwa [hsum] at this

/-- The tree of saturating additions over values of INT32, in whatever order it takes them. -/
theorem saturatingSum_satTree (k : Nat) : ∀ (n : Nat) (vs : List Int), vs.length ≤ n → (∀ x ∈ vs, InInt32 x) →
    SaturatingSum vs (satTree k n vs)
  | 0, vs, hn, hvs => .of_length_le_one (by omega) hvs
  | n + 1, vs, hn, hvs => by
    rw [satTree]
    split
    · exact .of_length_le_one ‹_› hvs
    · have hi : Config.treePick k (2 * n) % vs.length < vs.length := Nat.mod_lt _ (by omega)
      have hrest := List.length_eraseIdx_of_lt hi
      have hj := Nat.mod_lt (Config.treePick k (2 * n + 1)) (show (vs.eraseIdx _).length > 0 by rw [hrest]; omega)
      have hpicked := ((perm_getD_eraseIdx hj).cons _).trans (perm_getD_eraseIdx hi)
      refine .perm hpicked (.add (saturatingSum_satTree k n _ ?_ (List.forall_mem_cons.mpr ⟨?_, ?_⟩)))
      · rw [List.length_cons, List.length_eraseIdx_of_lt hj]
        omega
      · exact inInt32_clampInt _
      · exact fun x hx => hvs x (List.mem_of_mem_eraseIdx (List.mem_of_mem_eraseIdx hx))

/-! ## The sum of an output element -/

theorem sum_filter_pos_add_sum_filter_neg : ∀ ps : List Int,
    (ps.filter fun v => decide (0 < v)).sum + (ps.filter fun v => decide (v < 0)).sum = ps.sum
  | [] => rfl
  | p :: ps => by
    have ih := sum_filter_pos_add_sum_filter_neg ps
    rw [List.filter_cons, List.filter_cons]
    simp only [decide_eq_true_eq]
    split <;> split <;> simp only [List.sum_cons] <;> omega

/-- Where the positive terms and the negative ones stay in INT32 each for itself, the sum is exact, and else the tree's. -/
theorem intSum_eq (k : Nat) (ps : List Int) : intSum k ps =
    if (ps.filter fun v => decide (0 < v)).sum ≤ 2147483647 ∧ -2147483648 ≤ (ps.filter fun v => decide (v < 0)).sum
    then (ps.sum, false) else satTree k ps.length ps := by
  simp only [intSum, ← List.sum_eq_foldl, sum_filter_pos_add_sum_filter_neg, int32Max, int32Min]

/-- A sum that stays in INT32 over every sublist cannot leave it in any order: it is exact. -/
theorem intSum_of_sublists {k : Nat} {ps : List Int} (h : ∀ qs : List Int, qs.Sublist ps → InInt32 qs.sum) :
    intSum k ps = (ps.sum, false) := by
  rw [intSum_eq, if_pos ⟨(h _ List.filter_sublist).2, (h _ List.filter_sublist).1⟩]

/-- A sum of terms of INT32 saturates as R167 says, in whatever order it is made. -/
theorem saturatingSum_intSum (k : Nat) {ps : List Int} (hps : ∀ x ∈ ps, InInt32 x) : SaturatingSum ps (intSum k ps) := by
  have hpos : 0 ≤ (ps.filter fun v => decide (0 < v)).sum :=
    sum_nonneg_of_forall fun x hx => Int.le_of_lt (of_decide_eq_true (List.mem_filter.mp hx).2)
  have hneg : (ps.filter fun v => decide (v < 0)).sum ≤ 0 :=
    sum_nonpos_of_forall fun x hx => Int.le_of_lt (of_decide_eq_true (List.mem_filter.mp hx).2)
  have hsum := sum_filter_pos_add_sum_filter_neg ps
  rw [intSum_eq]
  split
  next h => exact .exact ⟨by omega, by omega⟩
  next => exact saturatingSum_satTree k _ ps (Nat.le_refl _) hps

/-! ## The terms of a layer -/

theorem signedOf_bounds {w v : Nat} (h : v < 2 ^ w) :
    -((2 ^ w : Nat) : Int) ≤ 2 * signedOf w v ∧ 2 * signedOf w v < ((2 ^ w : Nat) : Int) := by
  unfold signedOf
  split <;> simp only [Int.ofNat_eq_natCast] <;> omega

/-- The zero point of the input as the layer descriptor holds it (R152). -/
theorem parseLayerDesc_inZero_bounds (bs : List Byte) :
    -32768 ≤ (parseLayerDesc bs).inZero ∧ (parseLayerDesc bs).inZero ≤ 32767 := by
  have h := signedOf_bounds (w := 16) (v := fld (imgLE bs 0x54 4) 15 0) (Nat.mod_lt _ (by decide))
  simp only [parseLayerDesc]
  omega

theorem rawElem_lt (f n row k : Nat) : rawElem f n row k < 2 ^ netBits f := Nat.mod_lt _ (Nat.two_pow_pos _)

/-- An integer operand of a compute layer is INT8, UINT8 or INT4 (R146); its elements have at most eight bits. -/
theorem intElem_bounds {f raw : Nat} (hf : f = 1 ∨ f = 2 ∨ f = 3) (hraw : raw < 2 ^ netBits f) :
    -128 ≤ intElem f raw ∧ intElem f raw ≤ 255 := by
  obtain rfl | rfl | rfl := hf
  · have := signedOf_bounds (w := 8) hraw
    simp only [intElem, netBits]
    omega
  · simp only [intElem, Int.ofNat_eq_natCast]
    omega
  · have := signedOf_bounds (w := 4) hraw
    simp only [intElem, netBits]
    omega

theorem isInt_iff {a : Nat} : isInt a = true ↔ a = 1 ∨ a = 2 ∨ a = 3 ∨ a = 4 := by
  simp only [isInt, Bool.and_eq_true, decide_eq_true_eq]
  omega

theorem isF8_of_isInt {a : Nat} (ha : isInt a = true) : isF8 a = false := by
  obtain rfl | rfl | rfl | rfl := isInt_iff.mp ha
  all_goals rfl

theorem formats_of_pairOk {a w : Nat} {sparse : Bool} (ha : isInt a = true) (h : pairOk a w sparse = true) :
    (a = 1 ∨ a = 2 ∨ a = 3) ∧ (w = 1 ∨ w = 2 ∨ w = 3) := by
  have hrange := isInt_iff.mp ha
  unfold pairOk at h
  simp only [isF8_of_isInt ha, Bool.false_and, Bool.or_false] at h
  split at h
  · simp only [Bool.and_eq_true, Bool.or_eq_true, beq_iff_eq] at h
    omega
  · simp only [Bool.and_eq_true, Bool.or_eq_true, beq_iff_eq] at h
    omega

theorem weightElems_lt {f n row : Nat} {sparse : Bool} {e : Nat × Nat} (he : e ∈ weightElems f n sparse row) : e.2 < 2 ^ netBits f := by
  unfold weightElems at he
  split at he
  · obtain ⟨g, -, hg⟩ := List.mem_flatMap.mp he
    obtain rfl | rfl : e = _ ∨ e = _ := by
      simpa only [List.mem_cons, List.not_mem_nil, or_false] using hg
    · exact rawElem_lt ..
    · exact rawElem_lt ..
  · obtain ⟨c, -, rfl⟩ := List.mem_map.mp he
    exact rawElem_lt ..

/-- The terms of one accumulator of an integer layer: the element of A less the zero point, times the weight. -/
def intTerms (l : LayerDesc) (as : List (Nat × Nat)) (wrow : Nat → Nat) (first width : Nat) : List Int :=
  (as.flatMap fun x => (weightElems l.wFmt width l.sparse (wrow x.1)).map fun e => (x.1, x.2, e)).map fun p =>
    (intElem l.aFmt (rawElem l.aFmt l.inC p.2.1 (first + p.2.2.1)) - l.inZero) * intElem l.wFmt p.2.2.2

/-- An accumulator of an integer layer is the saturating sum of its terms, as FP32, with whether it saturated. -/
theorem macs_of_isInt {l : LayerDesc} (h : isInt l.aFmt = true) (v : Nat) (as : List (Nat × Nat)) (wrow : Nat → Nat)
    (first width : Nat) : macs l v as wrow first width =
      (toF32 v (fOfInt (intSum v (intTerms l as wrow first width)).1), (intSum v (intTerms l as wrow first width)).2) := by
  rw [macs, if_pos h]
  rfl

theorem inInt32_product {z a w : Int} (ha : -128 ≤ a ∧ a ≤ 255) (hz : -32768 ≤ z ∧ z ≤ 32767) (hw : -128 ≤ w ∧ w ≤ 255) :
    InInt32 ((a - z) * w) := by
  have habs : ((a - z) * w).natAbs ≤ 33023 * 255 := by
    rw [Int.natAbs_mul]
    exact Nat.mul_le_mul (by omega) (by omega)
  exact ⟨by omega, by omega⟩

/-- Every accumulator of an integer layer saturates as R167 says: no product of a layer leaves INT32 by itself. The zero
point of a parsed descriptor is in range (`parseLayerDesc_inZero_bounds`). -/
theorem saturatingSum_intTerms {l : LayerDesc} (hint : isInt l.aFmt = true) (hpair : pairOk l.aFmt l.wFmt l.sparse = true)
    (hzero : -32768 ≤ l.inZero ∧ l.inZero ≤ 32767) (v : Nat) (as : List (Nat × Nat)) (wrow : Nat → Nat) (first width : Nat) :
    SaturatingSum (intTerms l as wrow first width) (intSum v (intTerms l as wrow first width)) := by
  obtain ⟨ha, hw⟩ := formats_of_pairOk hint hpair
  refine saturatingSum_intSum v fun x hx => ?_
  obtain ⟨p, hp, rfl⟩ := List.mem_map.mp hx
  obtain ⟨t, -, ht⟩ := List.mem_flatMap.mp hp
  obtain ⟨e, he, rfl⟩ := List.mem_map.mp ht
  exact inInt32_product (intElem_bounds ha (rawElem_lt ..)) hzero (intElem_bounds hw (weightElems_lt he))

/-! ## The counterexample -/

/-- One term is its own sum and is not brought into INT32, though it lies outside. -/
theorem intSum_singleton_beyond (k : Nat) : intSum k [2147483648] = (2147483648, false) := by
  rw [intSum_eq, if_neg (by decide)]
  rfl

/-- Refutes O15, by the clause on terms that are not negative: it asks it of every list of integers, and a list of the one term
2^31 is never added to anything, so that the model answers 2^31 and not the upper limit 2^31 - 1. The terms of a layer lie in
INT32, and of such terms the clauses hold (`intSum_of_sublists`, `saturatingSum_intTerms`). -/
theorem not_integerSumsSaturate : ¬ Obligations.IntegerSumsSaturate := by
  intro h
  obtain ⟨-, hnonneg, -, -⟩ := h 0 [2147483648]
  have hsum := hnonneg (by decide)
  rw [intSum_singleton_beyond] at hsum
  exact absurd hsum (by decide)

end Sys2Proof.Machine
end

section
/-! SUPPORT. A packet that Headgate takes (R264 to R275): what comes of it is what its opcode's own checks say. -/

namespace Sys2Proof.Machine

variable {spec : OpSpec} {h : Pk → State → Verdict} {src : Src} {p : Packet} {pk : Pk} {s a b t : State}

/-! ## The packet's way to the checks of its opcode -/

theorem queue?_names {fn q : Nat} {u : Queue} (h : s.queue? fn q = some u) : u.fn = fn ∧ u.q = q := by
  simpa using List.find?_some h

/-- Past steps 5 to 9 of R266 the outcome is that of the opcode's own checks. -/
theorem checkPacket_of_passes {len : Nat} (hp : Passes spec pk len s) : s.checkPacket spec h pk len = h pk s := by
  obtain ⟨hassigned, hmay, hlen, hlost, hfaulted, hclean⟩ := hp
  unfold State.checkPacket
  simp only [hassigned, hmay, hlen, hclean, Bool.not_true, Bool.false_eq_true, if_false, ne_eq, not_true_eq_false]
  cases hk : pk.key with
  | none => simp
  | some k =>
    cases hc : s.ctx? k with
    | none => simp [hc]
    | some c =>
      have hl : ¬(c.st = .lost ∧ spec.lostOk = false) := fun ⟨hst, hno⟩ => by
        rw [hlost k c hk hc hst] at hno
        exact absurd hno (by decide)
      have hf : ¬(c.st = .faulted ∧ spec.job = true) := fun ⟨hst, hjob⟩ => by
        rw [hfaulted k c hk hc hst] at hjob
        exact absurd hjob (by decide)
      simp [hc, hl, hf]

/-- A refusal of the packet's form counts its detail from the packet's place in the ring (R283). -/
def Verdict.placed (pos : Nat) : Verdict → Verdict
  | .reply st d s => .reply st (if st = stBadPacket then d + pos else d) s
  | v => v

/-- A packet as it comes to step 5 of R266. -/
def Pk.ofPacket (src : Src) (op : BitVec 8) (key : Option CtxKey) (p : Packet) : Pk :=
  { src := src, fn := srcFn src, key := key, origin := packetOrigin p src op, bytes := packetBytes p, named := p.named }

/-- Steps 3 and 4 of R266 pass a packet that names its own queue and context and leaves the reserved header fields 0. -/
theorem checkRing_of_names {u : Queue} (hq : p.queue.toNat = u.q) (hc : p.ctx.toNat = u.ctx) (hz0 : p.rsv0 = 0) (hz3 : p.rsv3 = 0) :
    s.checkRing spec h u p =
      (s.checkPacket spec h (.ofPacket (.queue u.fn u.q) spec.opcode (some ⟨u.fn, u.ctx⟩) p) p.len.toNat).placed (at' u.read 8) := by
  unfold State.checkRing
  rw [if_neg (by simp [hq, hc]), if_neg (by simp [hz0, hz3])]
  rfl

@[simp] theorem placed_zero (v : Verdict) : v.placed 0 = v := by
  cases v <;> simp [Verdict.placed]

/-- A queue's packet that Headgate comes to is settled by what steps 5 to 10 of R266 make of it. -/
theorem takeQueue_of_atHead {fn q : Nat} {u : Queue} {c : Ctx} (hh : AtHead spec fn q p u c s a b) :
    s.takeQueue spec h fn q p = State.settle fn q spec.opcode p (packetOrigin p (.queue fn q) spec.opcode) b
      (((b.takeHead fn q p.len.toNat).checkPacket spec h (.ofPacket (.queue fn q) spec.opcode (some ⟨fn, u.ctx⟩) p)
        p.len.toNat).placed (at' u.read 8)) := by
  obtain ⟨hqueue, hctx, halive, hserves, ⟨hhalt, hdestr, hwait⟩, hheld, hawaits, hturn, hpending, hroom, hheader, hbody,
    ⟨hlen, hfits⟩, hwhole, hbarrier, hjobs, ⟨hnq, hnc⟩, ⟨hz0, hz3⟩, -⟩ := hh
  obtain ⟨rfl, rfl⟩ := queue?_names hqueue
  unfold State.takeQueue
  simp only [hqueue, hctx, hserves, hhalt, hdestr, hwait, hawaits, hturn, hheader, hbody, hlen, checkRing_of_names hnq hnc hz0 hz3]
  rw [if_neg ?other, if_neg hpending, if_neg (by omega), if_neg (by simp; omega), if_neg (by omega),
    if_neg (by simpa using hbarrier), if_neg (by simpa using hjobs)]
  case other =>
    cases hx : u.held with
    | none => simp [halive]
    | some x =>
      obtain ⟨hop, hpkt, hreset⟩ := hheld x hx
      cases hj : spec.job <;> simp [halive, hop, hpkt, hreset, hj]

/-! ## What becomes of a packet that Headgate takes -/

/-- What the outcome of a packet's own checks makes of it; `b` is the state after its reads. -/
def State.conclude (src : Src) (op : BitVec 8) (p : Packet) (b : State) (v : Verdict) : State :=
  match src, v with
  | .queue fn q, v => State.settle fn q op p (packetOrigin p src op) b v
  | .mailbox _, .owed t => awaited src t
  | .mailbox _, v => State.settleMbox p (packetOrigin p src op) b v

/-- A mailbox packet that Headgate comes to is settled by what steps 5 to 10 of R266 make of it. -/
theorem takeMbox_of_inMailbox {fn : Nat} {f : Fun} (hm : InMailbox spec fn p f s) :
    s.takeMbox spec h fn p = (s.closeTurn fn false).conclude (.mailbox fn) spec.opcode p
      ((s.closeTurn fn false).checkPacket spec h (.ofPacket (.mailbox fn) spec.opcode none p) p.len.toNat) := by
  obtain ⟨hf, hserves, ⟨hbusy, hserving⟩, hholds, hturn, ⟨hlen, hle⟩, ⟨hctx, hqueue⟩, ⟨hz0, hz3⟩, -⟩ := hm
  unfold State.takeMbox
  simp only [hf]
  rw [if_neg (by simp [hserves, hbusy, hserving, hholds, hturn]), if_neg (by simp [hlen]; omega), if_neg (by simp [hctx, hqueue]),
    if_neg (by simp [hz0, hz3])]
  simp only [Pk.ofPacket, srcFn]
  cases State.checkPacket _ _ _ _ _ <;> rfl

/-- A packet that Headgate takes comes to its opcode's own checks. -/
theorem takePacket_of_taken (ht : Taken spec src p pk s b) :
    pk.origin = packetOrigin p src spec.opcode ∧
    ∃ pos, s.takePacket spec h src p = b.conclude src spec.opcode p ((h pk (offHead src p b)).placed pos) := by
  obtain ⟨hreach, hpass⟩ := ht
  have hcheck := checkPacket_of_passes (h := h) hpass
  cases src with
  | queue fn q =>
    obtain ⟨u, c, a, hh, rfl⟩ := hreach
    refine ⟨rfl, at' u.read 8, ?_⟩
    rw [State.takePacket, if_neg (by simp [srcFn, hh.ends]), ← hcheck]
    exact takeQueue_of_atHead hh
  | mailbox fn =>
    obtain ⟨f, hm, rfl, rfl⟩ := hreach
    refine ⟨rfl, 0, ?_⟩
    rw [State.takePacket, if_neg (by simp [srcFn, hm.ends]), ← hcheck, placed_zero]
    exact takeMbox_of_inMailbox hm

/-- Headgate replies at once; the opcode is none of those whose replies carry a value of the packet. -/
theorem takePacket_eq_answered {st d : Nat} (ht : Taken spec src p pk s b) (hval : packetValue spec.opcode p = 0)
    (hst : st ≠ stBadPacket) (hv : h pk (offHead src p b) = .reply st d t) :
    s.takePacket spec h src p = answered src pk st d t := by
  obtain ⟨horigin, pos, htake⟩ := takePacket_of_taken (h := h) ht
  rw [htake, hv, answered, horigin]
  cases src <;> simp [Verdict.placed, hst, State.conclude, State.settle, State.settleMbox, hval, served, State.replyHg, packetOrigin]

theorem takePacket_eq_awaited (ht : Taken spec src p pk s b) (hv : h pk (offHead src p b) = .owed t) :
    s.takePacket spec h src p = awaited src t := by
  obtain ⟨-, pos, htake⟩ := takePacket_of_taken (h := h) ht
  rw [htake, hv]
  cases src <;> rfl

theorem takePacket_eq_held {fn q : Nat} {why : Hold} (ht : Taken spec (.queue fn q) p pk s b)
    (hv : h pk (offHead (.queue fn q) p b) = .hold why) :
    s.takePacket spec h (.queue fn q) p = (b.holdPacket fn q why spec.opcode p).endTurn fn q := by
  obtain ⟨-, pos, htake⟩ := takePacket_of_taken (h := h) ht
  rw [htake, hv]
  rfl

end Sys2Proof.Machine
end

section
/-! SUPPORT. The packets of the display pipes and the camera channels (R206, R210, R215, R223 to R225). -/

namespace Sys2Proof.Machine

/-! ## DSP_LAYER_SET, DSP_COMMIT and PROTECT_SET (R206, R210, R215) -/

theorem layerSet_of_checked {pk : Pk} {s t : State} {k : CtxKey} (hk : pk.key = some k) (hls : packetLayers pk ≠ [])
    (hcheck : checkLayers (pk.f 0 1 0) k (enumFrom 0 (packetLayers pk)) s = (none, t)) :
    layerSet pk s = .reply stOk 0 (t.modPipe (pk.f 0 1 0) (Pipe.write (.layers (packetLayers pk)))) := by
  simp [layerSet, hk, hls, hcheck]

theorem dspCommit_of_pipe {pk : Pk} {s : State} {u : Pipe} (hu : s.pipes[pk.f 0 1 0]? = some u) :
    dspCommit pk s = if u.armed then .hold .commitArmed else .owed (s.modPipe (pk.f 0 1 0) (Pipe.arm (some pk.origin))) := by
  simp [dspCommit, hu]

theorem protectSet_of_fits {pk : Pk} {s : State} {u : Pipe} {d : ProtDesc} (hd : parseProt (pk.bytes.take 64) pk.origin = d)
    (hu : s.pipes[pk.f 0 1 0]? = some u) (hup : s.procUp 3 = true) (hbad : d.bad u.applied = none)
    (hcontent : s.inProtected d.content d.bytes = true) (hfall : s.inProtected d.fallback d.bytes = true) (harm : u.armed = false) :
    protectSet pk s = .owed (s.modPipe (pk.f 0 1 0) fun u => (u.write (.prot d)).arm (some pk.origin)) := by
  simp [protectSet, hu, hup, hd, hbad, hcontent, hfall, harm]

/-! ## CAM_CONFIG and CAM_BIND (R223 to R225) -/

theorem camConfig_of_fits {pk : Pk} {s : State} {c : Channel} {d : CamDesc} (hd : parseCam ((pk.bytes.drop 0x10).take 32) = d)
    (hc : s.chan? (pk.f 0 2 0) (pk.f 0 11 8) = some c) (hbad : d.bad = none) (harm : c.armed = false)
    (hfits : ∀ x, c.shadowBind = some x → d.outH * d.stride ≤ x.bytes) :
    camConfig pk s = .owed (s.modChan (pk.f 0 2 0) (pk.f 0 11 8) fun c =>
      { c.write (some d, none) with armed := true, waiters := [pk.origin] }) := by
  unfold camConfig
  simp only [hc, hd, hbad, harm, Bool.false_eq_true, if_false]
  cases hx : c.shadowBind with
  | none => rfl
  | some x => simp [Nat.not_lt.mpr (hfits x hx)]

theorem camBind_of_fits {pk : Pk} {s r t : State} {k : CtxKey} {c : Channel} {x : CamBinding} (hk : pk.key = some k)
    (hx : parseBind ((pk.bytes.drop 0x10).take 96) k = x) (hc : s.chan? (pk.f 0 2 0) (pk.f 0 11 8) = some c)
    (hlo : 1 ≤ x.count) (hhi : x.count ≤ 8) (hlines : x.bytes % 128 = 0) (hsize : 128 ≤ x.bytes) (hrec : x.record % 512 = 0)
    (hfence : x.fence % 16 = 0) (hspan : (if x.record = 0 then (true, s) else s.bindSpan k x.record 512 false) = (true, r))
    (hbufs : bindBuffers x (enumFrom 0 (x.bufs.take x.count)) r = (none, t)) :
    camBind pk s = .reply stOk 0 (t.modChan (pk.f 0 2 0) (pk.f 0 11 8) (Channel.write (none, some x))) := by
  unfold camBind
  simp only [hk, hc, hx, hspan, hbufs]
  rw [if_neg (by omega), if_neg (by omega), if_neg (by omega)]
  simp [hfence]

/-- Settles O38: each packet passes its opcode's own checks, and Headgate replies, owes the reply or holds the packet. -/
theorem layerAndBindingPackets : Obligations.LayerAndBindingPackets := by
  intro src p pk s b k hk
  refine ⟨fun ht s2 hls hcheck => ?layerSet, fun ht u hu => ⟨fun harm => ?commit, ?held⟩,
    fun ht u hu hup hbad hcontent hfall harm => ?protectSet, fun c hc => ⟨fun ht hbad harm hfits => ?camConfig, ?camBind⟩⟩
  case layerSet => exact congrArg Host.Outcome.next (takePacket_eq_answered ht rfl (by decide) (layerSet_of_checked hk hls hcheck))
  case commit => exact congrArg Host.Outcome.next (takePacket_eq_awaited ht (by simp [dspCommit_of_pipe hu, harm]))
  case held =>
    rintro harm fn q rfl
    exact congrArg Host.Outcome.next (takePacket_eq_held ht (by simp [dspCommit_of_pipe hu, harm]))
  case protectSet => exact congrArg Host.Outcome.next (takePacket_eq_awaited ht (protectSet_of_fits rfl hu hup hbad hcontent hfall harm))
  case camConfig => exact congrArg Host.Outcome.next (takePacket_eq_awaited ht (camConfig_of_fits rfl hc hbad harm hfits))
  case camBind =>
    intro ht r s2 x hlo hhi hlines hsize hrec hfence hspan hbufs
    exact congrArg Host.Outcome.next (takePacket_eq_answered ht rfl (by decide)
      (camBind_of_fits hk rfl hc hlo hhi hlines hsize hrec hfence hspan hbufs))

end Sys2Proof.Machine
end

section
/-! SUPPORT. The commands of the camera receivers and their channels (R222 to R230). -/

namespace Sys2Proof.Machine

/-! ## One receiver, one channel -/

/-- Updates that agree on an element agree on the list. -/
theorem modNth_congr {α : Type} {f g : α → α} {a : α} (hfg : f a = g a) : ∀ {i : Nat} {l : List α}, l[i]? = some a →
    modNth f i l = modNth g i l
  | _, [], _ => by simp [modNth]
  | 0, b :: l, h => by
    obtain rfl := Option.some.inj h
    simp [modNth, hfg]
  | i + 1, b :: l, h => by simp [modNth, modNth_congr hfg (show l[i]? = some a from h)]

section Rules

variable {port vc : Nat} {s : State} {p : Port} {c : Channel}

theorem modPort_congr {f g : Port → Port} (hp : s.camera.ports[port]? = some p) (hfg : f p = g p) :
    s.modPort port f = s.modPort port g := by
  simp only [State.modPort, modNth_congr hfg hp]

theorem chan?_eq (hp : s.camera.ports[port]? = some p) : s.chan? port vc = p.chans[vc]? := by
  simp [State.chan?, hp]

theorem modChan_congr {f g : Channel → Channel} (hp : s.camera.ports[port]? = some p) (hc : s.chan? port vc = some c) (hfg : f c = g c) :
    s.modChan port vc f = s.modChan port vc g :=
  modPort_congr hp (by rw [modNth_congr hfg ((chan?_eq hp).symm.trans hc)])

/-! ## Start, stop and the deskew burst (R221, R230) -/

/-- A request over the link to a device that is awake is served at once. -/
theorem tlp_of_hostReaches (ins : Instr) (h : hostReaches s) : s.tlp ins = serveTlp ins s := by
  obtain ⟨hlink, hawake, -⟩ := h
  simp [State.tlp, hlink, hawake]

/-- A register operation of the camera block over the link. -/
theorem onRegs_onPort (f : Port → Port) (h : hostReaches s) (hup : s.islandUp 0x70 = true) :
    (s.onRegs fun s => s.onPort port f) = s.modPort port f := by
  obtain ⟨hlink, -, hfatal⟩ := h
  simp [State.onRegs, State.onPort, hlink, hfatal, hup]

theorem exec_camStart (h : hostReaches s) (hup : s.islandUp 0x70 = true) : exec (.camStart port) s = .next (s.modPort port Port.start) := by
  show Host.Outcome.next (s.tlp (.camStart port)) = _
  rw [tlp_of_hostReaches _ h]
  exact congrArg Host.Outcome.next (onRegs_onPort _ h hup)

theorem exec_camStop (h : hostReaches s) (hup : s.islandUp 0x70 = true) : exec (.camStop port) s = .next (s.modPort port Port.stop) := by
  show Host.Outcome.next (s.tlp (.camStop port)) = _
  rw [tlp_of_hostReaches _ h]
  exact congrArg Host.Outcome.next (onRegs_onPort _ h hup)

theorem exec_deskewBurst (result : Word) (hp : s.camera.ports[port]? = some p) (hup : s.islandUp 0x70 = true) (hrun : p.running = true) :
    exec (.deskewBurst port result) s = .next (s.modPort port fun p => { p with deskew := result }) := by
  show execDeskewBurst port result s = _
  simp only [execDeskewBurst, State.onPort, hup, if_true]
  exact congrArg Host.Outcome.next (modPort_congr hp (if_pos hrun))

/-! ## The ends of frames (R227, R228) -/

theorem endFrame_of_noFrame (truncated : Bool) (h : c.cur = none) : c.endFrame truncated = c := by
  simp [Channel.endFrame, h]

theorem endFrame_of_frame (truncated : Bool) {f : Frame} (h : c.cur = some f) : c.endFrame truncated =
    { c with cur := none, done := c.done ++ [{ f with truncated := f.truncated || truncated, ended := true }] } := by
  simp [Channel.endFrame, h]

theorem exec_frameEnd {us : Nat} {f : Frame} {rest : List Frame} (hc : s.chan? port vc = some c) (hup : s.islandUp 0x70 = true)
    (hdone : c.done = f :: rest) : exec (.frameEnd port vc us) s = .next ((s.advance us).finishFrame port vc c f) := by
  show execFrameEnd port vc us s = _
  simp [execFrameEnd, hc, hdone, hup]

theorem exec_frameEndPacket (hp : s.camera.ports[port]? = some p) (hup : s.islandUp 0x70 = true) (hrun : p.running = true) :
    exec (.frameEndPacket port vc) s = .next (s.modChan port vc (Channel.endFrame false)) := by
  show execFrameEndPacket port vc s = _
  simp [execFrameEndPacket, hp, hup, hrun]

/-! ## Long packets (R222, R224) -/

section Packets

variable {line : CsiLine} (hp : s.camera.ports[port]? = some p) (hc : s.chan? port vc = some c) (hup : s.islandUp 0x70 = true)
  (hrun : p.running = true)

include hp hc hup hrun

theorem exec_csiPacket_uncorrectable (hhdr : line.hdr = .uncorrectable) : exec (.csiPacket port vc line) s =
    .next ((s.modPort port fun p => { p with hdrErr := satInc p.hdrErr }).modFrame port vc fun f => { f with errHdr := true }) := by
  show execCsiPacket port vc line s = _
  simp [execCsiPacket, hp, hc, hup, hrun, hhdr]

theorem exec_csiPacket_otherType (hhdr : line.hdr ≠ .uncorrectable) (hdt : line.dt.toNat ≠ c.applied.dt) :
    exec (.csiPacket port vc line) s = .next (s.modPort port fun p => { p with badDt := satInc p.badDt }) := by
  show execCsiPacket port vc line s = _
  simp [execCsiPacket, hp, hc, hup, hrun, hhdr, hdt]

/-- A line without an error goes on to the frame's buffer. -/
theorem exec_csiPacket_good (hhdr : line.hdr ≠ .uncorrectable) (hcrc : line.crcBad = false) (hok : dtOk line.dt.toNat = true)
    (hdt : line.dt.toNat = c.applied.dt) : exec (.csiPacket port vc line) s = .next (s.writeLine port vc c line) := by
  show execCsiPacket port vc line s = _
  unfold execCsiPacket
  simp only [hp, hc]
  rw [if_neg (by simp [hrun, hup]), if_neg hhdr, if_neg (not_or.mpr ⟨by simp [hok], fun hne => hne hdt⟩)]
  simp only [hcrc, Bool.false_eq_true, if_false]

end Packets

theorem writeLine_of_fits {line : CsiLine} {f : Frame} {b : CamBinding} {i r : Nat} {s2 : State} (hcur : c.cur = some f)
    (hbuf : f.buf = some i) (hbind : f.bind = some b) (hrow : c.applied.outRow line.row = some r)
    (hfits : r * c.applied.stride + c.applied.rowBytes ≤ b.bytes)
    (hwrite : s.camWrite c b.key (b.bufs.getD i 0 + r * c.applied.stride) (c.applied.lineBytes line.pixels) = (none, s2)) :
    s.writeLine port vc c line = s2.modFrame port vc fun f => { f with lines := f.lines + 1 } := by
  simp only [State.writeLine, hcur, hbuf, Option.bind_some, hbind, hrow, if_neg (Nat.not_lt.mpr hfits), hwrite]

/-! ## Frame starts (R224 to R227) -/

/-- Neither a frame nor a commit nor a withdrawal is pending on an enabled channel. -/
structure Channel.Quiet (c : Channel) : Prop where
  armed : c.armed = false
  cur : c.cur = none
  removing : c.removing = false
  gone : c.gone = []
  enable : c.applied.enable = true

theorem settle_of_gone_nil (h : c.gone = []) : c.settle = c := by
  unfold Channel.settle
  split
  · rfl
  · rw [← h]

theorem commit_of_not_armed (h : c.armed = false) : c.commit = c := by
  simp [Channel.commit, h]

theorem startFrame_unbound (stamp : BitVec 48) (lost : CtxKey → Bool) (h : c.Quiet) (hb : c.appliedBind = none) :
    c.startFrame stamp lost = { c with cur := some (c.emptyFrame stamp none) } := by
  obtain ⟨harmed, hcur, hrem, hgone, hen⟩ := h
  simp [Channel.startFrame, endFrame_of_noFrame true hcur, hrem, settle_of_gone_nil hgone, commit_of_not_armed harmed, hen, hb]

theorem startFrame_bound (stamp : BitVec 48) {lost : CtxKey → Bool} (h : c.Quiet) {b : CamBinding} {i : Nat} (hb : c.appliedBind = some b)
    (hlost : lost b.key = false) (hi : c.pickBuffer b = some i) : c.startFrame stamp lost =
      { c with cur := some { c.emptyFrame stamp b with buf := some i }, nextBuf := (i + 1) % b.count } := by
  obtain ⟨harmed, hcur, hrem, hgone, hen⟩ := h
  simp [Channel.startFrame, endFrame_of_noFrame true hcur, hrem, settle_of_gone_nil hgone, commit_of_not_armed harmed, hen, hb, hlost, hi]

/-- A frame start on a channel that is not armed, whose frame finds a buffer or needs none: the channel alone changes. -/
theorem exec_frameStart {c' : Channel} {f : Frame} (hp : s.camera.ports[port]? = some p) (hc : s.chan? port vc = some c)
    (hup : s.islandUp 0x70 = true) (hrun : p.running = true) (harmed : c.armed = false) (hcur : c'.cur = some f)
    (hbuf : f.noBuffer = false)
    (hstart : ∀ lost : CtxKey → Bool, (∀ k x, s.ctx? k = some x → lost k = decide (x.st = .lost)) →
      c.startFrame (s.count 0x70) lost = c') :
    exec (.frameStart port vc) s = .next (s.modChan port vc fun _ => c') := by
  show execFrameStart port vc s = _
  unfold execFrameStart
  simp only [hp, hc]
  rw [if_neg (by simp [hrun, hup]), hstart _ fun k x hx => by rw [hx]]
  simp [hcur, hbuf, harmed, runAll]

end Rules

/-! ## The statement -/

/-- Settles O27: each command by its rule. Where the statement writes out an update of the receiver or the channel, it need agree with
the model's only on the value that stands there. -/
theorem cameraEvents : Obligations.CameraEvents := by
  intro port vc s p c hp hc hup
  refine ⟨fun h => exec_camStart h hup, fun h hrun => ?camStop, fun us f rest hdone => exec_frameEnd hc hup hdone, fun hrun =>
    ⟨fun result => exec_deskewBurst result hp hup hrun, ?frameEndPacket, fun line => exec_csiPacket_uncorrectable hp hc hup hrun,
      fun line => exec_csiPacket_otherType hp hc hup hrun, ?goodLine, ?frameStart⟩⟩
  case camStop =>
    rw [exec_camStop h hup]
    refine congrArg Host.Outcome.next (modPort_congr hp ((if_pos hrun).trans ?_))
    refine congrArg (fun cs => { p with running := false, chans := cs }) (List.map_congr_left fun c _ => ?_)
    cases hcur : c.cur with
    | none => simp [endFrame_of_noFrame true hcur]
    | some f => simp [endFrame_of_frame true hcur]
  case frameEndPacket =>
    rw [exec_frameEndPacket hp hup hrun]
    refine congrArg Host.Outcome.next (modChan_congr hp hc ?_)
    cases hcur : c.cur with
    | none => simp [endFrame_of_noFrame false hcur]
    | some f => simp [endFrame_of_frame false hcur]
  case goodLine =>
    intro line f b i r s2 hhdr hcrc hok hdt hcur hbuf hbind hrow hfits hwrite
    rw [exec_csiPacket_good hp hc hup hrun hhdr hcrc hok hdt, writeLine_of_fits hcur hbuf hbind hrow hfits hwrite]
  case frameStart =>
    intro harmed hcur hrem hgone hen fresh
    have hquiet : c.Quiet := ⟨harmed, hcur, hrem, hgone, hen⟩
    refine ⟨fun hb => ?_, fun b i x hb hx hlive hi => ?_⟩
    · rw [exec_frameStart hp hc hup hrun harmed rfl rfl fun lost _ => startFrame_unbound _ lost hquiet hb]
      exact congrArg Host.Outcome.next (modChan_congr hp hc rfl)
    · rw [exec_frameStart hp hc hup hrun harmed rfl rfl fun lost hlost =>
        startFrame_bound _ hquiet hb ((hlost _ _ hx).trans (decide_eq_false hlive)) hi]
      exact congrArg Host.Outcome.next (modChan_congr hp hc rfl)

end Sys2Proof.Machine
end
